-- ==== Sys2Proof/Word.lean ====
section
/-! DEFINITION. The word types of the LMX-1780: bytes, 32-bit registers, 64-bit pairs, rows of a mat. -/

namespace Sys2Proof

/-- One byte of memory. -/
abbrev Byte := BitVec 8

/-- One 32-bit register, uniform or of one lane (R32, R56). -/
abbrev Word := BitVec 32

/-- A 64-bit operand: a pair of registers, an address, an instruction word (R5, R48). -/
abbrev DWord := BitVec 64

/-- One row of a mat: 1,024 columns, column c in bit c (R261). -/
abbrev Row := BitVec 1024

/-- An execution mask: lane l in bit l (R24). -/
abbrev Mask := BitVec 1024

end Sys2Proof
end

