-- ==== Sys2Proof/Config.lean ====
section
/-! DEFINITION. What the part fixes (the counts of R2, R3), the configuration record (R392), and the free values that the
spec leaves open. -/

namespace Sys2Proof.Config

/-- An indeterminate value (R9): nothing constrains it. Applied to the counter `State.freeCtr`, which every use advances
(log entry 1). -/
opaque freeValue : Nat → BitVec 64

/-- Indeterminate bits of one row of a mat (R261, R274, R289); applied as `freeValue` is (log entry 1). -/
opaque freeRow : Nat → BitVec 1024

/-- For a special function (named by its opcode) and an input, which of the results within the stated accuracy the fixed
function returns (R102, R103; log entry 2). -/
opaque sfuChoice : BitVec 10 → BitVec 32 → Nat

/-- The VERSION of the standard control-store image, which the spec does not give (R271, R273; log entry 3). -/
opaque standardVersion : BitVec 32

/-- How far a die's copy of the reference timer stands from it, modulo 5 and less 2 ns (R353; log entry 1). -/
opaque dieSkew : Nat → BitVec 8

/-- The root die of a line's home slice: the address hash is hidden (R185; log entry 1). -/
opaque rootDie : Nat → BitVec 3

/-- The identity key's signature over a report (R393; log entry 4). -/
opaque identitySign : List (BitVec 8) → BitVec 512

/-- Bits of the home slice of a line: the address hash is not architectural (R185; log entry 1). -/
opaque homeSlice : Nat → BitVec 16

/-- How many lines the spill area of a slice's version buffer holds: the spec gives its size in bytes, and no size of an entry
(R242; log entry 1). -/
opaque spillLines : BitVec 16

/-- The octets of the operation that a management frame of a kind (0 device number, 1 width) carries for a value: the spec gives
management frames no form (R366, R368, R381; log entry 1). -/
opaque managementOctets : Nat → Nat → BitVec 128

/-- How many frames beyond one a link's far end has buffers for, in a class at a hop stage: the spec gives no number (R366; log
entry 74). -/
opaque linkCredits : Nat → Nat → BitVec 16

/-- The power that a rail's regulator reports, of which the spec gives no value (R397; log entry 1). -/
opaque railPower : Nat → BitVec 16

def numCores : Nat := 512
def numGroves : Nat := 64
def numDies : Nat := 8
def numSlices : Nat := 384
def coresPerGrove : Nat := 8
def teamSlots : Nat := 16
def laneRegsPerCore : Nat := 196608
def numQueues : Nat := 256
def numPorts : Nat := 36
def ringEntries : Nat := 256
def copyUnitCapacity : Nat := 256
def tokensPerCore : Nat := 64
def sideLogCapacity : Nat := 512
def matsPerRank : Nat := 3072
def bundleLineLimit : Nat := 4096

end Sys2Proof.Config
end

