-- ==== Sys2Proof/Machine/Bits.lean ====
section
/-! DEFINITION. Bit fields, extension, byte order and keyed tables: the helpers that every meaning uses. -/

namespace Sys2Proof.Machine

/-- Bit k of a number. -/
def bitN (x k : Nat) : Bool := Nat.testBit x k

/-- The field of `len` bits at position `lo` of a number. -/
def fieldN (x lo len : Nat) : Nat := (x >>> lo) % 2 ^ len

/-- The number x with its field of `len` bits at `lo` replaced. -/
def setFieldN (x lo len v : Nat) : Nat :=
  x - fieldN x lo len * 2 ^ lo + (v % 2 ^ len) * 2 ^ lo

/-- A number of n bits read as two's complement. -/
def signedN (n x : Nat) : Int :=
  let y := x % 2 ^ n
  if 2 * y < 2 ^ n then (y : Int) else (y : Int) - (2 ^ n : Nat)

/-- An integer taken modulo 2^n. -/
def wrapN (n : Nat) (x : Int) : Nat := (x % ((2 ^ n : Nat) : Int)).toNat

/-- 1 for true. -/
def b2n (b : Bool) : Nat := if b then 1 else 0

/-- The n bytes of a number, least significant first (R5). -/
def toBytes : Nat → Nat → List Byte
  | 0, _ => []
  | n + 1, x => BitVec.ofNat 8 x :: toBytes n (x / 256)

/-- The number that bytes form, least significant first (R5). -/
def ofBytes : List Byte → Nat
  | [] => 0
  | b :: bs => b.toNat + 256 * ofBytes bs

/-- The bytes of a number, most significant first (R362). -/
def toBytesBE (n x : Nat) : List Byte := (toBytes n x).reverse

/-- The number that bytes form, most significant first (R362). -/
def ofBytesBE (bs : List Byte) : Nat := ofBytes bs.reverse

/-- The n bytes at offset o of a byte string, zero beyond its end. -/
def sliceN (bs : List Byte) (o n : Nat) : Nat := ofBytes ((bs.drop o).take n)

/-- Byte o of a byte string, zero beyond its end. -/
def byteAt (bs : List Byte) (o : Nat) : Byte := (bs.drop o).headD 0

/-- The least multiple of m at or above x. -/
def alignUp (x m : Nat) : Nat := (x + m - 1) / m * m

/-- The two registers of a pair as one value, low half first (R32). -/
def pairWord (lo hi : Word) : DWord := hi ++ lo

/-- The low and the high half of a 64-bit value (R32). -/
def loWord (x : DWord) : Word := x.setWidth 32
def hiWord (x : DWord) : Word := (x >>> 32).setWidth 32

/-- A table keyed by numbers, keys rising; an absent key stands for a default the reader of the table names. -/
abbrev Tab (α : Type) := List (Nat × α)

/-- The entry at a key, or the default. -/
def Tab.get {α : Type} : Tab α → Nat → α → α
  | [], _, dflt => dflt
  | (k', x) :: t, k, dflt => if k' = k then x else Tab.get t k dflt

/-- The entry at a key, if any. -/
def Tab.find {α : Type} : Tab α → Nat → Option α
  | [], _ => none
  | (k', x) :: t, k => if k' = k then some x else Tab.find t k

/-- The table with an entry set, kept in rising order of keys. -/
def Tab.put {α : Type} : Tab α → Nat → α → Tab α
  | [], k, x => [(k, x)]
  | (k', x') :: t, k, x =>
    if k' = k then (k, x) :: t
    else if k < k' then (k, x) :: (k', x') :: t
    else (k', x') :: Tab.put t k x

/-- The table without a key. -/
def Tab.erase {α : Type} (t : Tab α) (k : Nat) : Tab α := t.filter (fun e => e.1 != k)

/-- A list with the element at position i replaced. -/
def setAt {α : Type} : List α → Nat → α → List α
  | [], _, _ => []
  | _ :: xs, 0, y => y :: xs
  | x :: xs, i + 1, y => x :: setAt xs i y

/-- The least number not below `lo` that is no key of the table (among the table's length of candidates). -/
def Tab.freshKey {α : Type} (t : Tab α) (lo : Nat) : Nat :=
  ((List.range (t.length + 1)).find? (fun i => (Tab.find t (lo + i)).isNone)).elim (lo + t.length + 1) (lo + ·)

end Sys2Proof.Machine
end

