-- ==== Sys2Proof/Syntax.lean ====
section
/-! DEFINITION. The abstract syntax: registers, guards, the fields of the F, L and P frames (R51, R54, R63), the trap
causes (R74), and `Instr`, one constructor per row of the opcode table. -/

namespace Sys2Proof

/-- A number of the register space of R56: v0 to v191, then s0 to s63. -/
abbrev Reg := BitVec 8

/-- A guard field (R51, R54): the register, the bit of it, and whether the bit is inverted. -/
structure Guard where
  neg : Bool
  bit : BitVec 5
  reg : Reg
  deriving DecidableEq, Repr

/-- The default guard of R55: `s63` bit 0, always true. -/
def Guard.always : Guard := ⟨false, 0, 0xFF⟩

/-- The fields of an F word but its opcode (R51). -/
structure FArgs where
  d : Reg
  a : Reg
  b : Reg
  g : Guard
  la : BitVec 4
  hint : BitVec 2
  mod : BitVec 6
  imm : Bool
  yld : Bool
  deriving DecidableEq, Repr

/-- The fields of the two words of an L instruction but its opcode (R54). -/
structure LArgs where
  d : Reg
  a : Reg
  b : Reg
  c : Reg
  e : Reg
  la : BitVec 4
  hint : BitVec 2
  mod : BitVec 6
  g1 : Guard
  g2 : Guard
  orGuards : Bool
  imm33 : BitVec 33
  deriving DecidableEq, Repr

/-- The P-opcodes 0 to 23 of R64, in that order. -/
inductive POp where
  | iadd | isub | imin | imax | andB | orB | xorB | andn | notB | shl | shr | sar | mov | ineg | iabs | popc
  | fadd | fsub | fmul | fmin | fmax | fabs | fneg | movi
  deriving DecidableEq, Repr

/-- One slot of a P word (R63). -/
structure PSlot where
  op : POp
  d : Reg
  a : Reg
  mod : BitVec 4
  q : BitVec 4
  deriving DecidableEq, Repr

/-- The two slots of a P word (R63). -/
structure PArgs where
  s0 : PSlot
  s1 : PSlot
  deriving DecidableEq, Repr

/-- A flit that arrives at an interposer port: its class, the colour it came on, and its sequence number in the class (R341, R342). -/
structure Flit where
  cls : Nat
  colour : Nat
  seq : Nat
  deriving DecidableEq, Repr

/-- The named traps (R74). -/
inductive Cause where
  | illegalOpcode | illegalFrame | reservedField | pairConflict | privilege | misaligned | pageNotPresent
  | pagePermission | tileIntegrity | lookaheadViolation | mixedSize | memUncorrectable | clearingFault | stackOverflow
  | softwareTrap | breakpoint | formatSlot | bundleLimit | nestDepth | watchdog | fabricUnreachable | bankMode
  deriving DecidableEq, Repr


/-- The operations and events of spec/opcode_table.json, one constructor per row, those with
operands first, each part in the table's order. A row of the
instruction set carries the fields of its frame; a row that is an event of the machine carries the numbers that say which
unit, command, page or line it happens to. -/
inductive Instr where
  | iadd (f : FArgs)
  | isub (f : FArgs)
  | iadds (f : FArgs)
  | imul (f : FArgs)
  | imulh (f : FArgs)
  | imad (f : FArgs)
  | idp4 (f : FArgs)
  | idiv (f : FArgs)
  | irem (f : FArgs)
  | imin (f : FArgs)
  | imax (f : FArgs)
  | iabs (f : FArgs)
  | ineg (f : FArgs)
  | icmp (f : FArgs)
  | andB (f : FArgs)
  | orB (f : FArgs)
  | xorB (f : FArgs)
  | andn (f : FArgs)
  | notB (f : FArgs)
  | shl (f : FArgs)
  | shr (f : FArgs)
  | sar (f : FArgs)
  | rot (f : FArgs)
  | bfx (f : FArgs)
  | bfi (f : FArgs)
  | popc (f : FArgs)
  | clz (f : FArgs)
  | ctz (f : FArgs)
  | brev (f : FArgs)
  | sel (f : FArgs)
  | mov (f : FArgs)
  | movi (f : FArgs)
  | lea (f : FArgs)
  | movw (l : LArgs)
  | fadd (f : FArgs)
  | fsub (f : FArgs)
  | fmul (f : FArgs)
  | ffma (f : FArgs)
  | fmin (f : FArgs)
  | fmax (f : FArgs)
  | fabs (f : FArgs)
  | fneg (f : FArgs)
  | fcmp (f : FArgs)
  | fclass (f : FArgs)
  | frnd (f : FArgs)
  | fscale (f : FArgs)
  | fdiv (f : FArgs)
  | fsqrt (f : FArgs)
  | frcp (f : FArgs)
  | frsq (f : FArgs)
  | fexp2 (f : FArgs)
  | flog2 (f : FArgs)
  | fsin (f : FArgs)
  | fcos (f : FArgs)
  | ftanh (f : FArgs)
  | cvt (f : FArgs)
  | cvtq (f : FArgs)
  | cvtd (f : FArgs)
  | pack (f : FArgs)
  | unpk (f : FArgs)
  | shfl (f : FArgs)
  | bcast (f : FArgs)
  | ballot (f : FArgs)
  | vote (f : FArgs)
  | sred (f : FArgs)
  | sscan (f : FArgs)
  | matchLanes (f : FArgs)
  | pPair (p : PArgs)
  | nop (f : FArgs)
  | bra (f : FArgs)
  | braL (l : LArgs)
  | brx (f : FArgs)
  | call (f : FArgs)
  | ret (f : FArgs)
  | divIf (f : FArgs)
  | divElse (f : FArgs)
  | divJoin (f : FArgs)
  | divLoop (f : FArgs)
  | divBrk (f : FArgs)
  | divNext (f : FArgs)
  | exit (f : FArgs)
  | yieldTeam (f : FArgs)
  | launch (f : FArgs)
  | cwait (f : FArgs)
  | ld (f : FArgs)
  | ldL (l : LArgs)
  | st (f : FArgs)
  | stL (l : LArgs)
  | lds (f : FArgs)
  | ldsL (l : LArgs)
  | sts (f : FArgs)
  | stsL (l : LArgs)
  | ldk (f : FArgs)
  | atom (f : FArgs)
  | atomc (f : FArgs)
  | atomf (f : FArgs)
  | red (f : FArgs)
  | atomag (f : FArgs)
  | fpush (f : FArgs)
  | fpop (f : FArgs)
  | pref (f : FArgs)
  | cwb (f : FArgs)
  | cinv (f : FArgs)
  | bankset (f : FArgs)
  | bankDrainEnd (agent : Nat)
  | cpy (f : FArgs)
  | cpyt (l : LArgs)
  | copyLineOperation (copyId : Nat)
  | ringInit (f : FArgs)
  | ringWait (f : FArgs)
  | ringPark (f : FArgs)
  | ringRel (f : FArgs)
  | ringQ (f : FArgs)
  | pclose (f : FArgs)
  | popen (f : FArgs)
  | phase (f : FArgs)
  | bclose (f : FArgs)
  | bquery (f : FArgs)
  | fence (f : FArgs)
  | barInit (f : FArgs)
  | barArv (f : FArgs)
  | barWait (f : FArgs)
  | barSync (f : FArgs)
  | barrierCompletionNotice (agent : Nat)
  | accrd (f : FArgs)
  | accwr (f : FArgs)
  | rowst (f : FArgs)
  | accsc (f : FArgs)
  | tileAccessPerformed (core : Nat)
  | clrClaim (f : FArgs)
  | claimDrainEnd (agent : Nat)
  | clrFree (f : FArgs)
  | clrTload (l : LArgs)
  | clrTstore (l : LArgs)
  | clrCall (l : LArgs)
  | clrPred (f : FArgs)
  | clrRdrow (f : FArgs)
  | clrWait (f : FArgs)
  | clrQ (f : FArgs)
  | clrCsload (f : FArgs)
  | sequencerCommand (slice : Nat)
  | clearingWatchdogTrip (slice : Nat)
  | rdsys (f : FArgs)
  | wrsys (f : FArgs)
  | clrAsqWrite (value : Word)
  | trap (f : FArgs)
  | brk (f : FArgs)
  | eret (f : FArgs)
  | tlbi (f : FArgs)
  | tlbiAcknowledge (unit : Nat)
  | ctxsv (f : FArgs)
  | ctxld (f : FArgs)
  | sleep (f : FArgs)
  | wake (f : FArgs)
  | sleepIntervalExpires (agent : Nat)
  | mxZero (f : FArgs)
  | mxMma (l : LArgs)
  | mxSmma (l : LArgs)
  | mxQmma (l : LArgs)
  | mxLdacc (l : LArgs)
  | mxStacc (l : LArgs)
  | mxScale (f : FArgs)
  | mxWait (f : FArgs)
  | mxQ (f : FArgs)
  | mxCancel (f : FArgs)
  | mxBind (f : FArgs)
  | mxDispatch (agent : Nat) (ticket : Word)
  | mxStep (agent : Nat) (ticket : Word)
  | mxEntryComplete (agent : Nat) (ticket : Word)
  | longLatencyCompletion (agent : Nat) (entry : Nat)
  | sideLogReplay (agent : Nat) (page : Nat)
  | faultRecordPost (asid : Nat)
  | faultrespRetry (asid : Nat) (index : Nat)
  | faultrespReject (asid : Nat) (index : Nat)
  | faultrespAbort (asid : Nat) (index : Nat)
  | qtailDoorbell (queue : Nat) (value : Word)
  | qctlEnable (queue : Nat) (value : Word)
  | qctlDisable (queue : Nat) (value : Word)
  | commandTakeUp (queue : Nat)
  | launchCommand (cmd : Nat)
  | signal (cmd : Nat)
  | waitsig (cmd : Nat)
  | waitsigReread (cmd : Nat)
  | copy (cmd : Nat)
  | portdrain (cmd : Nat)
  | porttrain (cmd : Nat)
  | routeload (cmd : Nat)
  | routeswap (cmd : Nat)
  | dependenceEvaluation (grid : Nat)
  | workgroupRetirement (wg : Nat)
  | gridRetirement (grid : Nat)
  | lineEviction (agent : Nat) (line : Nat)
  | heldBytesPlaced (line : Nat)
  | fabricTimeout (tag : Nat)
  | bundleCommitSend (bundle : Nat)
  | bundleSettleSend (bundle : Nat)
  | bundleWithdrawal (bundle : Nat)
  | frameReceived (port : Nat) (octets : List Byte)
  | managementFrame (port : Nat) (neighbour : Nat) (width : Nat)
  | linkReplayTimeout (port : Nat)
  | emptyAckFrame (port : Nat)
  | portWiden (port : Nat)
  | portNarrow (port : Nat)
  | portWidthTakesEffect (port : Nat)
  | wavelengthLoss (port : Nat) (wavelength : Nat) (cause : Nat)
  | wavelengthRelock (port : Nat) (wavelength : Nat) (orders : Nat)
  | collectiveSlotEnd (ctx : Nat)
  | collectiveCompletion (ctx : Nat)
  | ccctlEnable (ctx : Nat) (value : Word)
  | ccctlDisable (ctx : Nat) (value : Word)
  | flitReceived (pair : Nat) (flit : Flit) (crcOk : Bool)
  | colourLost (pair : Nat) (colour : Nat) (cause : Nat)
  | colourBGateOff (pair : Nat)
  | colourBWake (pair : Nat)
  | pairDrainEnd (pair : Nat)
  | routePairWrite (pair : Nat) (value : Word)
  | routePairRetrain (pair : Nat)
  | pairRetrainEnd (pair : Nat) (relocked : Nat)
  | frequencyDecision (die : Nat) (mhz : Nat)
  | relockStart (die : Nat)
  | relockEnd (die : Nat)
  | thermalEmergency (core : Nat)
  | thermalEmergencyEnd (die : Nat)
  | dramStackStateChange (stack : Nat) (temp : Nat)
  | bar2Read (offset : Nat) (count : Nat)
  | bar2Write (offset : Nat) (octets : List Byte)
  | bootStage (verdict : Nat)
  | attestationGo (octets : List Byte)
  | patrolScrub (line : Nat)
  | uncorrectableError (addr : Nat)
  | correctedSoftErrors (kind : Nat) (unit : Nat) (count : Nat)
  | registerWrite (offset : Nat) (value : DWord) (wide : Bool)
  | closeCompletion (agent : Nat)
  | postedAccessPerformed (entry : Nat)
  | controlStoreLoadEnd (agent : Nat) (verified : Bool)
  | portCommandTimeout (cmd : Nat)
  | routeswapSemaphoreRead (cmd : Nat)
  | debuggerHalt (core : Nat)
  | debuggerResume (core : Nat)
  | corePowerGating (core : Nat) (off : Bool)
  | fqovfClear
  | placement
  | gangReservation
  | preemption
  | restore
  | readLine
  | versionFetch
  | resolvingFetch
  | writeLine
  | atomic
  | invalidate
  | acknowledge
  | bundlePending
  | bundleCommit
  | bundleSettle
  | collectiveShard
  | allowUpdate
  | powerClassChange
  | budgetWindow
  | powerOn
  | attestationReport
  | packageResetRequest
  | uncorrectableLinkError
  deriving DecidableEq, Repr

end Sys2Proof
end

