-- ==== Sys2Proof/Machine/OpInfo.lean ====
section
/-! DEFINITION. What the opcode map and the descriptions of the instructions say of each instruction's fields: where it
runs, its level and class, its operands, and which values of mod, immediate and hint it allows (R52, R57, R60, R61, R68). -/

namespace Sys2Proof.Machine

/-- The Runs-in column of R68. -/
inductive RunsIn where
  | both | team | forester
  deriving DecidableEq, Repr

/-- Which registers a field may name. -/
inductive RegKind where
  | any | sOnly | vOnly
  deriving DecidableEq, Repr

/-- One register operand: its first register, how many registers, whether the first must be a multiple of the count
rounded to 2 or 4 (R32, R189), whether it is read and written, and the registers allowed. -/
structure Opnd where
  reg : Reg
  n : Nat
  aligned : Bool
  rd : Bool
  wr : Bool
  kind : RegKind
  deriving DecidableEq, Repr

/-- The rule for a guard: as R57 says, an s register only (R26, R117, R118, R331), a per-lane condition, or the default
guard only (R115). -/
inductive GuardRule where
  | usual | sOnly | condition | default
  deriving DecidableEq, Repr

/-- Whether an s destination may stand beside v sources, or only in a single-strand team (R57, R108). -/
inductive SDst where
  | no | yes | singleStrand
  deriving DecidableEq, Repr

/-- What the description of an instruction gives for one word of it. -/
structure OpRow where
  runs : RunsIn := .both
  priv : Bool := false
  long : Bool := false
  hintOk : Bool := false
  guardRule : GuardRule := .usual
  sDst : SDst := .no
  opnds : List Opnd := []
  fieldsOk : Bool := true
  deriving DecidableEq, Repr

def isV (r : Reg) : Bool := decide (r.toNat < 192)
def isS (r : Reg) : Bool := decide (192 ≤ r.toNat)

def oRd (r : Reg) (n : Nat) : Opnd := ⟨r, n, true, true, false, .any⟩
def oWr (r : Reg) (n : Nat) : Opnd := ⟨r, n, true, false, true, .any⟩
def oRw (r : Reg) (n : Nat) : Opnd := ⟨r, n, true, true, true, .any⟩
def sRd (r : Reg) (n : Nat) : Opnd := ⟨r, n, true, true, false, .sOnly⟩
def sWr (r : Reg) (n : Nat) : Opnd := ⟨r, n, true, false, true, .sOnly⟩
def vWr (r : Reg) (n : Nat) : Opnd := ⟨r, n, true, false, true, .vOnly⟩
def vRd (r : Reg) (n : Nat) : Opnd := ⟨r, n, true, true, false, .vOnly⟩

/-- The mod field has no bit outside the mask. -/
def modIn (f : FArgs) (mask : BitVec 6) : Bool := f.mod &&& ~~~mask == 0

/-- Bit k of the mod field. -/
def mb (m : BitVec 6) (k : Nat) : Bool := m.getLsbD k

/-- Registers of an operand of the width W selects (R82). -/
def nW (f : FArgs) : Nat := if mb f.mod 1 then 2 else 1

/-- The b operand, absent when b is an immediate. -/
def bRd (f : FArgs) (n : Nat) : List Opnd := if f.imm then [] else [oRd f.b n]

def bZero (f : FArgs) : Bool := f.b == 0 && !f.imm

/-- Integer d, a, b with an immediate form for b or without (R87). -/
def rowInt3 (f : FArgs) (mask : BitVec 6) (imm : Bool) : OpRow :=
  { opnds := [oWr f.d (nW f), oRd f.a (nW f)] ++ bRd f (nW f), fieldsOk := modIn f mask && (imm || !f.imm) }

/-- Integer d, a (R87). -/
def rowInt2 (f : FArgs) (mask : BitVec 6) (nd : Nat) : OpRow :=
  { opnds := [oWr f.d nd, oRd f.a (nW f)], fieldsOk := modIn f mask && bZero f }

/-- Shifts: b is one register or the immediate (R91). -/
def rowShift (f : FArgs) : OpRow :=
  { opnds := [oWr f.d (nW f), oRd f.a (nW f)] ++ bRd f 1, fieldsOk := modIn f 0b000010 }

/-- The type and OP fields of the float block (R83). -/
def fT (m : BitVec 6) : Nat := m.toNat / 8 % 4
def fOP (m : BitVec 6) : Nat := m.toNat % 8
def nT (f : FArgs) : Nat := if fT f.mod == 1 then 2 else 1

def fModOk (m : BitVec 6) (packed : Bool) (rounding : Bool) : Bool :=
  !mb m 5 && (packed || decide (fT m ≤ 1)) && (if rounding then decide (fOP m ≤ 3) else decide (fOP m = 0))

def rowF3 (f : FArgs) (packed rounding : Bool) : OpRow :=
  { opnds := [oWr f.d (nT f), oRd f.a (nT f), oRd f.b (nT f)], fieldsOk := fModOk f.mod packed rounding && !f.imm }

def rowF2 (f : FArgs) (nd : Nat) (packed rounding : Bool) : OpRow :=
  { opnds := [oWr f.d nd, oRd f.a (nT f)], fieldsOk := fModOk f.mod packed rounding && bZero f }

/-- The special functions: FP32, OP 0, team only, LONG (R102). -/
def rowSfu (f : FArgs) : OpRow :=
  { runs := .team, long := true, opnds := [oWr f.d 1, oRd f.a 1], fieldsOk := f.mod == 0 && bZero f }

/-- Register count of a type of CVT (R104). -/
def cvtN (code : Nat) : Nat := if code == 2 || code == 3 || code == 7 then 2 else 1

/-- The mode field of the cross-lane block (R108). -/
def xMode (m : BitVec 6) : Nat := m.toNat / 4

/-- Size fields of loads and stores (R189): registers of the group, and bytes. -/
def szRegs (sz : Nat) : Nat := if sz == 5 then 2 else if sz == 6 then 4 else 1
def szBytes (sz : Nat) : Nat :=
  if sz == 0 then 4 else if sz ≤ 2 then 1 else if sz ≤ 4 then 2 else if sz == 5 then 8 else 16

/-- SZ of a load or store: mod[2:0], the other bits zero (R189). -/
def ldSzOk (m : BitVec 6) : Bool := decide (m.toNat ≤ 6)
def stSzOk (m : BitVec 6) : Bool := decide (m.toNat ≤ 6) && m.toNat != 2 && m.toNat != 4

/-- The F offset form: b is an immediate, or zero (R189). -/
def offOk (f : FArgs) : Bool := f.imm || f.b == 0

def lZero (l : LArgs) : Bool := l.b == 0 && l.c == 0 && l.e == 0

/-- Bytes and registers of an atomic's size field (R196). -/
def atomSzBytes (op sz : Nat) : Nat :=
  if op ≥ 16 then (if sz == 3 then 8 else 4) else 2 ^ sz
def atomSzRegs (op sz : Nat) : Nat :=
  if op ≥ 16 then (if sz == 3 then 2 else 1) else if sz == 3 then 2 else if sz == 4 then 4 else 1

/-- The OP and SZ pairs of R196, per opcode: 0 ATOM, 1 ATOMF, 2 RED. -/
def atomOpOk (which op sz : Nat) : Bool :=
  let intAll := decide (sz ≤ 4)
  let int3264 := sz == 2 || sz == 3
  let flt := sz == 2 || sz == 3 || sz == 5 || sz == 6
  if op == 0 then which == 0 && intAll
  else if op == 1 then (which == 0 || which == 2) && intAll
  else if 2 ≤ op && op ≤ 9 then (which == 0 || which == 2) && int3264
  else if op == 10 || op == 11 then (which == 0 || which == 2) && sz == 2
  else if 16 ≤ op && op ≤ 18 then (which == 1 || which == 2) && flt
  else false

/-- ORD and SCOPE of a strong access (R196). -/
def modOrd (m : BitVec 6) : Nat := m.toNat / 16
def modScope (m : BitVec 6) : Nat := m.toNat / 4 % 4

def atomOrdOk (which op ord : Nat) : Bool :=
  if which == 2 then !(ord == 1 || ord == 3)
  else if which == 0 && op == 0 then !(ord == 2 || ord == 3) else true

def rowAtom (f : FArgs) (which : Nat) : OpRow :=
  let op := f.b.toNat / 8
  let sz := f.b.toNat % 8
  let n := atomSzRegs op sz
  { long := which != 2
    opnds := [if which == 2 then oRd f.d n else oRw f.d n, oRd f.a 2]
    fieldsOk := f.imm && modIn f 0b111100 && atomOpOk which op sz && atomOrdOk which op (modOrd f.mod) }

/-- The scope field of the synchronisation block, in mod[1:0] (R249). -/
def rowSync (f : FArgs) (mask : BitVec 6) (opnds : List Opnd) (zero : Bool) : OpRow :=
  { opnds := opnds, fieldsOk := modIn f mask && !f.imm && zero, guardRule := .sOnly }

/-- A barrier arrival: index in b when IDX (R249). -/
def rowArrive (f : FArgs) : OpRow :=
  let idx := mb f.mod 2
  rowSync f 0b000111 (sRd f.a 2 :: (if idx then [sRd f.b 1] else [])) (f.d == 0 && (idx || f.b == 0))

/-- The unassigned numbers of R329, and the width, level and access class of each register. -/
inductive SysReg where
  | gridid | wgid | wgidh | teamid | role | nlanes | strand | depth | asid | prio
  | core | grove | die | device | cyc | ncyc | reftime | freq | thermAllow | thermCore | pclass
  | llcCacheWays | clrLimit | clrAsq | fstat | qmax | qsatn | qnfn | qctr
  | trapcause | trappc | trapaddr | tstate | kscr0 | kscr1 | kscr2 | kscr3
  | asidtab | faultresp | fqovf | rsvbase | routePair
  deriving DecidableEq, Repr

/-- The register of a number (R329). -/
def SysReg.ofNum (n : Nat) : Option SysReg :=
  match n with
  | 0x00 => some .gridid | 0x01 => some .wgid | 0x02 => some .wgidh | 0x03 => some .teamid | 0x04 => some .role
  | 0x05 => some .nlanes | 0x06 => some .strand | 0x07 => some .depth | 0x08 => some .asid | 0x09 => some .prio
  | 0x10 => some .core | 0x11 => some .grove | 0x12 => some .die | 0x13 => some .device
  | 0x18 => some .cyc | 0x19 => some .ncyc | 0x1A => some .reftime | 0x1B => some .freq
  | 0x20 => some .thermAllow | 0x21 => some .thermCore | 0x22 => some .pclass
  | 0x28 => some .llcCacheWays | 0x29 => some .clrLimit | 0x2A => some .clrAsq
  | 0x30 => some .fstat | 0x31 => some .qmax | 0x32 => some .qsatn | 0x33 => some .qnfn | 0x34 => some .qctr
  | 0x38 => some .trapcause | 0x39 => some .trappc | 0x3A => some .trapaddr | 0x3B => some .tstate
  | 0x3C => some .kscr0 | 0x3D => some .kscr1 | 0x3E => some .kscr2 | 0x3F => some .kscr3
  | 0x40 => some .asidtab | 0x41 => some .faultresp | 0x42 => some .fqovf | 0x43 => some .rsvbase
  | 0x48 => some .routePair
  | _ => none

/-- Registers marked 64 in R329. -/
def SysReg.is64 : SysReg → Bool
  | .cyc | .ncyc | .reftime | .trappc | .trapaddr | .asidtab => true
  | _ => false

/-- Registers of level priv in R329. -/
def SysReg.isPriv : SysReg → Bool
  | .clrLimit | .clrAsq | .trapcause | .trappc | .trapaddr | .tstate | .kscr0 | .kscr1 | .kscr2 | .kscr3
  | .asidtab | .faultresp | .fqovf | .rsvbase | .routePair => true
  | _ => false

/-- Registers on which RM is allowed (R330). -/
def SysReg.rmOk (r : SysReg) (write : Bool) : Bool :=
  match r with
  | .routePair => true
  | .thermAllow | .thermCore | .cyc | .ncyc | .freq => !write
  | _ => false

/-- The field rules of RDSYS and WRSYS (R330); `data` is d of RDSYS or a of WRSYS, `target` the other. -/
def rowSys (f : FArgs) (write : Bool) : OpRow :=
  let data := if write then f.a else f.d
  let target := if write then f.d else f.a
  let rm := mb f.mod 0
  let w := mb f.mod 1
  let n := if w then 2 else 1
  let regOk := match SysReg.ofNum f.b.toNat with
    | none => false
    | some r => (!rm || r.rmOk write) && (!w || r.is64)
  { long := !write
    opnds := (if write then sRd data n else sWr data n) :: (if rm then [sRd target 1] else [])
    fieldsOk := f.imm && modIn f 0b000011 && regOk && (rm || target == 0) }

/-- The level a register number asks for (R329, R330). -/
def sysPriv (f : FArgs) : Bool := ((SysReg.ofNum f.b.toNat).map SysReg.isPriv).getD false

/-- imm33 has no bit outside a mask. -/
def xOnly (l : LArgs) (mask : BitVec 33) : Bool := l.imm33 &&& ~~~mask == 0

/-- The fields an L-frame macro-operation leaves zero, and the bits of imm33 that it uses (R54, R72, R160). -/
def mxZeroFields (l : LArgs) (b e : Bool) (used : BitVec 33) : Bool :=
  (!b || l.b == 0) && l.c == 0 && (!e || l.e == 0) && l.mod == 0 && xOnly l used

/-- The fields of a mat transfer (R278). -/
def rowTransfer (l : LArgs) (mask : BitVec 6) : OpRow :=
  { runs := .team, hintOk := true, opnds := [sRd l.d 1, oRd l.a 1, oRd l.b 2]
    fieldsOk := l.c == 0 && l.e == 0 && l.mod &&& ~~~mask == 0 && l.imm33.toNat / 2 ^ 17 == 0
      && (mb mask 0 || !l.imm33.getLsbD 16) }

end Sys2Proof.Machine
end

