-- ==== Sys2Proof/Machine/OpRows.lean ====
section
/-! DEFINITION. The row of every instruction of the set: its context, level, class, operands and field rules, by its
description (R68 and the rule named at each block). Events of the machine have no word and no row. -/

namespace Sys2Proof.Machine

/-- Integer and logic block (R87 to R95). -/
def rowInteger : Instr → Option OpRow
  | .iadd f => rowInt3 f 0b000010 true
  | .isub f => rowInt3 f 0b000010 true
  | .iadds f => rowInt3 f 0b000011 true
  | .imul f => rowInt3 f 0b000010 true
  | .imulh f => rowInt3 f 0b000011 false
  | .imad f => some { opnds := [oRw f.d (nW f), oRd f.a (nW f), oRd f.b (nW f)], fieldsOk := modIn f 0b000010 && !f.imm }
  | .idp4 f => some { opnds := [oRw f.d 1, oRd f.a 1, oRd f.b 1], fieldsOk := modIn f 0b000101 && !f.imm }
  | .idiv f => some { rowInt3 f 0b000011 false with long := true }
  | .irem f => some { rowInt3 f 0b000011 false with long := true }
  | .imin f => rowInt3 f 0b000011 true
  | .imax f => rowInt3 f 0b000011 true
  | .iabs f => rowInt2 f 0b000110 (nW f)
  | .ineg f => rowInt2 f 0b000110 (nW f)
  | .icmp f => some { opnds := [oRw f.d 1, oRd f.a (nW f)] ++ bRd f (nW f), fieldsOk := decide (f.mod.toNat / 4 ≤ 5) }
  | .andB f => rowInt3 f 0b000010 true
  | .orB f => rowInt3 f 0b000010 true
  | .xorB f => rowInt3 f 0b000010 true
  | .andn f => rowInt3 f 0b000010 true
  | .notB f => rowInt2 f 0b000010 (nW f)
  | .shl f => rowShift f
  | .shr f => rowShift f
  | .sar f => rowShift f
  | .rot f => rowShift f
  | .bfx f => some { opnds := [oWr f.d 1, oRd f.a 1, oRd f.b 1], fieldsOk := modIn f 0b000001 && !f.imm }
  | .bfi f => some { opnds := [oRw f.d 1, oRd f.a 1, oRd f.b 1], fieldsOk := modIn f 0 && !f.imm }
  | .popc f => rowInt2 f 0b000010 1
  | .clz f => rowInt2 f 0b000010 1
  | .ctz f => rowInt2 f 0b000010 1
  | .brev f => rowInt2 f 0b000010 (nW f)
  | .sel f => some { opnds := [oRw f.d 1, oRd f.a 1] ++ bRd f 1 }
  | .mov f => rowInt2 f 0b000010 (nW f)
  | .movi f => some { opnds := [oWr f.d (nW f)], fieldsOk := modIn f 0b000010 && f.imm && f.a == 0 }
  | .lea f => some { opnds := [oWr f.d 2, oRd f.a 2] ++ bRd f 1, fieldsOk := modIn f 0b111100 && decide (f.mod.toNat / 4 % 8 ≤ 4) }
  | .movw l => some
      { opnds := [oWr l.d (if mb l.mod 1 then 2 else 1)]
        fieldsOk := l.a == 0 && lZero l && l.mod &&& 0b111101 == 0 && (mb l.mod 1 || !l.imm33.getLsbD 32) }
  | _ => none

/-- Float, special-function and conversion blocks (R96 to R107). -/
def rowFloat : Instr → Option OpRow
  | .fadd f => rowF3 f true true
  | .fsub f => rowF3 f true true
  | .fmul f => rowF3 f true true
  | .ffma f => some { rowF3 f true true with opnds := [oRw f.d (nT f), oRd f.a (nT f), oRd f.b (nT f)] }
  | .fmin f => rowF3 f true false
  | .fmax f => rowF3 f true false
  | .fabs f => rowF2 f (nT f) true false
  | .fneg f => rowF2 f (nT f) true false
  | .fcmp f => some { opnds := [oRw f.d 1, oRd f.a (nT f), oRd f.b (nT f)], fieldsOk := decide (f.mod.toNat < 16) && !f.imm }
  | .fclass f => rowF2 f (nT f) true false
  | .frnd f => rowF2 f (nT f) false true
  | .fscale f => some { opnds := [oWr f.d (nT f), oRd f.a (nT f)] ++ bRd f 1, fieldsOk := fModOk f.mod false true }
  | .fdiv f => some { rowF3 f false true with runs := .team, long := true }
  | .fsqrt f => some { rowF2 f (nT f) false true with runs := .team, long := true }
  | .frcp f => rowSfu f
  | .frsq f => rowSfu f
  | .fexp2 f => rowSfu f
  | .flog2 f => rowSfu f
  | .fsin f => rowSfu f
  | .fcos f => rowSfu f
  | .ftanh f => rowSfu f
  | .cvt f => some
      { opnds := [oWr f.d (cvtN (f.mod.toNat / 8)), oRd f.a (cvtN (f.mod.toNat % 8))]
        fieldsOk := f.imm && decide (f.b.toNat < 8) }
  | .cvtq f => some { runs := .team, opnds := [vWr f.d 1, vRd f.a 1, oRd f.b 1], fieldsOk := modIn f 0b000111 && !f.imm }
  | .cvtd f => some { runs := .team, opnds := [vWr f.d 1, vRd f.a 1, oRd f.b 1], fieldsOk := modIn f 0b000111 && !f.imm }
  | .pack f => some
      { opnds := [if mb f.mod 1 then oRw f.d 1 else oWr f.d 1, oRd f.a 1, oRd f.b 1], fieldsOk := modIn f 0b000111 && !f.imm }
  | .unpk f => some { opnds := [oWr f.d 1, oRd f.a 1] ++ bRd f 1, fieldsOk := modIn f 0b000111 }
  | _ => none

/-- Cross-lane block (R108 to R113). -/
def rowCross : Instr → Option OpRow
  | .shfl f => some { runs := .team, opnds := [vWr f.d 1, oRd f.a 1] ++ bRd f 1, fieldsOk := modIn f 0b111100 && decide (xMode f.mod ≤ 3) }
  | .bcast f => some
      { runs := .team, opnds := [vWr f.d 1, oRd f.a 1] ++ (if f.imm then [] else [sRd f.b 1]), fieldsOk := modIn f 0 }
  | .ballot f => some
      { runs := .team, sDst := .singleStrand, opnds := [oWr f.d 1, oRd f.a 1] ++ (if f.imm then [] else [sRd f.b 1])
        fieldsOk := modIn f 0 }
  | .vote f => some
      { runs := .team, sDst := .singleStrand, opnds := [oRw f.d 1, oRd f.a 1] ++ bRd f 1
        fieldsOk := modIn f 0b111100 && decide (xMode f.mod ≤ 2) }
  | .sred f => some
      { runs := .team, sDst := .singleStrand, opnds := [oWr f.d 1, oRd f.a 1]
        fieldsOk := modIn f 0b111101 && bZero f && (decide (xMode f.mod ≤ 5) || (decide (8 ≤ xMode f.mod) && decide (xMode f.mod ≤ 10)))
          && (!mb f.mod 0 || decide (xMode f.mod ≤ 2)) }
  | .sscan f => some
      { runs := .team, opnds := [vWr f.d 1, oRd f.a 1]
        fieldsOk := bZero f && (decide (xMode f.mod ≤ 5) || (decide (8 ≤ xMode f.mod) && decide (xMode f.mod ≤ 10)))
          && (!mb f.mod 0 || decide (xMode f.mod ≤ 2)) }
  | .matchLanes f => some { runs := .team, opnds := [vWr f.d 1, oRd f.a 1], fieldsOk := modIn f 0 && bZero f }
  | _ => none

/-- Control block (R114 to R120). -/
def rowControl : Instr → Option OpRow
  | .nop f => some { fieldsOk := f.d == 0 && f.a == 0 && bZero f && modIn f 0 }
  | .bra f => some { guardRule := .sOnly, fieldsOk := !f.imm && modIn f 0 }
  | .braL l => some { guardRule := .sOnly, fieldsOk := l.d == 0 && l.a == 0 && lZero l && l.mod == 0 }
  | .brx f => some { guardRule := .sOnly, opnds := [sRd f.a 2], fieldsOk := f.d == 0 && bZero f && modIn f 0 }
  | .call f => some { guardRule := .sOnly, opnds := [sWr 0xFC 1], fieldsOk := !f.imm && modIn f 0 }
  | .ret f => some { guardRule := .sOnly, opnds := [sRd f.a 1], fieldsOk := f.d == 0 && bZero f && modIn f 0 }
  | .divIf f => some { runs := .team, guardRule := .condition, fieldsOk := !f.imm && modIn f 0 }
  | .divElse f => some { runs := .team, guardRule := .default, fieldsOk := !f.imm && modIn f 0 }
  | .divJoin f => some { runs := .team, guardRule := .default, fieldsOk := f.d == 0 && f.a == 0 && bZero f && modIn f 0 }
  | .divLoop f => some { runs := .team, guardRule := .condition, fieldsOk := !f.imm && modIn f 0 }
  | .divBrk f => some { runs := .team, guardRule := .condition, fieldsOk := f.d == 0 && f.a == 0 && bZero f && modIn f 0 }
  | .divNext f => some { runs := .team, guardRule := .condition, fieldsOk := f.d == 0 && f.a == 0 && bZero f && modIn f 0 }
  | .exit f => some { guardRule := .sOnly, fieldsOk := f.d == 0 && f.a == 0 && bZero f && modIn f 0 }
  | .yieldTeam f => some { guardRule := .sOnly, fieldsOk := f.d == 0 && f.a == 0 && bZero f && modIn f 0 }
  | .launch f => some { runs := .team, sDst := .yes, opnds := [sWr f.d 1, oRd f.a 2], fieldsOk := bZero f && modIn f 0 }
  | .cwait f => some { runs := .team, opnds := [sWr f.d 1], fieldsOk := f.a == 0 && bZero f && modIn f 0 }
  | _ => none

/-- The operands of an F load or store (R189). -/
def rowLoadF (f : FArgs) (pairAddr : Bool) : List Opnd := [oWr f.d (szRegs f.mod.toNat), oRd f.a (if pairAddr then 2 else 1)]
def rowStoreF (f : FArgs) (pairAddr : Bool) : List Opnd := [oRd f.d (szRegs f.mod.toNat), oRd f.a (if pairAddr then 2 else 1)]
def rowLoadL (l : LArgs) (pairAddr : Bool) : List Opnd := [oWr l.d (szRegs l.mod.toNat), oRd l.a (if pairAddr then 2 else 1)]
def rowStoreL (l : LArgs) (pairAddr : Bool) : List Opnd := [oRd l.d (szRegs l.mod.toNat), oRd l.a (if pairAddr then 2 else 1)]

/-- Memory block and asynchronous copies (R189 to R219). -/
def rowMemory : Instr → Option OpRow
  | .ld f => some { long := true, hintOk := true, opnds := rowLoadF f true, fieldsOk := ldSzOk f.mod && offOk f }
  | .ldL l => some { long := true, hintOk := true, opnds := rowLoadL l true, fieldsOk := ldSzOk l.mod && lZero l }
  | .st f => some { hintOk := true, opnds := rowStoreF f true, fieldsOk := stSzOk f.mod && offOk f }
  | .stL l => some { hintOk := true, opnds := rowStoreL l true, fieldsOk := stSzOk l.mod && lZero l }
  | .lds f => some { long := true, opnds := rowLoadF f false, fieldsOk := ldSzOk f.mod && offOk f }
  | .ldsL l => some { long := true, opnds := rowLoadL l false, fieldsOk := ldSzOk l.mod && lZero l }
  | .sts f => some { opnds := rowStoreF f false, fieldsOk := stSzOk f.mod && offOk f }
  | .stsL l => some { opnds := rowStoreL l false, fieldsOk := stSzOk l.mod && lZero l }
  | .ldk f => some
      { long := true, opnds := rowLoadF f false
        fieldsOk := (f.mod.toNat == 0 || f.mod.toNat == 5 || f.mod.toNat == 6) && offOk f }
  | .atom f => rowAtom f 0
  | .atomc f =>
      let n := if f.mod.toNat % 4 == 0 then 1 else if f.mod.toNat % 4 == 1 then 2 else 4
      some { long := true, opnds := [oRw f.d n, oRd f.a 2, oRd f.b n], fieldsOk := !f.imm && f.mod.toNat % 4 != 3 }
  | .atomf f => rowAtom f 1
  | .red f => rowAtom f 2
  | .atomag f =>
      let n := if f.mod.toNat % 4 == 1 then 2 else 1
      some { runs := .team, long := true, opnds := [⟨f.d, n, true, true, true, .vOnly⟩, sRd f.a 2]
             fieldsOk := bZero f && decide (f.mod.toNat % 4 ≤ 1) }
  | .fpush f => some { runs := .team, opnds := [oRd f.a 1], fieldsOk := f.d == 0 && bZero f && !mb f.mod 5 }
  | .fpop f => some { runs := .team, opnds := [oWr f.d 1], fieldsOk := f.a == 0 && bZero f && !mb f.mod 5 }
  | .pref f => some { runs := .team, hintOk := true, opnds := [oRd f.a 2], fieldsOk := f.d == 0 && offOk f && modIn f 0 }
  | .cwb f => some { runs := .team, opnds := [oRd f.a 2], fieldsOk := f.d == 0 && offOk f && modIn f 1 }
  | .cinv f => some { runs := .team, opnds := [oRd f.a 2], fieldsOk := f.d == 0 && offOk f && modIn f 1 }
  | .bankset f => some { runs := .team, opnds := [sRd f.a 1], fieldsOk := f.d == 0 && f.imm && decide (f.b.toNat ≤ 2) && modIn f 0 }
  | .cpy f => some
      { runs := .team, hintOk := true
        opnds := [sRd f.d 1, oRd f.a (if mb f.mod 2 then 1 else 2), oRd f.b (if mb f.mod 3 then 1 else 2)]
        fieldsOk := decide (f.mod.toNat % 4 ≤ 2) && !mb f.mod 5 && !f.imm }
  | .cpyt l => some
      { runs := .team, hintOk := true
        opnds := [sRd l.d 1, sRd l.a (if mb l.mod 1 then 1 else 2), sRd l.b 2, ⟨l.c, 5, false, true, false, .sOnly⟩]
        fieldsOk := l.e == 0 && l.imm33 == 0 && decide (l.mod.toNat < 8) && decide (l.c.toNat + 4 ≤ 0xFB) }
  | .ringInit f => some { runs := .team, opnds := [sWr f.d 1, sRd f.a 2], fieldsOk := bZero f && modIn f 0 }
  | .ringWait f => some { opnds := [sWr f.d 1, sRd f.a 1], fieldsOk := bZero f && modIn f 0 }
  | .ringPark f => some { runs := .team, opnds := [sWr f.d 1, sRd f.a 1, sRd f.b 2], fieldsOk := !f.imm && modIn f 0 }
  | .ringRel f => some { opnds := [sRd f.a 1], fieldsOk := f.d == 0 && bZero f && modIn f 0 }
  | .ringQ f => some { opnds := [sWr f.d 1, sRd f.a 1], fieldsOk := bZero f && decide (f.mod.toNat ≤ 5) }
  | _ => none

/-- Synchronisation block (R249) and accumulator access (R171 to R174). -/
def rowSyncAcc : Instr → Option OpRow
  | .pclose f => rowSync f 0b000011 [] (f.d == 0 && f.a == 0 && f.b == 0)
  | .popen f => rowSync f 0b000011 [] (f.d == 0 && f.a == 0 && f.b == 0)
  | .phase f => rowSync f 0b000011 [] (f.d == 0 && f.a == 0 && f.b == 0)
  | .bclose f => some { rowSync f 0b000011 [sWr f.d 2, sRd f.a 1] (f.b == 0 && decide (2 ≤ f.mod.toNat)) with runs := .team }
  | .bquery f => some { rowSync f 0b000001 [sWr f.d 1, sRd f.a 2] (f.b == 0) with runs := .team, long := true }
  | .fence f => rowSync f 0 [] (f.d == 0 && f.a == 0 && f.b == 0)
  | .barInit f => rowSync f 0b000011 [sRd f.a 2, sRd f.b 1] (f.d == 0)
  | .barArv f => rowArrive f
  | .barWait f => rowSync f 0b000011 [sRd f.a 2] (f.d == 0 && f.b == 0)
  | .barSync f => rowArrive f
  | .accrd f =>
      let n := 2 ^ (f.mod.toNat / 8 % 4)
      some { runs := .team, long := true, opnds := [vWr f.d n, oRd f.a 1], fieldsOk := bZero f && decide (f.mod.toNat < 24) }
  | .accwr f =>
      let n := 2 ^ (f.mod.toNat / 8 % 4)
      some { runs := .team, opnds := [oRd f.a 1, oRd f.b n], fieldsOk := f.d == 0 && !f.imm && decide (f.mod.toNat < 24) }
  | .rowst f =>
      let both := f.mod.toNat / 8 == 2
      some { runs := .team, long := true, opnds := [vWr f.d (if both then 2 else 1), oRd f.a 1]
             fieldsOk := bZero f && decide (f.mod.toNat < 24) }
  | .accsc f =>
      let e := mb f.mod 3
      some { runs := .team, opnds := [oRd f.a 1, oRd f.b 1] ++ (if e then [oRd f.d 1] else [])
             fieldsOk := modIn f 0b001111 && !f.imm && (e || f.d == 0) }
  | _ => none

/-- Clearing block (R272, R275 to R284). -/
def rowClearing : Instr → Option OpRow
  | .clrClaim f => some { runs := .team, opnds := [sWr f.d 1, sRd f.a 1], fieldsOk := bZero f && modIn f 0 }
  | .clrFree f => some { runs := .team, opnds := [sRd f.a 1], fieldsOk := f.d == 0 && bZero f && modIn f 0 }
  | .clrTload l => rowTransfer l 0
  | .clrTstore l => rowTransfer l 1
  | .clrCall l => some
      { runs := .team, opnds := [sRd l.d 1, oRd l.a 1, ⟨l.c, 4, false, true, false, .sOnly⟩]
        fieldsOk := l.b == 0 && l.e == 0 && l.mod &&& 0b111110 == 0 && !l.imm33.getLsbD 32 && decide (l.c.toNat + 3 ≤ 0xFB) }
  | .clrPred f =>
      let word := f.mod.toNat == 2
      some { runs := .team, opnds := [sRd f.d 1, oRd f.a 1] ++ (if word then [oRd f.b 1] else [])
             fieldsOk := decide (f.mod.toNat ≤ 2) && !f.imm && (word || f.b == 0) }
  | .clrRdrow f => some { runs := .team, long := true, opnds := [oWr f.d 1, oRd f.a 1, sRd f.b 1], fieldsOk := modIn f 0 && !f.imm }
  | .clrWait f => some { runs := .team, opnds := [sWr f.d 1, sRd f.a 1], fieldsOk := bZero f && modIn f 0 }
  | .clrQ f => some { runs := .team, opnds := [sWr f.d 1, sRd f.a 1], fieldsOk := bZero f && decide (f.mod.toNat ≤ 5) }
  | .clrCsload f => some { runs := .team, priv := true, opnds := [sWr f.d 1, sRd f.a 2], fieldsOk := bZero f && modIn f 0 }
  | _ => none

/-- System block (R318, R330 to R333, R338). -/
def rowSystem : Instr → Option OpRow
  | .rdsys f => some { rowSys f false with priv := sysPriv f }
  | .wrsys f => some { rowSys f true with priv := sysPriv f }
  | .trap f => some { guardRule := .sOnly, fieldsOk := f.imm && f.d == 0 && f.a == 0 && modIn f 0 }
  | .brk f => some { guardRule := .sOnly, fieldsOk := bZero f && f.d == 0 && f.a == 0 && modIn f 0 }
  | .eret f => some { guardRule := .sOnly, priv := true, fieldsOk := bZero f && f.d == 0 && f.a == 0 && modIn f 0 }
  | .tlbi f =>
      let m := f.mod.toNat
      some { runs := .team, priv := true
             opnds := (if m == 0 then [sRd f.a 2] else []) ++ (if m ≤ 1 then [sRd f.b 1] else [])
             fieldsOk := f.d == 0 && !f.imm && decide (m ≤ 2) && (m == 0 || f.a == 0) && (decide (m ≤ 1) || f.b == 0) }
  | .ctxsv f => some { runs := .team, priv := true, opnds := [sWr f.d 1, sRd f.a 2, sRd f.b 1], fieldsOk := !f.imm && modIn f 0 }
  | .ctxld f => some { runs := .team, priv := true, opnds := [sWr f.d 1, sRd f.a 2, sRd f.b 1], fieldsOk := !f.imm && modIn f 0 }
  | .sleep f => some { guardRule := .sOnly, opnds := [sRd f.a 1], fieldsOk := f.d == 0 && bZero f && modIn f 0 }
  | .wake f =>
      let x := mb f.mod 0
      some { guardRule := .sOnly, opnds := sRd f.a 1 :: (if x then [sRd f.b 2] else [])
             fieldsOk := f.d == 0 && modIn f 1 && !f.imm && (x || f.b == 0) }
  | _ => none

/-- Macro-operations and the forester's queue (R147, R160 to R170). -/
def rowMatrix : Instr → Option OpRow
  | .mxZero f => some { runs := .forester, opnds := [sWr f.d 1, sRd f.a 1], fieldsOk := f.imm && f.b != 0 && modIn f 0 }
  | .mxMma l => some { runs := .forester, opnds := [sWr l.d 1, sRd l.a 2, sRd l.b 2], fieldsOk := mxZeroFields l false true 0x1FFFFFF10 }
  | .mxSmma l => some { runs := .forester, opnds := [sWr l.d 1, sRd l.a 2, sRd l.b 2], fieldsOk := mxZeroFields l false true 0x1FFFFFFF0 }
  | .mxQmma l => some
      { runs := .forester, opnds := [sWr l.d 1, sRd l.a 2, sRd l.b 2, sRd l.e 2], fieldsOk := mxZeroFields l false false 0x1FFFFFF10 }
  | .mxLdacc l => some { runs := .forester, opnds := [sWr l.d 1, sRd l.a 2], fieldsOk := mxZeroFields l true true 0x1FFFF8003 }
  | .mxStacc l => some { runs := .forester, opnds := [sWr l.d 1, sRd l.a 2], fieldsOk := mxZeroFields l true true 0x1FFFF8003 }
  | .mxScale f => some { runs := .forester, opnds := [sWr f.d 1, sRd f.a 1, sRd f.b 1], fieldsOk := !f.imm && modIn f 0b100111 }
  | .mxWait f => some { runs := .forester, opnds := [sRd f.a 1], fieldsOk := f.d == 0 && bZero f && modIn f 0 }
  | .mxQ f => some { runs := .forester, opnds := [sWr f.d 1, sRd f.a 1], fieldsOk := bZero f && decide (f.mod.toNat ≤ 6) }
  | .mxCancel f => some { runs := .forester, opnds := [sWr f.d 1, sRd f.a 1], fieldsOk := bZero f && modIn f 0 }
  | .mxBind f => some { runs := .forester, opnds := [sWr f.d 1, sRd f.a 1], fieldsOk := bZero f && modIn f 0 }
  | _ => none

/-- The first of two rows. -/
def orRow (x y : Option OpRow) : Option OpRow :=
  match x with
  | some r => some r
  | none => y

/-- The row of an instruction; events of the machine have none. A P pair's slots are checked by `slotOk` (R64). -/
def rowOf (i : Instr) : Option OpRow :=
  orRow (rowInteger i) (orRow (rowFloat i) (orRow (rowCross i) (orRow (rowControl i) (orRow (rowMemory i)
    (orRow (rowSyncAcc i) (orRow (rowClearing i) (orRow (rowSystem i) (rowMatrix i))))))))

/-- The slot mod values of R64. -/
def slotModOk (s : PSlot) : Bool :=
  match s.op with
  | .imin | .imax => decide (s.mod.toNat ≤ 1)
  | .fadd | .fsub | .fmul => decide (s.mod.toNat ≤ 3)
  | _ => s.mod == 0

/-- Registers a slot reads beside its quick guard (R64). -/
def slotReads (s : PSlot) : List Reg :=
  match s.op with
  | .movi => []
  | .notB | .mov | .ineg | .iabs | .popc | .fabs | .fneg => [s.a]
  | _ => [s.d, s.a]

/-- A slot's own fields: mod listed, quick guard listed, no s destination with a v source (R57, R63, R64). -/
def slotOk (s : PSlot) : Bool :=
  slotModOk s && s.q != 0b1000 && !(isS s.d && (slotReads s).any isV)

/-- The bank of a register (R66). -/
def bankOf (r : Reg) : Nat := if isV r then r.toNat % 4 else 4

/-- The pairing rules of R66. -/
def pairOk (p : PArgs) : Bool :=
  let reads := slotReads p.s0 ++ slotReads p.s1
  bankOf p.s0.d != bankOf p.s1.d && p.s0.d != p.s1.d
    && [0, 1, 2, 3, 4].all (fun k => decide ((reads.filter (fun r => bankOf r == k)).length ≤ 2))

end Sys2Proof.Machine
end

