-- ==== Sys2Proof/Machine/Shape.lean ====
section
/-! DEFINITION. The frame, opcode and fields of an instruction's words (R51, R54, R63, R68), the encoder's table. Events of
the machine have no word. -/

namespace Sys2Proof.Machine

/-- The frame an instruction is written in, with its opcode and fields. -/
inductive Shape where
  | f (op : Nat) (x : FArgs)
  | l (op : Nat) (x : LArgs)
  | p (x : PArgs)
  | event
  deriving DecidableEq, Repr

/-- Frame, opcode and fields of an instruction (R68). -/
def shapeOf : Instr → Shape
  | .iadd f => .f 0x000 f
  | .isub f => .f 0x001 f
  | .iadds f => .f 0x002 f
  | .imul f => .f 0x003 f
  | .imulh f => .f 0x004 f
  | .imad f => .f 0x005 f
  | .idp4 f => .f 0x006 f
  | .idiv f => .f 0x007 f
  | .irem f => .f 0x008 f
  | .imin f => .f 0x009 f
  | .imax f => .f 0x00A f
  | .iabs f => .f 0x00B f
  | .ineg f => .f 0x00C f
  | .icmp f => .f 0x00D f
  | .andB f => .f 0x00E f
  | .orB f => .f 0x00F f
  | .xorB f => .f 0x010 f
  | .andn f => .f 0x011 f
  | .notB f => .f 0x012 f
  | .shl f => .f 0x013 f
  | .shr f => .f 0x014 f
  | .sar f => .f 0x015 f
  | .rot f => .f 0x016 f
  | .bfx f => .f 0x017 f
  | .bfi f => .f 0x018 f
  | .popc f => .f 0x019 f
  | .clz f => .f 0x01A f
  | .ctz f => .f 0x01B f
  | .brev f => .f 0x01C f
  | .sel f => .f 0x01D f
  | .mov f => .f 0x01E f
  | .movi f => .f 0x01F f
  | .lea f => .f 0x020 f
  | .movw l => .l 0x021 l
  | .fadd f => .f 0x040 f
  | .fsub f => .f 0x041 f
  | .fmul f => .f 0x042 f
  | .ffma f => .f 0x043 f
  | .fmin f => .f 0x044 f
  | .fmax f => .f 0x045 f
  | .fabs f => .f 0x046 f
  | .fneg f => .f 0x047 f
  | .fcmp f => .f 0x048 f
  | .fclass f => .f 0x049 f
  | .frnd f => .f 0x04A f
  | .fscale f => .f 0x054 f
  | .fdiv f => .f 0x04B f
  | .fsqrt f => .f 0x04C f
  | .frcp f => .f 0x04D f
  | .frsq f => .f 0x04E f
  | .fexp2 f => .f 0x04F f
  | .flog2 f => .f 0x050 f
  | .fsin f => .f 0x051 f
  | .fcos f => .f 0x052 f
  | .ftanh f => .f 0x053 f
  | .cvt f => .f 0x080 f
  | .cvtq f => .f 0x081 f
  | .cvtd f => .f 0x082 f
  | .pack f => .f 0x083 f
  | .unpk f => .f 0x084 f
  | .shfl f => .f 0x0A0 f
  | .bcast f => .f 0x0A1 f
  | .ballot f => .f 0x0A2 f
  | .vote f => .f 0x0A3 f
  | .sred f => .f 0x0A4 f
  | .sscan f => .f 0x0A5 f
  | .matchLanes f => .f 0x0A6 f
  | .pPair p => .p p
  | .nop f => .f 0x0C0 f
  | .bra f => .f 0x0C1 f
  | .braL l => .l 0x0C1 l
  | .brx f => .f 0x0C2 f
  | .call f => .f 0x0C3 f
  | .ret f => .f 0x0C4 f
  | .divIf f => .f 0x0C5 f
  | .divElse f => .f 0x0C6 f
  | .divJoin f => .f 0x0C7 f
  | .divLoop f => .f 0x0C8 f
  | .divBrk f => .f 0x0C9 f
  | .divNext f => .f 0x0CA f
  | .exit f => .f 0x0CB f
  | .yieldTeam f => .f 0x0CC f
  | .launch f => .f 0x0CD f
  | .cwait f => .f 0x0CE f
  | .ld f => .f 0x100 f
  | .ldL l => .l 0x100 l
  | .st f => .f 0x101 f
  | .stL l => .l 0x101 l
  | .lds f => .f 0x102 f
  | .ldsL l => .l 0x102 l
  | .sts f => .f 0x103 f
  | .stsL l => .l 0x103 l
  | .ldk f => .f 0x104 f
  | .atom f => .f 0x105 f
  | .atomc f => .f 0x106 f
  | .atomf f => .f 0x107 f
  | .red f => .f 0x108 f
  | .atomag f => .f 0x109 f
  | .fpush f => .f 0x10A f
  | .fpop f => .f 0x10B f
  | .pref f => .f 0x10C f
  | .cwb f => .f 0x10D f
  | .cinv f => .f 0x10E f
  | .bankset f => .f 0x10F f
  | .bankDrainEnd _ => .event
  | .cpy f => .f 0x180 f
  | .cpyt l => .l 0x181 l
  | .copyLineOperation _ => .event
  | .ringInit f => .f 0x182 f
  | .ringWait f => .f 0x183 f
  | .ringPark f => .f 0x184 f
  | .ringRel f => .f 0x185 f
  | .ringQ f => .f 0x186 f
  | .pclose f => .f 0x1C0 f
  | .popen f => .f 0x1C1 f
  | .phase f => .f 0x1C2 f
  | .bclose f => .f 0x1C3 f
  | .bquery f => .f 0x1C4 f
  | .fence f => .f 0x1C5 f
  | .barInit f => .f 0x1C6 f
  | .barArv f => .f 0x1C7 f
  | .barWait f => .f 0x1C8 f
  | .barSync f => .f 0x1C9 f
  | .barrierCompletionNotice _ => .event
  | .accrd f => .f 0x200 f
  | .accwr f => .f 0x201 f
  | .rowst f => .f 0x202 f
  | .accsc f => .f 0x203 f
  | .tileAccessPerformed _ => .event
  | .clrClaim f => .f 0x240 f
  | .claimDrainEnd _ => .event
  | .clrFree f => .f 0x241 f
  | .clrTload l => .l 0x242 l
  | .clrTstore l => .l 0x243 l
  | .clrCall l => .l 0x244 l
  | .clrPred f => .f 0x245 f
  | .clrRdrow f => .f 0x246 f
  | .clrWait f => .f 0x247 f
  | .clrQ f => .f 0x248 f
  | .clrCsload f => .f 0x249 f
  | .sequencerCommand _ => .event
  | .clearingWatchdogTrip _ => .event
  | .rdsys f => .f 0x280 f
  | .wrsys f => .f 0x281 f
  | .clrAsqWrite _ => .event
  | .fqovfClear => .event
  | .trap f => .f 0x282 f
  | .brk f => .f 0x283 f
  | .eret f => .f 0x284 f
  | .tlbi f => .f 0x285 f
  | .tlbiAcknowledge _ => .event
  | .ctxsv f => .f 0x286 f
  | .ctxld f => .f 0x287 f
  | .sleep f => .f 0x288 f
  | .wake f => .f 0x289 f
  | .sleepIntervalExpires _ => .event
  | .mxZero f => .f 0x2C0 f
  | .mxMma l => .l 0x2C1 l
  | .mxSmma l => .l 0x2C2 l
  | .mxQmma l => .l 0x2C3 l
  | .mxLdacc l => .l 0x2C4 l
  | .mxStacc l => .l 0x2C5 l
  | .mxScale f => .f 0x2C6 f
  | .mxWait f => .f 0x2C7 f
  | .mxQ f => .f 0x2C8 f
  | .mxCancel f => .f 0x2C9 f
  | .mxBind f => .f 0x2CA f
  | .mxDispatch _ _ => .event
  | .mxStep _ _ => .event
  | .mxEntryComplete _ _ => .event
  | .longLatencyCompletion _ _ => .event
  | .sideLogReplay _ _ => .event
  | .faultRecordPost _ => .event
  | .faultrespRetry _ _ => .event
  | .faultrespReject _ _ => .event
  | .faultrespAbort _ _ => .event
  | .qtailDoorbell _ _ => .event
  | .qctlEnable _ _ => .event
  | .qctlDisable _ _ => .event
  | .commandTakeUp _ => .event
  | .launchCommand _ => .event
  | .signal _ => .event
  | .waitsig _ => .event
  | .waitsigReread _ => .event
  | .copy _ => .event
  | .portdrain _ => .event
  | .porttrain _ => .event
  | .routeload _ => .event
  | .routeswap _ => .event
  | .placement => .event
  | .gangReservation => .event
  | .preemption => .event
  | .restore => .event
  | .dependenceEvaluation _ => .event
  | .workgroupRetirement _ => .event
  | .gridRetirement _ => .event
  | .lineEviction _ _ => .event
  | .heldBytesPlaced _ => .event
  | .fabricTimeout _ => .event
  | .bundleCommitSend _ => .event
  | .bundleSettleSend _ => .event
  | .bundleWithdrawal _ => .event
  | .frameReceived _ _ => .event
  | .readLine => .event
  | .versionFetch => .event
  | .resolvingFetch => .event
  | .writeLine => .event
  | .atomic => .event
  | .invalidate => .event
  | .acknowledge => .event
  | .bundlePending => .event
  | .bundleCommit => .event
  | .bundleSettle => .event
  | .collectiveShard => .event
  | .managementFrame _ _ _ => .event
  | .linkReplayTimeout _ => .event
  | .emptyAckFrame _ => .event
  | .portWiden _ => .event
  | .portNarrow _ => .event
  | .portWidthTakesEffect _ => .event
  | .wavelengthLoss _ _ _ => .event
  | .wavelengthRelock _ _ _ => .event
  | .collectiveSlotEnd _ => .event
  | .collectiveCompletion _ => .event
  | .ccctlEnable _ _ => .event
  | .ccctlDisable _ _ => .event
  | .flitReceived _ _ _ => .event
  | .colourLost _ _ _ => .event
  | .colourBGateOff _ => .event
  | .colourBWake _ => .event
  | .pairDrainEnd _ => .event
  | .routePairWrite _ _ => .event
  | .routePairRetrain _ => .event
  | .pairRetrainEnd _ _ => .event
  | .frequencyDecision _ _ => .event
  | .relockStart _ => .event
  | .relockEnd _ => .event
  | .allowUpdate => .event
  | .thermalEmergency _ => .event
  | .thermalEmergencyEnd _ => .event
  | .dramStackStateChange _ _ => .event
  | .powerClassChange => .event
  | .budgetWindow => .event
  | .bar2Read _ _ => .event
  | .bar2Write _ _ => .event
  | .powerOn => .event
  | .bootStage _ => .event
  | .attestationGo _ => .event
  | .attestationReport => .event
  | .packageResetRequest => .event
  | .patrolScrub _ => .event
  | .uncorrectableError _ => .event
  | .correctedSoftErrors _ _ _ => .event
  | .registerWrite _ _ _ => .event
  | .closeCompletion _ => .event
  | .postedAccessPerformed _ => .event
  | .controlStoreLoadEnd _ _ => .event
  | .portCommandTimeout _ => .event
  | .routeswapSemaphoreRead _ => .event
  | .debuggerHalt _ => .event
  | .debuggerResume _ => .event
  | .corePowerGating _ _ => .event
  | .uncorrectableLinkError => .event

/-- The guards of an instruction (R51, R54). -/
def Shape.guards : Shape → List Guard
  | .f _ x => [x.g]
  | .l _ x => [x.g1, x.g2]
  | .p _ => []
  | .event => []

/-- The lookahead field (R60). -/
def Shape.la : Shape → BitVec 4
  | .f _ x => x.la
  | .l _ x => x.la
  | .p _ => 0
  | .event => 0

/-- The cache hint (R61). -/
def Shape.hint : Shape → BitVec 2
  | .f _ x => x.hint
  | .l _ x => x.hint
  | .p _ => 0
  | .event => 0

/-- The yield bit, in the F frame only (R54, R62). -/
def Shape.yld : Shape → Bool
  | .f _ x => x.yld
  | .l _ _ => false
  | .p _ => false
  | .event => false

/-- Bytes of an instruction (R49). -/
def Shape.size : Shape → Nat
  | .f _ _ => 8
  | .l _ _ => 16
  | .p _ => 8
  | .event => 0

end Sys2Proof.Machine
end

