-- ==== Sys2Proof/WellFormed.lean ====
section
/-! DEFINITION. Well-formed instructions: the field rules of R52, R57, R60, R61, R64 and R66 that hold of the words alone,
whatever team runs them. -/

namespace Sys2Proof

open Sys2Proof.Machine

/-- An operand names registers it may name: the kind allowed, and the first register of a pair even, of a group of four a
multiple of four (R32, R56, R189). -/
def opndOk (o : Opnd) : Bool :=
  (match o.kind with
    | .any => true
    | .sOnly => isS o.reg
    | .vOnly => isV o.reg)
    && (!o.aligned || o.reg.toNat % o.n == 0)

/-- No operand is a v register: the instruction is uniform (R25, R57). -/
def opndsUniform (os : List Opnd) : Bool := os.all (fun o => isS o.reg)

/-- The rule for guards (R26, R57, R115). -/
def guardsOk (rule : GuardRule) (os : List Opnd) (gs : List Guard) : Bool :=
  match rule with
  | .usual => !opndsUniform os || gs.all (fun g => isS g.reg)
  | .sOnly => gs.all (fun g => isS g.reg)
  | .condition => true
  | .default => gs.all (fun g => g == Guard.always)

/-- An s destination with a v source, where the description does not allow it (R57). -/
def sDstOk (rule : SDst) (os : List Opnd) : Bool :=
  rule != .no || !(os.any (fun o => o.wr && isS o.reg) && os.any (fun o => o.rd && isV o.reg))

/-- The field rules of one word (R72, row RESERVED_FIELD), but for those that depend on the team. -/
def fieldRules (i : Instr) : Bool :=
  match i with
  | .pPair p => slotOk p.s0 && slotOk p.s1
  | _ =>
    match rowOf i with
    | none => true
    | some r =>
      r.fieldsOk && r.opnds.all opndOk && guardsOk r.guardRule r.opnds (shapeOf i).guards && sDstOk r.sDst r.opnds
        && (r.long || (shapeOf i).la == 0) && (r.hintOk || (shapeOf i).hint == 0)

/-- A well-formed instruction: its fields keep the rules, and a P pair keeps the pairing rules (R66). -/
def Instr.WellFormed (i : Instr) : Bool :=
  fieldRules i && (match i with | .pPair p => pairOk p | _ => true)

end Sys2Proof
end

