-- ==== Sys2Proof/Decode.lean ====
section
/-! DEFINITION. The decoder, total on any bytes and rejecting by name (R48, R49, R51, R54, R63, R72), and after it the
encoder, written from the same tables. -/

namespace Sys2Proof

open Sys2Proof.Machine

/-- Why words are no instruction (R72): the first word in frame 11 or a broken L pair, an opcode that R68 does not assign, an
opcode in a frame it does not permit (with the contexts it runs in and whether a field of it names a v register, since a
wrong context and a v register of a forester program are found first, R73), or fewer bytes than an instruction has. -/
inductive Reject where
  | illegalFrame
  | illegalOpcode
  | frameNotPermitted (runs : RunsIn) (v : Bool)
  | truncated
  deriving DecidableEq, Repr

/-- The guard field of 14 bits, neg, bit, register (R51, R54). -/
def guardOf (x : BitVec 14) : Guard := ⟨x.getLsbD 13, x.extractLsb' 8 5, x.extractLsb' 0 8⟩

/-- The fields of an F word (R51). -/
def fArgsOf (w : DWord) : FArgs :=
  { d := w.extractLsb' 44 8, a := w.extractLsb' 36 8, b := w.extractLsb' 28 8, g := guardOf (w.extractLsb' 14 14)
    la := w.extractLsb' 10 4, hint := w.extractLsb' 8 2, mod := w.extractLsb' 2 6, imm := w.getLsbD 1, yld := w.getLsbD 0 }

/-- The fields of the two words of an L instruction (R54). -/
def lArgsOf (w0 w1 : DWord) : LArgs :=
  { d := w0.extractLsb' 44 8, a := w0.extractLsb' 36 8, b := w0.extractLsb' 28 8, c := w0.extractLsb' 20 8
    e := w0.extractLsb' 12 8, la := w0.extractLsb' 8 4, hint := w0.extractLsb' 6 2, mod := w0.extractLsb' 0 6
    g1 := guardOf (w1.extractLsb' 48 14), g2 := guardOf (w1.extractLsb' 34 14), orGuards := w1.getLsbD 33
    imm33 := w1.extractLsb' 0 33 }

/-- The P-opcodes of R64. -/
def pOpOf (n : Nat) : Option POp :=
  match n with
  | 0 => some .iadd | 1 => some .isub | 2 => some .imin | 3 => some .imax | 4 => some .andB | 5 => some .orB
  | 6 => some .xorB | 7 => some .andn | 8 => some .notB | 9 => some .shl | 10 => some .shr | 11 => some .sar
  | 12 => some .mov | 13 => some .ineg | 14 => some .iabs | 15 => some .popc | 16 => some .fadd | 17 => some .fsub
  | 18 => some .fmul | 19 => some .fmin | 20 => some .fmax | 21 => some .fabs | 22 => some .fneg | 23 => some .movi
  | _ => none

/-- The number of a P-opcode (R64). -/
def pNum : POp → BitVec 7
  | .iadd => 0 | .isub => 1 | .imin => 2 | .imax => 3 | .andB => 4 | .orB => 5 | .xorB => 6 | .andn => 7 | .notB => 8
  | .shl => 9 | .shr => 10 | .sar => 11 | .mov => 12 | .ineg => 13 | .iabs => 14 | .popc => 15 | .fadd => 16
  | .fsub => 17 | .fmul => 18 | .fmin => 19 | .fmax => 20 | .fabs => 21 | .fneg => 22 | .movi => 23

/-- One slot of a P word (R63). -/
def pSlotOf (x : BitVec 31) : Option PSlot :=
  (pOpOf (x.extractLsb' 24 7).toNat).map fun op =>
    { op := op, d := x.extractLsb' 16 8, a := x.extractLsb' 8 8, mod := x.extractLsb' 4 4, q := x.extractLsb' 0 4 }

/-- The instruction an F word's opcode names, with its fields (R68). -/
def fInstr (op : Nat) (x : FArgs) : Option Instr :=
  match op with
  | 0x000 => some (.iadd x)
  | 0x001 => some (.isub x)
  | 0x002 => some (.iadds x)
  | 0x003 => some (.imul x)
  | 0x004 => some (.imulh x)
  | 0x005 => some (.imad x)
  | 0x006 => some (.idp4 x)
  | 0x007 => some (.idiv x)
  | 0x008 => some (.irem x)
  | 0x009 => some (.imin x)
  | 0x00A => some (.imax x)
  | 0x00B => some (.iabs x)
  | 0x00C => some (.ineg x)
  | 0x00D => some (.icmp x)
  | 0x00E => some (.andB x)
  | 0x00F => some (.orB x)
  | 0x010 => some (.xorB x)
  | 0x011 => some (.andn x)
  | 0x012 => some (.notB x)
  | 0x013 => some (.shl x)
  | 0x014 => some (.shr x)
  | 0x015 => some (.sar x)
  | 0x016 => some (.rot x)
  | 0x017 => some (.bfx x)
  | 0x018 => some (.bfi x)
  | 0x019 => some (.popc x)
  | 0x01A => some (.clz x)
  | 0x01B => some (.ctz x)
  | 0x01C => some (.brev x)
  | 0x01D => some (.sel x)
  | 0x01E => some (.mov x)
  | 0x01F => some (.movi x)
  | 0x020 => some (.lea x)
  | 0x040 => some (.fadd x)
  | 0x041 => some (.fsub x)
  | 0x042 => some (.fmul x)
  | 0x043 => some (.ffma x)
  | 0x044 => some (.fmin x)
  | 0x045 => some (.fmax x)
  | 0x046 => some (.fabs x)
  | 0x047 => some (.fneg x)
  | 0x048 => some (.fcmp x)
  | 0x049 => some (.fclass x)
  | 0x04A => some (.frnd x)
  | 0x054 => some (.fscale x)
  | 0x04B => some (.fdiv x)
  | 0x04C => some (.fsqrt x)
  | 0x04D => some (.frcp x)
  | 0x04E => some (.frsq x)
  | 0x04F => some (.fexp2 x)
  | 0x050 => some (.flog2 x)
  | 0x051 => some (.fsin x)
  | 0x052 => some (.fcos x)
  | 0x053 => some (.ftanh x)
  | 0x080 => some (.cvt x)
  | 0x081 => some (.cvtq x)
  | 0x082 => some (.cvtd x)
  | 0x083 => some (.pack x)
  | 0x084 => some (.unpk x)
  | 0x0A0 => some (.shfl x)
  | 0x0A1 => some (.bcast x)
  | 0x0A2 => some (.ballot x)
  | 0x0A3 => some (.vote x)
  | 0x0A4 => some (.sred x)
  | 0x0A5 => some (.sscan x)
  | 0x0A6 => some (.matchLanes x)
  | 0x0C0 => some (.nop x)
  | 0x0C1 => some (.bra x)
  | 0x0C2 => some (.brx x)
  | 0x0C3 => some (.call x)
  | 0x0C4 => some (.ret x)
  | 0x0C5 => some (.divIf x)
  | 0x0C6 => some (.divElse x)
  | 0x0C7 => some (.divJoin x)
  | 0x0C8 => some (.divLoop x)
  | 0x0C9 => some (.divBrk x)
  | 0x0CA => some (.divNext x)
  | 0x0CB => some (.exit x)
  | 0x0CC => some (.yieldTeam x)
  | 0x0CD => some (.launch x)
  | 0x0CE => some (.cwait x)
  | 0x100 => some (.ld x)
  | 0x101 => some (.st x)
  | 0x102 => some (.lds x)
  | 0x103 => some (.sts x)
  | 0x104 => some (.ldk x)
  | 0x105 => some (.atom x)
  | 0x106 => some (.atomc x)
  | 0x107 => some (.atomf x)
  | 0x108 => some (.red x)
  | 0x109 => some (.atomag x)
  | 0x10A => some (.fpush x)
  | 0x10B => some (.fpop x)
  | 0x10C => some (.pref x)
  | 0x10D => some (.cwb x)
  | 0x10E => some (.cinv x)
  | 0x10F => some (.bankset x)
  | 0x180 => some (.cpy x)
  | 0x182 => some (.ringInit x)
  | 0x183 => some (.ringWait x)
  | 0x184 => some (.ringPark x)
  | 0x185 => some (.ringRel x)
  | 0x186 => some (.ringQ x)
  | 0x1C0 => some (.pclose x)
  | 0x1C1 => some (.popen x)
  | 0x1C2 => some (.phase x)
  | 0x1C3 => some (.bclose x)
  | 0x1C4 => some (.bquery x)
  | 0x1C5 => some (.fence x)
  | 0x1C6 => some (.barInit x)
  | 0x1C7 => some (.barArv x)
  | 0x1C8 => some (.barWait x)
  | 0x1C9 => some (.barSync x)
  | 0x200 => some (.accrd x)
  | 0x201 => some (.accwr x)
  | 0x202 => some (.rowst x)
  | 0x203 => some (.accsc x)
  | 0x240 => some (.clrClaim x)
  | 0x241 => some (.clrFree x)
  | 0x245 => some (.clrPred x)
  | 0x246 => some (.clrRdrow x)
  | 0x247 => some (.clrWait x)
  | 0x248 => some (.clrQ x)
  | 0x249 => some (.clrCsload x)
  | 0x280 => some (.rdsys x)
  | 0x281 => some (.wrsys x)
  | 0x282 => some (.trap x)
  | 0x283 => some (.brk x)
  | 0x284 => some (.eret x)
  | 0x285 => some (.tlbi x)
  | 0x286 => some (.ctxsv x)
  | 0x287 => some (.ctxld x)
  | 0x288 => some (.sleep x)
  | 0x289 => some (.wake x)
  | 0x2C0 => some (.mxZero x)
  | 0x2C6 => some (.mxScale x)
  | 0x2C7 => some (.mxWait x)
  | 0x2C8 => some (.mxQ x)
  | 0x2C9 => some (.mxCancel x)
  | 0x2CA => some (.mxBind x)
  | _ => none

/-- The instruction an L instruction's opcode names, with its fields (R68). -/
def lInstr (op : Nat) (x : LArgs) : Option Instr :=
  match op with
  | 0x021 => some (.movw x)
  | 0x0C1 => some (.braL x)
  | 0x100 => some (.ldL x)
  | 0x101 => some (.stL x)
  | 0x102 => some (.ldsL x)
  | 0x103 => some (.stsL x)
  | 0x181 => some (.cpyt x)
  | 0x242 => some (.clrTload x)
  | 0x243 => some (.clrTstore x)
  | 0x244 => some (.clrCall x)
  | 0x2C1 => some (.mxMma x)
  | 0x2C2 => some (.mxSmma x)
  | 0x2C3 => some (.mxQmma x)
  | 0x2C4 => some (.mxLdacc x)
  | 0x2C5 => some (.mxStacc x)
  | _ => none

/-- The contexts an opcode number runs in (R68). -/
def runsOfOp (op : Nat) : RunsIn :=
  if 0x2C0 ≤ op then .forester
  else if (0x04B ≤ op && op ≤ 0x053) || op == 0x081 || op == 0x082 || (0x0A0 ≤ op && op ≤ 0x0A6)
    || (0x0C5 ≤ op && op ≤ 0x0CA) || op == 0x0CD || op == 0x0CE || (0x109 ≤ op && op ≤ 0x10F)
    || (0x180 ≤ op && op ≤ 0x182) || op == 0x184 || op == 0x1C3 || op == 0x1C4 || (0x200 ≤ op && op ≤ 0x203)
    || (0x240 ≤ op && op ≤ 0x249) || (0x285 ≤ op && op ≤ 0x287) then .team
  else .both

/-- Some L instruction has this opcode (R68). -/
def isLOpcode (op : Nat) : Bool :=
  op == 0x021 || op == 0x0C1 || (0x100 ≤ op && op ≤ 0x103) || op == 0x181 || (0x242 ≤ op && op ≤ 0x244) || (0x2C1 ≤ op && op ≤ 0x2C5)

/-- Some F instruction has this opcode (R68). -/
def isFOpcode (op : Nat) : Bool :=
  op ≤ 0x020 || (0x040 ≤ op && op ≤ 0x054) || (0x080 ≤ op && op ≤ 0x084) || (0x0A0 ≤ op && op ≤ 0x0A6)
    || (0x0C0 ≤ op && op ≤ 0x0CE) || (0x100 ≤ op && op ≤ 0x10F)
    || (0x180 ≤ op && op ≤ 0x186 && op != 0x181) || (0x1C0 ≤ op && op ≤ 0x1C9) || (0x200 ≤ op && op ≤ 0x203)
    || (0x240 ≤ op && op ≤ 0x249 && !(0x242 ≤ op && op ≤ 0x244)) || (0x280 ≤ op && op ≤ 0x289)
    || op == 0x2C0 || (0x2C6 ≤ op && op ≤ 0x2CA)

/-- The fields of an F word as those of an L word of its opcode, and the other way round; what the word has no field for names
no v register (R51, R54). -/
def asLong (x : FArgs) : LArgs :=
  { d := x.d, a := x.a, b := x.b, c := 0xFF, e := 0xFF, la := 0, hint := 0, mod := x.mod, g1 := x.g, g2 := x.g, orGuards := false, imm33 := 0 }
def asShort (x : LArgs) : FArgs :=
  { d := x.d, a := x.a, b := x.b, g := x.g1, la := 0, hint := 0, mod := x.mod, imm := false, yld := false }

/-- An instruction names a v register in a guard, or in a field that its row reads as a register (R72). -/
def namesVField (i : Instr) : Bool :=
  (((rowOf i).map OpRow.opnds).getD []).any (fun o => isV o.reg) || (shapeOf i).guards.any (fun g => isV g.reg)

/-- An F word, or an L word, of an opcode in a frame it does not permit names a v register (R72, R73). -/
def shortNamesV (op : Nat) (x : FArgs) : Bool := ((lInstr op (asLong x)).map namesVField).getD false
def longNamesV (op : Nat) (x : LArgs) : Bool := ((fInstr op (asShort x)).map namesVField).getD false || isV x.g2.reg

/-- The instruction that one or two words form (R48, R49, R72). -/
def decodeWords (w0 w1 : DWord) : Except Reject Instr :=
  let op := (w0.extractLsb' 52 10).toNat
  match (w0.extractLsb' 62 2).toNat with
  | 0 =>
    match fInstr op (fArgsOf w0) with
    | some i => .ok i
    | none => if isLOpcode op then .error (.frameNotPermitted (runsOfOp op) (shortNamesV op (fArgsOf w0))) else .error .illegalOpcode
  | 1 =>
    match pSlotOf (w0.extractLsb' 31 31), pSlotOf (w0.extractLsb' 0 31) with
    | some s0, some s1 => .ok (.pPair ⟨s0, s1⟩)
    | _, _ => .error .illegalOpcode
  | 2 =>
    if w1.extractLsb' 62 2 == 0b11#2 then
      match lInstr op (lArgsOf w0 w1) with
      | some i => .ok i
      | none => if isFOpcode op then .error (.frameNotPermitted (runsOfOp op) (longNamesV op (lArgsOf w0 w1))) else .error .illegalOpcode
    else .error .illegalFrame
  | _ => .error .illegalFrame

/-- The word that eight bytes form (R5, R48). -/
def wordOf (bs : List Byte) : DWord := BitVec.ofNat 64 (ofBytes (bs.take 8))

/-- The instruction at the head of a string of bytes, with what follows it (R49). Only an L frame needs its second word. -/
def decode (bs : List Byte) : Except Reject (Instr × List Byte) :=
  if bs.length < 8 then .error .truncated
  else
    let w0 := wordOf bs
    let long := w0.extractLsb' 62 2 == 0b10#2
    if long && decide (bs.length < 16) then .error .truncated
    else
      match decodeWords w0 (wordOf (bs.drop 8)) with
      | .ok i => .ok (i, bs.drop (if long then 16 else 8))
      | .error e => .error e

/-- What the decoder reads from an instruction whose bits are `w`, numbered as the opcode table numbers them (the first word
lowest); the bits above `nbits` are zero. -/
def decodeTableWord (nbits w : Nat) : Option Instr :=
  match decode (toBytes 16 (w % 2 ^ nbits)) with
  | .ok (i, _) => some i
  | .error _ => none

/-- A guard as its field of 14 bits. -/
def guardBits (g : Guard) : BitVec 14 := BitVec.ofBool g.neg ++ g.bit ++ g.reg

/-- The F word of an opcode and its fields (R51). -/
def fWord (op : BitVec 10) (x : FArgs) : DWord :=
  0b00#2 ++ op ++ x.d ++ x.a ++ x.b ++ guardBits x.g ++ x.la ++ x.hint ++ x.mod ++ BitVec.ofBool x.imm ++ BitVec.ofBool x.yld

/-- The first word of an L instruction (R54). -/
def lWord0 (op : BitVec 10) (x : LArgs) : DWord :=
  0b10#2 ++ op ++ x.d ++ x.a ++ x.b ++ x.c ++ x.e ++ x.la ++ x.hint ++ x.mod

/-- The second word of an L instruction (R54). -/
def lWord1 (x : LArgs) : DWord :=
  0b11#2 ++ guardBits x.g1 ++ guardBits x.g2 ++ BitVec.ofBool x.orGuards ++ x.imm33

/-- A slot of a P word (R63). -/
def pSlotBits (s : PSlot) : BitVec 31 := pNum s.op ++ s.d ++ s.a ++ s.mod ++ s.q

/-- The P word of two slots (R63). -/
def pWord (x : PArgs) : DWord := 0b01#2 ++ pSlotBits x.s0 ++ pSlotBits x.s1

/-- The words of an instruction; an event of the machine has none. -/
def encode (i : Instr) : List DWord :=
  match shapeOf i with
  | .f op x => [fWord (BitVec.ofNat 10 op) x]
  | .l op x => [lWord0 (BitVec.ofNat 10 op) x, lWord1 x]
  | .p x => [pWord x]
  | .event => []

/-- The bytes of words, each little-endian, the first lowest (R48). -/
def wordBytes (ws : List DWord) : List Byte := ws.flatMap (fun w => toBytes 8 w.toNat)

end Sys2Proof
end

