-- ==== Sys2Proof/Machine/Flags.lean ====
section
/-! DEFINITION. The sticky flags of FSTAT (R85) and binary floating point: exact values, one rounding, and the flags it sets
(R97 to R101, R121, R122). -/

namespace Sys2Proof.Machine

def flagNV : Word := 1
def flagDZ : Word := 2
def flagOF : Word := 4
def flagUF : Word := 8
def flagNX : Word := 16
def flagSAT : Word := 32

/-- A flag word, or none. -/
def flagIf (b : Bool) (w : Word) : Word := if b then w else 0

/-- An IEEE-style format: exponent and mantissa bits (R121). -/
structure Fmt where
  e : Nat
  m : Nat
  deriving DecidableEq, Repr

def fp16 : Fmt := ⟨5, 10⟩
def bf16 : Fmt := ⟨8, 7⟩
def fp32 : Fmt := ⟨8, 23⟩
def fp64 : Fmt := ⟨11, 52⟩

def Fmt.bias (f : Fmt) : Nat := 2 ^ (f.e - 1) - 1
def Fmt.width (f : Fmt) : Nat := 1 + f.e + f.m
/-- The exponent of the smallest normal, and of the largest binade. -/
def Fmt.emin (f : Fmt) : Int := 1 - (f.bias : Int)
def Fmt.emax (f : Fmt) : Int := f.bias
def Fmt.signBit (f : Fmt) (neg : Bool) : Nat := if neg then 2 ^ (f.e + f.m) else 0
def Fmt.infCode (f : Fmt) (neg : Bool) : Nat := f.signBit neg + (2 ^ f.e - 1) * 2 ^ f.m
def Fmt.maxCode (f : Fmt) (neg : Bool) : Nat := f.infCode neg - 1
/-- The canonical NaN (R97). -/
def Fmt.nanCode (f : Fmt) : Nat := f.infCode false + 2 ^ (f.m - 1)

/-- The value a code stands for: a NaN, an infinity, or (-1)^neg · mag · 2^exp exactly. -/
inductive FVal where
  | nan (signalling : Bool)
  | inf (neg : Bool)
  | fin (neg : Bool) (mag : Nat) (exp : Int)
  deriving DecidableEq, Repr

/-- The value of a code of an IEEE-style format (R122). -/
def decodeF (f : Fmt) (x : Nat) : FVal :=
  let neg := bitN x (f.e + f.m)
  let e := fieldN x f.m f.e
  let m := fieldN x 0 f.m
  if e = 2 ^ f.e - 1 then (if m = 0 then .inf neg else .nan (!bitN m (f.m - 1)))
  else if e = 0 then .fin neg m (f.emin - f.m)
  else .fin neg (2 ^ f.m + m) ((e : Int) - f.bias - f.m)

def FVal.isNan : FVal → Bool
  | .nan _ => true
  | _ => false
def FVal.isSig : FVal → Bool
  | .nan b => b
  | _ => false
def FVal.isFin : FVal → Bool
  | .fin _ _ _ => true
  | _ => false
def FVal.isInf : FVal → Bool
  | .inf _ => true
  | _ => false
def FVal.isZero : FVal → Bool
  | .fin _ m _ => m == 0
  | _ => false
def FVal.isNeg : FVal → Bool
  | .nan _ => false
  | .inf n => n
  | .fin n _ _ => n
def FVal.negate : FVal → FVal
  | .nan b => .nan b
  | .inf n => .inf (!n)
  | .fin n m e => .fin (!n) m e

/-- 2^k for k ≥ 0; 1 otherwise. -/
def pow2 (k : Int) : Nat := 2 ^ k.toNat

/-- Whether a magnitude is rounded up: mode 0 to nearest even, 1 toward zero, 2 toward +∞, 3 toward −∞ (R83). -/
def roundsUp (rm : Nat) (neg : Bool) (sig rem half2 : Nat) : Bool :=
  if rm = 0 then decide (half2 < 2 * rem) || (decide (half2 = 2 * rem) && sig % 2 == 1)
  else if rm = 2 then !neg && decide (0 < rem)
  else if rm = 3 then neg && decide (0 < rem)
  else false

/-- A magnitude rounded to a multiple of 2^q: the multiple, and whether it is inexact. -/
def roundAt (rm : Nat) (neg : Bool) (mag : Nat) (exp q : Int) : Nat × Bool :=
  if q ≤ exp then (mag * pow2 (exp - q), false)
  else
    let d := pow2 (q - exp)
    let sig := mag / d
    let rem := mag % d
    (if roundsUp rm neg sig rem d then sig + 1 else sig, decide (rem ≠ 0))

/-- The exponent of the leading bit of mag · 2^exp, for mag ≠ 0. -/
def leadExp (mag : Nat) (exp : Int) : Int := (mag.log2 : Int) + exp

/-- A significand that rounding carried into the next binade. -/
def normSig (f : Fmt) (sig : Nat) (q : Int) : Nat × Int := if 2 ^ (f.m + 1) ≤ sig then (sig / 2, q + 1) else (sig, q)

/-- An exact nonzero or zero magnitude rounded once to a format, with its flags (R97): overflow by mode, underflow when tiny
after rounding and inexact. -/
def roundF (f : Fmt) (rm : Nat) (neg : Bool) (mag : Nat) (exp : Int) : Nat × Word :=
  if mag = 0 then (f.signBit neg, 0)
  else
    let lead := leadExp mag exp
    let q := max (lead - f.m) (f.emin - f.m)
    let r := roundAt rm neg mag exp q
    let n := normSig f r.1 q
    let free := roundAt rm neg mag exp (lead - f.m)
    let tiny := decide (lead < f.emin) && !(decide (lead = f.emin - 1) && decide (2 ^ (f.m + 1) ≤ free.1))
    if f.emax < n.2 + f.m then
      let toInf := rm == 0 || (rm == 2 && !neg) || (rm == 3 && neg)
      (if toInf then f.infCode neg else f.maxCode neg, flagOF ||| flagNX)
    else
      let code := if n.1 < 2 ^ f.m then n.1 else (n.2 + f.m + f.bias).toNat * 2 ^ f.m + (n.1 - 2 ^ f.m)
      (f.signBit neg + code, flagIf r.2 flagNX ||| flagIf (tiny && r.2) flagUF)

/-- An exact value rounded once to a format; a NaN is the canonical one. -/
def roundV (f : Fmt) (rm : Nat) : FVal → Nat × Word
  | .nan _ => (f.nanCode, 0)
  | .inf n => (f.infCode n, 0)
  | .fin n m e => roundF f rm n m e

/-- A finite value as an integer multiple of 2^e0, for e0 at or below its exponent. -/
def scaledInt (neg : Bool) (mag : Nat) (exp e0 : Int) : Int :=
  let v : Int := ((mag * pow2 (exp - e0) : Nat) : Int)
  if neg then -v else v

/-- The exact sum, with the sign of a zero sum by the mode (R97). -/
def addV (rm : Nat) (x y : FVal) : FVal × Word :=
  match x, y with
  | .nan s, z => (.nan false, flagIf (s || z.isSig) flagNV)
  | z, .nan s => (.nan false, flagIf (s || z.isSig) flagNV)
  | .inf a, .inf b => if a = b then (.inf a, 0) else (.nan false, flagNV)
  | .inf a, .fin _ _ _ => (.inf a, 0)
  | .fin _ _ _, .inf b => (.inf b, 0)
  | .fin n1 m1 e1, .fin n2 m2 e2 =>
    let e := min e1 e2
    let v := scaledInt n1 m1 e1 e + scaledInt n2 m2 e2 e
    if v = 0 then (.fin (if m1 = 0 && m2 = 0 && n1 == n2 then n1 else rm == 3) 0 e, 0)
    else (.fin (decide (v < 0)) v.natAbs e, 0)

/-- The exact product. -/
def mulV (x y : FVal) : FVal × Word :=
  match x, y with
  | .nan s, z => (.nan false, flagIf (s || z.isSig) flagNV)
  | z, .nan s => (.nan false, flagIf (s || z.isSig) flagNV)
  | .inf a, .inf b => (.inf (xor a b), 0)
  | .inf a, .fin n m _ => if m = 0 then (.nan false, flagNV) else (.inf (xor a n), 0)
  | .fin n m _, .inf b => if m = 0 then (.nan false, flagNV) else (.inf (xor n b), 0)
  | .fin n1 m1 e1, .fin n2 m2 e2 => (.fin (xor n1 n2) (m1 * m2) (e1 + e2), 0)

/-- The quotient, exact or with a sticky low bit below its precision (R102). -/
def divV (f : Fmt) (x y : FVal) : FVal × Word :=
  match x, y with
  | .nan s, z => (.nan false, flagIf (s || z.isSig) flagNV)
  | z, .nan s => (.nan false, flagIf (s || z.isSig) flagNV)
  | .inf _, .inf _ => (.nan false, flagNV)
  | .inf a, .fin n _ _ => (.inf (xor a n), 0)
  | .fin n _ _, .inf b => (.fin (xor n b) 0 0, 0)
  | .fin n1 m1 e1, .fin n2 m2 e2 =>
    if m2 = 0 then (if m1 = 0 then (.nan false, flagNV) else (.inf (xor n1 n2), flagDZ))
    else
      let k := f.m + 5 + m2.log2
      let q := m1 * 2 ^ k / m2
      (.fin (xor n1 n2) (2 * q + b2n (decide (m1 * 2 ^ k % m2 ≠ 0))) (e1 - e2 - k - 1), 0)

/-- The integer square root, one bit at a time from bit n − 1 down. -/
def isqrtFrom (x : Nat) : Nat → Nat → Nat
  | 0, r => r
  | n + 1, r => isqrtFrom x n (if (r + 2 ^ n) * (r + 2 ^ n) ≤ x then r + 2 ^ n else r)
def isqrt (x : Nat) : Nat := isqrtFrom x (x.log2 / 2 + 1) 0

/-- The square root of mag · 2^exp with a sticky low bit, to at least p bits. -/
def sqrtMag (p mag : Nat) (exp : Int) : Nat × Int :=
  let k : Int := 2 * p + 4 + (exp % 2)
  let x := mag * pow2 k
  let r := isqrt x
  (2 * r + b2n (decide (r * r ≠ x)), (exp - k) / 2 - 1)

/-- The square root (R102). -/
def sqrtV (f : Fmt) (x : FVal) : FVal × Word :=
  match x with
  | .nan s => (.nan false, flagIf s flagNV)
  | .inf n => if n then (.nan false, flagNV) else (.inf false, 0)
  | .fin n m e =>
    if m = 0 then (.fin n 0 e, 0)
    else if n then (.nan false, flagNV)
    else let r := sqrtMag (f.m + 4) m e; (.fin false r.1 r.2, 0)

/-- Operations on codes: the exact result rounded once, with the flags of the operation and of the rounding. -/
def fin1 (f : Fmt) (rm : Nat) (v : FVal × Word) : Nat × Word := let r := roundV f rm v.1; (r.1, v.2 ||| r.2)
def faddC (f : Fmt) (rm x y : Nat) : Nat × Word := fin1 f rm (addV rm (decodeF f x) (decodeF f y))
def fsubC (f : Fmt) (rm x y : Nat) : Nat × Word := fin1 f rm (addV rm (decodeF f x) (decodeF f y).negate)
def fmulC (f : Fmt) (rm x y : Nat) : Nat × Word := fin1 f rm (mulV (decodeF f x) (decodeF f y))
def ffmaC (f : Fmt) (rm x y z : Nat) : Nat × Word :=
  let p := mulV (decodeF f x) (decodeF f y)
  let q := addV rm p.1 (decodeF f z)
  fin1 f rm (q.1, p.2 ||| q.2)
def fdivC (f : Fmt) (rm x y : Nat) : Nat × Word := fin1 f rm (divV f (decodeF f x) (decodeF f y))
def fsqrtC (f : Fmt) (rm x : Nat) : Nat × Word := fin1 f rm (sqrtV f (decodeF f x))

/-- Comparison of two values, none of them a NaN: less, and equal; zeros are equal. -/
def ltV (x y : FVal) : Bool :=
  match x, y with
  | .nan _, _ => false
  | _, .nan _ => false
  | .inf a, .inf b => a && !b
  | .inf a, .fin _ _ _ => a
  | .fin _ _ _, .inf b => !b
  | .fin n1 m1 e1, .fin n2 m2 e2 =>
    let e := min e1 e2
    decide (scaledInt n1 m1 e1 e < scaledInt n2 m2 e2 e)
def eqV (x y : FVal) : Bool := !x.isNan && !y.isNan && !ltV x y && !ltV y x

/-- The order of FMIN and FMAX: −0 below +0 (R98). -/
def belowV (x y : FVal) : Bool := ltV x y || (x.isZero && y.isZero && x.isNeg && !y.isNeg)

/-- FMIN and FMAX on codes (R98). -/
def fminmaxC (f : Fmt) (isMax : Bool) (x y : Nat) : Nat × Word :=
  let a := decodeF f x
  let b := decodeF f y
  let fl := flagIf (a.isSig || b.isSig) flagNV
  if a.isNan && b.isNan then (f.nanCode, fl)
  else if a.isNan then (y, fl)
  else if b.isNan then (x, fl)
  else if isMax then (if belowV a b then y else x, fl)
  else (if belowV b a then y else x, fl)

/-- The conditions of FCMP and their NV (R99). -/
def fcmpC (f : Fmt) (c x y : Nat) : Bool × Word :=
  let a := decodeF f x
  let b := decodeF f y
  let un := a.isNan || b.isNan
  let sig := a.isSig || b.isSig
  let r := if c = 0 then eqV a b else if c = 1 then !eqV a b else if c = 2 then ltV a b else if c = 3 then ltV a b || eqV a b
    else if c = 4 then ltV b a else if c = 5 then ltV b a || eqV a b else if c = 6 then !un else un
  (r, flagIf (sig || (un && decide (2 ≤ c) && decide (c ≤ 5))) flagNV)

/-- The class of a code (R100). -/
def fclassC (f : Fmt) (x : Nat) : Nat :=
  match decodeF f x with
  | .nan s => if s then 2 ^ 8 else 2 ^ 9
  | .inf n => if n then 2 ^ 0 else 2 ^ 7
  | .fin n m _ =>
    if m = 0 then (if n then 2 ^ 3 else 2 ^ 4)
    else if m < 2 ^ f.m then (if n then 2 ^ 2 else 2 ^ 5)
    else if n then 2 ^ 1 else 2 ^ 6

/-- Round to an integral value of the format; never inexact (R101). -/
def frndC (f : Fmt) (rm x : Nat) : Nat × Word :=
  match decodeF f x with
  | .nan s => (f.nanCode, flagIf s flagNV)
  | .inf n => (f.infCode n, 0)
  | .fin n m e => if 0 ≤ e then (x, 0) else ((roundF f rm n (roundAt rm n m e 0).1 0).1, 0)

/-- a · 2^b (R101); beyond ±5,000 every finite result is the same as at ±5,000. -/
def fscaleC (f : Fmt) (rm x : Nat) (b : Int) : Nat × Word :=
  match decodeF f x with
  | .nan s => (f.nanCode, flagIf s flagNV)
  | .inf n => (f.infCode n, 0)
  | .fin n m e => roundF f rm n m (e + max (-5000) (min 5000 b))

/-- The exact value an integer has. -/
def intV (x : Int) : FVal := .fin (decide (x < 0)) x.natAbs 0

end Sys2Proof.Machine
end

