-- ==== Sys2Proof/Machine/Mem.lean ====
section
/-! DEFINITION. Memory as a list of cells in one canonical form: addresses strictly rising, no cell equal to what an
unlisted address reads as. -/

namespace Sys2Proof.Machine

/-- Memory: the bytes that differ from what an unlisted address reads as. -/
abbrev Memory := List Host.Cell

/-- What an unlisted address reads as: the spec gives DRAM no contents at reset (log entry 5, DESIGN CHOICE). -/
def Memory.blank : Byte := 0

/-- The byte at an address. -/
def Memory.read : Memory → Nat → Byte
  | [], _ => Memory.blank
  | (a', b) :: m, a => if a' = a then b else Memory.read m a

/-- Memory with one byte written; writing the blank byte removes the cell. -/
def Memory.write : Memory → Nat → Byte → Memory
  | [], a, b => if b = Memory.blank then [] else [(a, b)]
  | (a', b') :: m, a, b =>
    if a' = a then (if b = Memory.blank then m else (a, b) :: m)
    else if a < a' then (if b = Memory.blank then (a', b') :: m else (a, b) :: (a', b') :: m)
    else (a', b') :: Memory.write m a b

/-- All cells of the memory lie above an address. -/
def Memory.above (lo : Nat) : Memory → Bool
  | [] => true
  | (a, b) :: m => decide (lo < a) && decide (b ≠ Memory.blank) && Memory.above a m

/-- The canonical form: addresses strictly rising, and no cell that an unlisted address would read as. -/
def Memory.wf : Memory → Bool
  | [] => true
  | (a, b) :: m => decide (b ≠ Memory.blank) && Memory.above a m

/-- The n bytes from an address on. -/
def Memory.readBytes (m : Memory) (a n : Nat) : List Byte := (List.range n).map (fun i => m.read (a + i))

/-- The number that n bytes form, little-endian (R5). -/
def Memory.readNat (m : Memory) (a n : Nat) : Nat := ofBytes (m.readBytes a n)

/-- Memory with a string of bytes written from an address on. -/
def Memory.writeBytes : Memory → Nat → List Byte → Memory
  | m, _, [] => m
  | m, a, b :: bs => Memory.writeBytes (m.write a b) (a + 1) bs

/-- Memory with a set of cells written, in order. -/
def Memory.writeCells (m : Memory) (cs : List Host.Cell) : Memory := cs.foldl (fun m c => m.write c.1 c.2) m

end Sys2Proof.Machine
end

