-- ==== Sys2Proof/Machine/State.lean ====
section
/-! DEFINITION. The state of the device as plain data: its agents, cores, groves, dies, memory, engines, queues, fabric,
interposer, power and host registers; and the state after reset. -/

namespace Sys2Proof.Machine

/-- Why the machine stops. -/
inductive Fault where
  /-- Raised by an instruction of the set when no agent is chosen to issue it (`State.cur` names none). Safe: the hardware
  issues no instruction without an agent, so no behaviour of it is lost. -/
  | noAgent
  deriving DecidableEq, Repr

/-- Why a step has no meaning. -/
inductive Refusal where
  /-- Raised by the arm of an instruction that is rejected by name. Safe: nothing is claimed of it. -/
  | notModelled (mnemonic : String)
  /-- Raised by `step` when the agenda names, as an event, an instruction that only an agent issues. Safe: the hardware has
  no such event. -/
  | notAnEvent
  deriving DecidableEq, Repr

/-- The states of R22. -/
inductive TState where
  | ready | run | parked | barrier | sleep | faultHold | saved
  deriving DecidableEq, Repr

/-- A team on a core, or a forester context of a grove (R14, R145). -/
inductive AgentKind where
  | team | forester
  deriving DecidableEq, Repr

/-- The kind of an open region (R31). -/
inductive Region where
  | ifArm | elseArm | loop
  deriving DecidableEq, Repr

/-- An entry of the mask stack (R31); `spoilt` when software wrote over its spilled bytes. -/
structure MaskEntry where
  outer : Mask
  alt : Mask
  kind : Region
  addr : DWord
  spoilt : Bool
  deriving DecidableEq, Repr

/-- An outstanding long-latency instruction (R39, R40, R336): its window, its destination, and the result it will write.
`values` holds 32·nreg bits for each lane, lane 0 first (the one value when the destination is an s register); `sext` is
the width a value is sign-extended from, 0 for none; `tags` are the fabric requests still unanswered. -/
structure LAEntry where
  token : Nat
  parks : Bool
  mem : Bool
  dest : Reg
  nreg : Nat
  remain : Nat
  done : Bool
  lanes : Mask
  taint : Mask
  values : List Nat
  sext : Nat
  srcs : List Reg
  /-- The sticky flags that each value sets (R9, R85). -/
  flags : List Word
  err : Option (Cause × Nat)
  /-- How many traps have been taken, and not returned from, since it issued (R43). -/
  atTrap : Nat
  /-- The phase of its agent in which it issued (R227), and its place among the agent's writes (R222). -/
  phase : Nat
  num : Nat
  tags : List Nat
  /-- For an atomic, the lane, location and size of what it wrote (R40). -/
  sites : List (Nat × Nat × Nat)
  deriving DecidableEq, Repr

/-- An issued close that has not completed (R224, R229): the bytes it covers by location, the wake it delivers (R333), and
the bundle it waits for (R251). -/
structure Close where
  scope : Nat
  bytes : Tab Byte
  wake : Option (Nat × Nat)
  after : Option Nat
  /-- How many entries the agent had made in the side log: those are covered too (R245). -/
  mark : Nat
  /-- Its bytes have been sent to their places. -/
  begun : Bool
  deriving DecidableEq, Repr

/-- An entry of a watch table (R241). -/
structure WatchEntry where
  ident : Nat
  count : Nat
  settled : Bool
  sig : DWord
  deriving DecidableEq, Repr

/-- What keeps an agent unchosen in the middle of an instruction (R183, R237, R272, R276, R277, R318, R338). -/
inductive Hold where
  | none
  | bankDrain (banks : Word) (mode : Nat)
  | claimDrain (index : Nat) (d : Reg)
  | controlStore (image : List Byte) (d : Reg)
  | tlbi
  | freeing (index : Nat)
  | matFault (handle : Nat)
  | bundle (id : Nat)
  | placing
  | sideLoad (vas : List Nat)
  | sideRoom (need : Nat)
  | sidePage (page : Nat)
  | barrier (addr : Nat)
  | object (loc : Nat)
  | saveOther (slot : Nat)
  deriving DecidableEq, Repr

/-- An entry of a forester's queue (R154, R158): the instruction, its operand values, the tables read at issue, and the next
step. -/
structure MxEntry where
  ticket : Word
  op : Instr
  ops : List Word
  cmask : Nat
  running : Bool
  next : Nat
  table : List Byte
  /-- How many writes of software had been made when it issued; and the bytes that it writes, as core
  within the grove, offset and length (R176). -/
  since : Nat
  spans : List (Nat × Nat × Nat)
  /-- The scratchpad bytes that other agents had stored to then and not closed (R176). -/
  foreign : List Nat
  deriving DecidableEq, Repr

/-- An access of a team waiting at a tile array (R144, R171). -/
structure TileAccess where
  agent : Nat
  token : Nat
  op : Instr
  rows : List (Nat × Nat × Word × Word × List Word)
  /-- The number of its arrival, which orders the accesses of teams that were saved (R144). -/
  seq : Nat
  deriving DecidableEq, Repr

/-- An entry of a side log (R324). -/
structure SideEntry where
  agent : Nat
  va : Nat
  mask : Nat
  red : Bool
  ctrl : Nat
  ord : Nat
  slot : Nat
  seq : Nat
  data : Nat
  user : Bool
  /-- Its place among its agent's writes (R222, R245), and its number among the writes of software (R176, R205). -/
  num : Nat
  code : Nat
  deriving DecidableEq, Repr

/-- An agent that issues instructions: a team or a forester context. -/
structure Agent where
  kind : AgentKind
  state : TState
  /-- For a saved agent, the state it returns to (R22, R334). -/
  savedFrom : TState
  /-- Saved by CTXSV, its slot kept (R338). -/
  inPlace : Bool
  /-- Saved by pre-emption: it holds no slot (R47). -/
  away : Bool
  core : Nat
  grove : Nat
  slot : Nat
  coreNum : Nat
  grid : Nat
  wg : Nat
  gridId : Word
  wgid : DWord
  teamId : Nat
  role : Nat
  asid : Nat
  depth : Nat
  prio : Nat
  nlanes : Nat
  strand : Nat
  allot : Nat
  stackBase : Nat
  stackSize : Nat
  pc : DWord
  sregs : Tab Word
  vregs : Tab (List Word)
  mask : Mask
  /-- Hardware entries of the mask stack, newest first, at most 16 (R30). -/
  stack : List MaskEntry
  /-- Spilled entries, newest first (R30). -/
  spilled : List MaskEntry
  /-- Bytes that its spills and refills left in its stack area, by virtual address: private stores that no close covers (R30). -/
  spill : Tab Byte
  lahead : List LAEntry
  fstat : Word
  qmax : Word
  qsatn : Word
  qnfn : Word
  qctr : Word
  trapCause : Word
  trapPc : DWord
  trapAddr : DWord
  priv : Bool
  ppriv : Bool
  kscr0 : Word
  kscr1 : Word
  kscr2 : Word
  kscr3 : Word
  /-- Stores that no close covers yet, by location (R223). -/
  stores : Tab Byte
  /-- Older stores that only closes at `.t` cover: still private (R250); and how many side-log entries precede the latest of
  those closes (R237). -/
  kept : Tab Byte
  keptSeq : Nat
  closes : List Close
  /-- Its stores of bundles that have not committed (R237). -/
  bundled : Tab Byte
  /-- How many stores and strong writes it has issued, and for each byte it has stored and not closed, by location, which of them
  it was (R222). -/
  order : Nat
  storeAt : Tab Nat
  /-- The scratchpad bytes, as positions, that it has stored to and that no close and no other agent's `LDS` of one of them covers: the
  model's own mark (R176, R205, R235). -/
  scratchOpen : List Nat
  /-- How many phases it has opened (R227). -/
  phase : Nat
  /-- Values read in this phase, by location (R227); and those read in earlier phases of which loads are outstanding. -/
  seen : Tab Byte
  olderSeen : Tab (Tab Byte)
  /-- For each line read in this phase, how many bundles had written it then (R240). -/
  seenVer : Tab Nat
  /-- Virtual address of each line stored to, for TRAPADDR (R399) and for counting the lines of a bundle (R237). -/
  lineVa : Tab Nat
  watch : List WatchEntry
  overflow : DWord
  /-- The entries folded into the overflow signature whose bundles are not known to have settled (R241). -/
  folded : List WatchEntry
  /-- Barrier arrival record: object address and generation (R248). -/
  arrivals : List (Nat × Nat)
  /-- Barrier objects of other devices as the last answers brought them, by location (R248). -/
  objects : Tab (List Byte)
  sleepEnd : Nat
  wakePend : Bool
  refused : Nat
  parkPc : Option DWord
  /-- The handle of the ring it waits on; and what the slot held when it filled: its number, the result word, and the report
  (R216, R217). -/
  ringOn : Option Nat
  ringGot : Option (Nat × Nat × Option (Cause × Nat))
  /-- The instruction at the pc is holding the agent unchosen (R334). -/
  waiting : Bool
  /-- The largest value of `REFTIME` that it has read (R353). -/
  lastRef : Nat
  syncWait : Bool
  /-- Causes to be taken at the next close, release or load (R323, R233, R244), with their addresses. -/
  reports : List (Cause × Nat)
  hold : Hold
  /-- The instruction at the pc has issued and waits: a yield bit of it has taken effect (R62). -/
  counted : Bool
  yielded : Bool
  /-- While yielded, the teams that were READY then and have not been chosen since (R44). -/
  passFor : List Nat
  /-- The model's own mark: how many strong accesses had been performed when the agent last observed anything (R233). -/
  lastObs : Nat
  bound : Nat
  mxq : List MxEntry
  ticket : Word
  mxErrors : List (Word × Cause × Nat)
  /-- Macro-operations that have ended and that no `MX.WAIT` has joined (R168, R176). -/
  mxDone : List MxEntry
  /-- Entries it has made in the side log (R324). -/
  sideSeq : Nat
  /-- What a reload with a changed MATCMD adds to the count of its outstanding mat commands (R338). -/
  matLoose : Nat
  /-- While it is saved away from its core: its side-log entries, its waiting tile accesses, and the tiles of a context's
  bound cores by core within the grove (R334, R335, R337). -/
  heldLog : List SideEntry
  heldAccess : List TileAccess
  heldTiles : Tab (Tab Word)
  /-- While saved by CTXSV: its area as it was written, up to the registers (R338). -/
  area : List Byte
  /-- A line that the instruction at the pc asked another device for and did not get, and why (R195, R372). -/
  lostLine : Option (Nat × Cause)
  deriving DecidableEq, Repr

/-- A cached translation (R317). -/
structure TlbEntry where
  asid : Nat
  base : Nat
  size : Nat
  pte : DWord
  deriving DecidableEq, Repr

/-- One core: its banks (0 cache, 1 scratchpad, 2 FIFO; R181), scratchpad bytes, FIFOs, tiles, side log, slots and
controls. -/
structure Core where
  modes : Tab Nat
  scratch : Memory
  fifos : Tab (List Word)
  owner : Tab Nat
  /-- Banks that hold indeterminate values where nothing has been written: the base of their free values (R182). -/
  unset : Tab Nat
  /-- Poisoned 128-byte lines of the scratchpad (R211, R394). -/
  poison : List Nat
  tiles : Tab Word
  tileQueue : List TileAccess
  sideLog : List SideEntry
  rr : Tab Nat
  /-- The last team of each class chosen in this cycle, by slot: where the positions move after it (R44). -/
  rrNext : Tab Nat
  chosen : Option Nat
  /-- Slot 1 has had its turn in this cycle (R36, R44). -/
  late : Bool
  allow : Nat
  temp : Nat
  bundleSeq : Tab Nat
  gated : Bool
  halted : Bool
  deriving DecidableEq, Repr

/-- A slot of a ring (R213). -/
structure RingSlot where
  expect : Nat
  arrived : Nat
  armed : Bool
  status : Nat
  addr : Nat
  reported : Bool
  deriving DecidableEq, Repr

/-- A live entry of a copy unit's ring table (R213). -/
structure Ring where
  wg : Nat
  buf : DWord
  ssize : Nat
  scount : Nat
  wseq : Nat
  rseq : Nat
  aseq : Nat
  slots : Tab RingSlot
  deriving DecidableEq, Repr

/-- What a copy moves (R206, R209, R297): elements named by lanes, a box of a tensor, or a range of a command. -/
inductive CopyJob where
  | lanes (n : Nat) (dsp ssp : Bool) (pairs : List (Nat × Nat))
  | tensor (desc : List Byte) (x : List Int) (box : Nat) (sp out : Bool) (trailer : List Byte)
  | range (dst src n : Nat)
  deriving DecidableEq, Repr

/-- An outstanding copy (R205): who issued it, its ring slot, its progress in bytes of its box, and the private stores it
sees by its fork (R236). -/
structure Copy where
  agent : Nat
  grid : Nat
  wg : Nat
  grove : Nat
  core : Nat
  asid : Nat
  user : Bool
  ring : Option (Nat × Nat)
  cmd : Option Nat
  job : CopyJob
  cursor : Nat
  suspended : Bool
  view : Tab Byte
  /-- How many entries its agent had made in the side log: its reads see those too (R236). -/
  mark : Nat
  /-- Lines that other devices did not supply, and the codes of the causes (R211). -/
  lost : Tab Nat
  /-- Its place among its agent's writes (R222). -/
  num : Nat
  /-- Of a tile image: the CRCs so far of the bytes read and of those written, as at the cursor and at the 4 KiB boundary below it; and
  whether bytes of it did not come (R135, R136, R210). -/
  crc : Nat × Nat
  crcBack : Nat × Nat
  crcFree : Bool
  deriving DecidableEq, Repr

/-- A copy that no agent has joined yet (R205): who issued it, its ring slot, where it reads and writes, how many writes of software
had been made when it issued, and which of its source bytes other agents had stored to then and not closed. -/
structure Trace where
  agent : Nat
  wg : Nat
  grove : Nat
  asid : Nat
  user : Bool
  handle : Nat
  slot : Nat
  job : CopyJob
  since : Nat
  foreign : List Nat
  deriving DecidableEq, Repr

/-- One grove: the staging cache's closed bytes by location, the copy unit's rings, and which arrays each context binds. -/
structure Grove where
  staging : Tab Byte
  /-- Poisoned lines of the staging cache (R394). -/
  poison : List Nat
  rings : Tab Ring
  lastContext : Nat
  lastPlaced : Option Nat
  deriving DecidableEq, Repr

/-- A die's clock (R352, R354) and its power state (R351, R359). `relock` holds REFTIME, NCYC and the residue at the stop. -/
structure Die where
  cyc : Nat
  ncyc : Nat
  res : Nat
  mhz : Nat
  relock : Option (Nat × Nat × Nat × Nat)
  lastRelock : Option Nat
  wanted : Option Nat
  emergency : Bool
  /-- An emergency relock waits for the end of a relock in progress (R351). -/
  emergencyDue : Bool
  rest : Nat
  deriving DecidableEq, Repr

/-- Whom a fault record answers (R320, R323). -/
inductive FaultOf where
  | hold (agent : Nat)
  | side (core agent va : Nat)
  | copy (id : Nat)
  | queue (q : Nat)
  | info
  deriving DecidableEq, Repr

/-- A fault record, pending or posted (R321, R322). -/
structure FaultRec where
  /-- `DEVICE` when the record was formed (R373). -/
  device : Nat := 0
  asid : Nat
  va : Nat
  cause : Cause
  access : Nat
  malf : Bool
  user : Bool
  source : Nat
  slot : Nat
  gridId : Word
  wgid : DWord
  cursor : Nat
  ring : Nat
  whom : FaultOf
  posted : Option Nat
  overflowed : Bool
  deriving DecidableEq, Repr

/-- A grid (R14, R298): its launch record and how far it has come. -/
structure Grid where
  gridId : Word
  asid : Nat
  record : List Byte
  depth : Nat
  prio : Nat
  parent : Option (Nat × Nat × Nat)
  cmd : Option Nat
  order : Nat
  producer : Option Nat
  placed : List Nat
  retired : Nat
  stopped : Bool
  /-- Workgroups whose dependence has been found met (R302, R303). -/
  eligible : List Nat
  done : Bool
  status : Nat
  /-- The launching team's unclosed stores, which a child's teams see (R119). -/
  view : Tab Byte
  /-- How many entries the launching agent had made in the side log: its teams see those too (R119, R236). -/
  mark : Nat
  /-- The keys of the teams and contexts it has had (R399). -/
  members : List Nat
  /-- The scope of its teams' first opens (R305). -/
  openScope : Nat
  deriving DecidableEq, Repr

/-- The contents of a held bank of a saved workgroup (R182): the core within the grove, the bank, its cells as the core's
memory holds them, the base of its free values, and its FIFO. -/
structure BankSave where
  core : Nat
  bank : Nat
  cells : Memory
  unset : Option Nat
  fifo : List Word
  poison : List Nat
  /-- The numbers of software's writes to its bytes, by their offset in the scratchpad. -/
  writes : Tab Nat
  deriving DecidableEq, Repr

/-- What a team or forester context takes on a grove (R16, R18): its core and slot, or its grove's first core and its context;
the lane-registers of its allotment; the side-log entries it brings. -/
structure Seat where
  forester : Bool
  core : Nat
  slot : Nat
  regs : Nat
  side : Nat
  /-- The arrays that a context had bound (R149). -/
  bound : Nat
  deriving DecidableEq, Repr

/-- A workgroup that has room on a grove (R309): its number, the grove, its seats, and the banks it will hold. -/
structure Reserved where
  wgid : Nat
  grove : Nat
  seats : List Seat
  banks : Nat
  deriving DecidableEq, Repr

/-- A workgroup that has been placed (R16): where it is, whether it is saved, its held banks while it is saved (R182). -/
structure Wg where
  grid : Nat
  wgid : Nat
  grove : Nat
  gang : Nat
  saved : Bool
  retired : Bool
  placedAt : Nat
  banks : List BankSave
  rings : Tab Ring
  deriving DecidableEq, Repr

/-- A command queue (R294, R389). -/
structure Queue where
  base : DWord
  ctl : Word
  tail : Nat
  head : Nat
  qown : Word
  blocked : Bool
  deriving DecidableEq, Repr

/-- A command taken up (R295, R296). -/
structure Cmd where
  queue : Nat
  loc : Bool
  asid : Nat
  prio : Nat
  slotAddr : Nat
  bytes : List Byte
  order : Nat
  begun : Bool
  done : Bool
  deadline : Nat
  phase : Nat
  /-- Of a `LAUNCH`, what its take-up found: the record, the STATUS it earns (none while the record is on its way from another
  device), and the producer live then (R300, R302). -/
  record : List Byte
  verdict : Option Nat
  producer : Option Nat
  deriving DecidableEq, Repr

/-- A mat of a clearing: rows and latches (R261). -/
structure Mat where
  rows : Tab Row
  c : Row
  t : Row
  deriving DecidableEq, Repr

/-- An entry of the device clearing table (R259). -/
structure Clearing where
  gen : Nat
  live : Bool
  freeing : Bool
  asid : Nat
  ranks : Nat
  /-- The ways it holds in every slice (R255). -/
  ways : List Nat
  poison : Bool
  mats : Tab Mat
  /-- Where its rows hold indeterminate values: the base of their free values (R289). -/
  unset : Option Nat
  deriving DecidableEq, Repr

/-- What a mat command does, with its lanes' operands (R278 to R282). A transfer's lane is its mat, its address, and the
locations of the first byte and of the 4 KiB page after it. -/
inductive MatJob where
  | load (row w e : Nat) (lanes : List (Nat × Nat × Nat × Nat))
  | store (row w e : Nat) (pm sx : Bool) (lanes : List (Nat × Nat × Nat × Nat))
  | call (entry ba bb bd : Nat) (pg : Bool) (args : List Nat) (mats : List Nat)
  | pred (mode : Nat) (lanes : List (Nat × Nat × Word))
  | read (token : Nat) (lanes : List (Nat × Nat))
  deriving DecidableEq, Repr

/-- A mat command that has issued (R275): the slices it still has to end in, its status with the number of its recording,
and the private stores it sees by its fork (R291). It stays until a completed CLR.WAIT has covered it (R283). -/
structure MatCmd where
  agent : Nat
  wg : Nat
  /-- The unit that translated its addresses (R319). -/
  unit : Nat
  asid : Nat
  user : Bool
  handle : Word
  job : MatJob
  slices : List Nat
  status : Nat
  addr : Nat
  stamp : Nat
  reported : Bool
  view : Tab Byte
  /-- How many entries its agent had made in the side log: its reads see those too (R236). -/
  mark : Nat
  /-- Lines that other devices did not supply, and the codes of the causes (R279). -/
  lost : Tab Nat
  /-- How many writes of software had been made when it issued, and which of its source bytes other agents had stored to then and
  not closed (R205, R291). -/
  since : Nat
  foreign : List Nat
  /-- Of the bytes that several lanes of a store name, which lane has written them, plus one (R279). -/
  wrote : Tab Nat
  /-- Its place among its agent's writes (R222). -/
  num : Nat
  deriving DecidableEq, Repr

/-- How far a bundle has come (R239, R244, R252). -/
inductive BundleState where
  | pending | placed | committed | settled | withdrawn
  deriving DecidableEq, Repr

/-- A bundle of this device (R237 to R239). -/
structure Bundle where
  ident : Nat
  name : Word
  agent : Nat
  scope : Nat
  state : BundleState
  bytes : Tab Byte
  lines : List Nat
  sig : DWord
  unacked : List Nat
  refusedAt : Option Nat
  deriving DecidableEq, Repr

/-- A version a home holds beside the current one (R239, R243): pending, or the old one retained. -/
structure Version where
  line : Nat
  ident : Nat
  cells : Tab Byte
  count : Nat
  sig : DWord
  retained : Bool
  /-- Of a retained version: the bundle whose version it is. -/
  was : Option Nat
  deriving DecidableEq, Repr

/-- An access that its issuer has posted (R192, R199): a RED's element or a store to another core's scratchpad. -/
inductive PostedJob where
  | red (ctrl ord loc va data : Nat)
  | scratch (port : Nat) (cells : List Host.Cell)
  deriving DecidableEq, Repr

structure Posted where
  agent : Nat
  asid : Nat
  /-- Its place among its agent's writes (R222). -/
  num : Nat
  job : PostedJob
  deriving DecidableEq, Repr

/-- A fabric operation (R365). -/
structure FabOp where
  kind : Nat
  flags : Nat
  key : Nat
  asid : Nat
  tag : Nat
  addr : Nat
  arg : Nat
  data : List Byte
  src : Nat
  tc : Nat
  deriving DecidableEq, Repr

/-- What an unanswered request of this device is for. A load's parts are lane, first byte of its value, count, and offset in
the line. -/
inductive SentFor where
  | load (agent token va : Nat) (parts : List (Nat × Nat × Nat × Nat))
  | atomic (agent token lane va : Nat)
  | atomicSum (agent token n va : Nat)
  | place (agent : Nat)
  | red (agent va : Nat)
  | bundle (id line : Nat)
  | copyRead (copy : Nat)
  | mat (id : Nat)
  | issue (agent : Nat)
  | object (agent loc : Nat)
  | recall (line : Nat)
  | query (agent token : Nat)
  | slot (queue : Nat)
  | dep (grid : Nat)
  | doneBit (grid : Nat)
  | cmd (id : Nat)
  | coll (ctx : Nat)
  | other
  deriving DecidableEq, Repr

/-- A request that is not answered: its operations, and the path it keeps, as VIA and port; none while it waits for older
ones of its granule (R371, R383). `old` marks one that was sent before the current table; `seq` is the order of issue. -/
structure Sent where
  op : FabOp
  more : List FabOp
  dest : Nat
  why : SentFor
  deadline : Nat
  path : Option (Nat × Nat)
  old : Bool
  seq : Nat
  /-- Of an invalidation sent by multicast, the devices whose answers are due (R377). -/
  answers : List Nat
  deriving DecidableEq, Repr

/-- Which devices hold a line: one that owns it exclusively, up to four pointers, or the ports behind which they lie (R376,
R377). -/
inductive Holders where
  | owner (d : Nat)
  | devices (ds : List Nat)
  | ports (mask : Nat)
  deriving DecidableEq, Repr

/-- A frame queued for a port (R366, R374, R375): its octets up to the link's own, the hop stage, whether it draws on the local
pool, and the stored multicast frame it is a branch of. -/
structure OutFrame where
  raw : List Byte
  stage : Nat
  own : Bool
  multi : Option Nat
  deriving DecidableEq, Repr

/-- A frame in a replay buffer: its octets, when it was last sent, its hop stage, and the multicast frame it is a branch of (R366,
R367, R375). -/
structure SentFrame where
  octets : List Byte
  since : Nat
  stage : Nat
  own : Bool
  multi : Option Nat
  deriving DecidableEq, Repr

/-- A stored multicast frame (R375): its octets, its branches that have not been acknowledged, and its pool. -/
structure Multicast where
  raw : List Byte
  branches : Nat
  own : Bool
  deriving DecidableEq, Repr

/-- A port (R367 to R369): `out` are the frames queued for it, the oldest first, of all its virtual output queues; `replay` those
sent and not acknowledged; `starts` counts frame starts modulo 8; `band` is which of R368's bounds the queue lies beyond (0
below 8 KiB, 2 above 64 KiB, 1 between) and since when. -/
structure Port where
  pstate : Nat
  neigh : Nat
  lmask : Nat
  width : Nat
  nextWidth : Option Nat
  floor : Nat
  retries : Nat
  relocks : Nat
  drops : Nat
  txSeq : Nat
  rxSeq : Nat
  ackDue : Bool
  nakDue : Bool
  replay : List SentFrame
  out : List OutFrame
  starts : Nat
  band : Nat
  bandSince : Nat
  widenAt : Nat
  deriving DecidableEq, Repr

/-- A collective context (R385): `shards` are the pieces received and not used yet, `sent` that its own of this slot have been sent,
`bad` that the collective is out of range or failed, `pend` what it will write to DST once all has come, `forks` how many writes
have brought START to EXPECT for which the engine has not begun yet. -/
structure Collective where
  recAddr : DWord
  en : Bool
  busy : Bool
  err : Bool
  unbind : Bool
  asid : Nat
  runs : Nat
  slot : Nat
  sent : Bool
  bad : Bool
  shards : List FabOp
  fork : List Byte
  rankmap : List Nat
  pend : List (Nat × List Byte)
  forks : Nat
  deriving DecidableEq, Repr

/-- An ordered pair of interposer ports (R346 to R350). `recvSeq` counts the flits of each class delivered; a flit's key is 4·its
number + its class: `failed` are the flits that have been sent and have failed, with the colour of the latest sending, `marked`
those of them that the latest drain left for resending (R349), `early` those that have come ahead of their turn (R342), `tries` the
successive failed replays of a flit on a colour, by 2·its key + the colour. -/
structure Pair where
  alost : Bool
  blost : Bool
  active : Nat
  next : Option Nat
  relayk : Nat
  mode : Nat
  losts : Nat
  bgated : Bool
  retraining : Nat
  recvSeq : Tab Nat
  tries : Tab Nat
  failed : Tab Nat
  marked : List Nat
  early : List Nat
  deriving DecidableEq, Repr

/-- An entry of the growth-ring record (R395). -/
structure RingEvent where
  time : Nat
  /-- `DEVICE` when the entry was formed (R373). -/
  device : Nat
  code : Nat
  source : Nat
  asid : Nat
  detail : List Byte
  deriving DecidableEq, Repr

/-- What a port is used for (R361). -/
inductive PortUse where
  | graph | spare | uplink
  deriving DecidableEq, Repr

/-- What the signed configuration record gives (R392): `floors` by port (R369), `modes` and `relayks` by pair selector (R347), where
nothing is listed `floor`, `mode` and `relayk`; `uses` holds the use of each port (R361), `trim` the part's trim, and `image` its
bytes in flash, which are hashed (R393). -/
structure Record where
  devnum : Nat
  mhz : Nat
  clrLimit : Nat
  rsvbase : Nat
  floor : Nat
  mode : Nat
  relayk : Nat
  timeout : Nat
  gating : Bool
  minver : List Nat
  uses : List PortUse
  floors : Tab Nat
  modes : Tab Nat
  relayks : Tab Nat
  trim : List Byte
  image : List Byte
  deriving DecidableEq, Repr

/-- A firmware image in flash (R391): its version and its bytes. -/
structure FlashImage where
  version : Nat
  bytes : List Byte
  deriving DecidableEq, Repr

/-- What happens next: a slot of a core chooses and issues, a grove's forester issues, an event takes place, time passes (in
ns). -/
inductive Turn where
  | slot (core slot : Nat)
  | forester (grove : Nat)
  | event (i : Instr)
  | elapse (ns : Nat)
  deriving DecidableEq, Repr

/-- The device. Absent keys of a table stand for the reset value of what the table holds. -/
structure State where
  agenda : List Turn
  cur : Nat
  /-- The model's own mark: the agent chosen in this turn issued (R44). -/
  issued : Bool
  freeCtr : Nat
  record : Record
  /-- The four images in flash, in the order of loading (R391). -/
  flash : List FlashImage
  reftime : Nat
  agents : Tab Agent
  cores : Tab Core
  groves : Tab Grove
  dies : Tab Die
  mem : Memory
  poison : List Nat
  /-- Bytes on their way to their homes: to another device, which may not be reachable (R399), or to a line of this device whose
  holders have not all answered an invalidation (R377). -/
  held : Tab Byte
  /-- Of each line of another device of which closed bytes stand in a staging cache or in `held`: its address space, and the
  agents whose closes cover those bytes (R224, R399). -/
  covers : Tab (Nat × List Nat)
  /-- The bundles whose versions a line of this device has had, the latest first (R240). -/
  lineVer : Tab (List Nat)
  /-- The bundles that slices have refused and that still wait, as slice and identity, the longest wait first (R242). -/
  refusals : List (Nat × Nat)
  /-- The strong accesses performed to a line, the latest first: base, size, agent and number (R233). -/
  lastStrong : Tab (List (Nat × Nat × Nat × Nat))
  strongSeq : Nat
  /-- How many times software has written memory or a scratchpad, and for each byte written, by location (a scratchpad's above
  2^60), the number of the latest write (R176, R205). -/
  codeSeq : Nat
  codeWrites : Tab Nat
  /-- For each byte that software has written, by location, the grids that had a team or context resident at the latest write
  (R50, R180). -/
  codeGrids : Tab (List Nat)
  /-- Arrivals of other devices' agents at barrier objects of this one: location and generation (R246). -/
  guestArrivals : List (Nat × Nat)
  /-- Lines of which one store has written all 128 bytes that are not at their home yet (R394). -/
  fullStores : List Nat
  /-- Closes of teams that have been aborted, with what their completion needs of the team, by its key (R326). -/
  orphans : Tab Agent
  /-- The translating unit of a team that is gone and may have accesses outstanding, by its key (R319). -/
  goneUnits : Tab Nat
  /-- The save pool: each saved agent's areas as the formats of R335 and R337 have them, by its key (R334). -/
  savePool : Tab (List (Nat × List Byte))
  /-- The key of each byte that was last written through the window: 0 plaintext, else the address space + 1 (R390). -/
  windowKeys : Tab Nat
  tlbs : Tab (List TlbEntry)
  asidCache : Tab (List Byte)
  shootdown : Option (Nat × Nat × Nat × Nat × List Nat)
  asidtab : DWord
  fqSticky : Bool
  fqCount : Nat
  faults : List FaultRec
  queues : Tab Queue
  cmds : Tab Cmd
  nextOrder : Nat
  /-- The queue of each class that was taken up last (R295). -/
  lastQueue : Tab Nat
  grids : Tab Grid
  nextChild : Nat
  wgs : Tab Wg
  /-- The gang under reservation, as grid and gang number, and the workgroups of it that have room (R309). -/
  reservation : Option (Nat × Nat)
  reserved : List Reserved
  /-- Of each grid of a smaller class, how many workgroups were eligible when the reservation began (R309). -/
  reservedOver : List (Nat × Nat)
  lastGrove : Nat
  pclass : Nat
  budget : Nat
  budgetSince : Nat
  clearings : Tab Clearing
  clrLimit : Nat
  clrSel : Nat
  quotas : Tab Nat
  control : List (BitVec 128)
  entries : List Word
  imageVersion : Nat
  standard : Bool
  matCmds : Tab MatCmd
  sliceQueue : Tab (List Nat)
  bundles : Tab Bundle
  versions : List Version
  copies : Tab Copy
  /-- Copies that no agent has joined (R205). -/
  traces : Tab Trace
  posted : Tab Posted
  /-- How many team-side accesses have arrived at tile arrays (R144). -/
  tileSeq : Nat
  device : Nat
  routes : List (Option (List Byte))
  current : Option Nat
  inbox : List FabOp
  sent : Tab Sent
  sentSeq : Nat
  peers : Tab (List Byte)
  directory : Tab Holders
  ports : Tab Port
  /-- Stored multicast frames, and frames of this device for which the local pool has no room, with their ports (R374, R375). -/
  multicasts : Tab Multicast
  backlog : List (Nat × OutFrame)
  collectives : Tab Collective
  pairs : Tab Pair
  drams : Tab Nat
  /-- The boot ROM has been started. -/
  powered : Bool
  bootStage : Nat
  bootFail : Nat
  digests : List (List Byte)
  w2base : DWord
  w2ctl : Word
  nonce : List Byte
  go : Bool
  report : List Byte
  growth : List RingEvent
  wraps : Word
  msix : List Nat
  /-- The function that each MSI-X vector is assigned to: the physical function's where none is listed (R388). -/
  vectors : Tab Nat
  /-- Of each unit whose corrected errors have been entered, when that was (R396). -/
  softSince : Tab Nat
  /-- The last readings of the DRAM stacks' sensors, and the power of the rails, which the management interface reads (R360, R397). -/
  dramTemps : Tab Nat
  rails : Tab Nat
  /-- An uncorrectable error of the host link has been reported (R388). -/
  aer : Bool
  hostRead : List Byte
  /-- Host memory as the device reaches it over the link: rings and STATUS words (R294). -/
  hostMem : Memory
  deriving DecidableEq, Repr

/-- A core after reset (R157, R181, R238, R358). -/
def Core.reset : Core :=
  { modes := [], scratch := [], fifos := [], owner := [], unset := [], poison := [], tiles := [], tileQueue := [], sideLog := []
    rr := [], rrNext := [], chosen := none, late := false, allow := 256, temp := 0, bundleSeq := [], gated := false, halted := false }

/-- The mode of bank b at reset: 0 to 15 scratchpad, 16 to 27 cache, 28 to 31 FIFO (R181). -/
def resetMode (b : Nat) : Nat := if b < 16 then 1 else if b < 28 then 0 else 2

def Grove.reset : Grove := { staging := [], poison := [], rings := [], lastContext := 1, lastPlaced := none }

/-- The record this model takes where the spec leaves the value to the part (log entry 6). -/
def Record.chosen : Record :=
  { devnum := 0, mhz := 1900, clrLimit := 12, rsvbase := 1022, floor := 0, mode := 0, relayk := 0, timeout := 200000
    gating := true, minver := [0, 0, 0, 0], uses := List.replicate 34 .graph ++ [.spare, .spare]
    floors := [], modes := [], relayks := [], trim := [], image := [] }

def Die.reset : Die :=
  { cyc := 0, ncyc := 0, res := 0, mhz := 1900, relock := none, lastRelock := none, wanted := none, emergency := false, emergencyDue := false
    rest := 0 }

def Queue.reset : Queue := { base := 0, ctl := 0, tail := 0, head := 0, qown := 0, blocked := false }

def Port.reset : Port :=
  { pstate := 0, neigh := 0x7FF, lmask := 0, width := 0, nextWidth := none, floor := 0, retries := 0, relocks := 0
    drops := 0, txSeq := 0, rxSeq := 0, ackDue := false, nakDue := false, replay := [], out := [], starts := 0, band := 0
    bandSince := 0, widenAt := 0 }

def Pair.reset : Pair :=
  { alost := false, blost := false, active := 0, next := none, relayk := 0, mode := 0, losts := 0, bgated := false
    retraining := 0, recvSeq := [], tries := [], failed := [], marked := [], early := [] }

def Collective.reset : Collective :=
  { recAddr := 0, en := false, busy := false, err := false, unbind := false, asid := 0, runs := 0, slot := 0, sent := false, bad := false
    shards := [], fork := [], rankmap := [], pend := [], forks := 0 }

def Clearing.reset : Clearing :=
  { gen := 0, live := false, freeing := false, asid := 0, ranks := 0, ways := [], poison := false, mats := [], unset := none }

def Mat.zero : Mat := { rows := [], c := 0, t := 0 }

def RingSlot.empty : RingSlot := { expect := 0, arrived := 0, armed := false, status := 0, addr := 0, reported := false }

/-- An agent with every register zero: what placement starts from (R33), and what a key with no agent reads as. -/
def Agent.blank : Agent :=
  { kind := .team, state := .ready, savedFrom := .ready, inPlace := false, away := false, core := 0, grove := 0, slot := 0, coreNum := 0
    grid := 0, wg := 0, gridId := 0, wgid := 0, teamId := 0, role := 0, asid := 0, depth := 0, prio := 0, nlanes := 32
    strand := 32, allot := 0, stackBase := 0, stackSize := 0, pc := 0, sregs := [], vregs := [], mask := 0, stack := []
    spilled := [], spill := [], lahead := [], fstat := 0, qmax := 0, qsatn := 0, qnfn := 0, qctr := 0, trapCause := 0, trapPc := 0
    trapAddr := 0, priv := false, ppriv := false, kscr0 := 0, kscr1 := 0, kscr2 := 0, kscr3 := 0, stores := [], kept := [], keptSeq := 0
    closes := [], bundled := [], order := 0, storeAt := [], scratchOpen := [], phase := 0, seen := [], olderSeen := [], seenVer := [], lineVa := [], watch := [], overflow := 0, folded := [], arrivals := [], objects := [], sleepEnd := 0, wakePend := false, refused := 0
    parkPc := none, ringOn := none, ringGot := none, waiting := false, lastRef := 0, syncWait := false, reports := [], hold := .none, counted := false, yielded := false, passFor := [], lastObs := 0
    bound := 0, mxq := [], ticket := 0, mxErrors := [], mxDone := [], sideSeq := 0, matLoose := 0, heldLog := [], heldAccess := [], heldTiles := [], area := []
    lostLine := none }

/-- The device right after package reset, before its power-on event: no agent, nothing listed in memory, every register at
the value the spec gives, and elsewhere at the value the log names (log entries 5, 6, 7). -/
def State.reset : State :=
  { agenda := [], cur := 0, issued := false, freeCtr := 0, record := Record.chosen, flash := List.replicate 4 ⟨0, []⟩, reftime := 0, agents := [], cores := [], groves := []
    dies := [], mem := [], poison := [], held := [], covers := [], lineVer := [], refusals := [], lastStrong := [], strongSeq := 0, codeSeq := 0, codeWrites := [], codeGrids := [], guestArrivals := [], fullStores := [], orphans := [], goneUnits := [], savePool := []
    windowKeys := [], tlbs := [], asidCache := []
    shootdown := none, asidtab := 0, fqSticky := false, fqCount := 0, faults := [], queues := [], cmds := []
    nextOrder := 0, lastQueue := [], grids := [], nextChild := 0x80000000, wgs := [], reservation := none, reserved := [], reservedOver := []
    lastGrove := 63, pclass := 0, budget := 0, budgetSince := 0, clearings := [], clrLimit := 12, clrSel := 0
    quotas := [], control := [], entries := [], imageVersion := 0, standard := false, matCmds := [], sliceQueue := []
    bundles := [], versions := [], copies := [], traces := [], posted := [], tileSeq := 0, device := 0, routes := [none, none], current := none
    inbox := [], sent := [], sentSeq := 0, peers := [], directory := [], ports := [], multicasts := [], backlog := [], collectives := [], pairs := [], drams := []
    powered := false, bootStage := 0, bootFail := 0, digests := [], w2base := 0, w2ctl := 0x2000, nonce := [], go := false, report := []
    growth := [], wraps := 0, msix := [], vectors := [], softSince := [], dramTemps := [], rails := [], aer := false, hostRead := [], hostMem := [] }

end Sys2Proof.Machine
end

