-- ==== Sys2Proof/Machine/Geometry.lean ====
section
/-! DEFINITION. The geometry of copies (R206 to R210): the fields of a tensor descriptor, the tensor address of a box element,
and the bytes a copy reads and writes. -/

namespace Sys2Proof.Machine

/-- Fields of a tensor descriptor (R207). -/
def tdBase (d : List Byte) : Nat := sliceN d 0 8
def tdSize (d : List Byte) (k : Nat) : Nat := sliceN d (8 + 4 * k) 4
/-- The pitch of dimension k ≥ 1 in bytes. -/
def tdPitch (d : List Byte) (k : Nat) : Nat := 16 * sliceN d (28 + 4 * (k - 1)) 4
def tdBox (d : List Byte) (k : Nat) : Nat := sliceN d (44 + 2 * k) 2 + 1
def tdElem (d : List Byte) : Nat := 2 ^ (sliceN d 54 1 % 8)
def tdRank (d : List Byte) : Nat := sliceN d 55 1
def tdTrl (d : List Byte) : Bool := bitN (sliceN d 56 1) 0
def tdChk (d : List Byte) : Bool := bitN (sliceN d 56 1) 1
def tdSlot (d : List Byte) : Nat := fieldN (sliceN d 56 1) 2 3
/-- Box elements, and box bytes. -/
def tdCount (d : List Byte) : Nat := ((List.range (tdRank d)).map (tdBox d)).foldl (· * ·) 1
def tdBytes (d : List Byte) : Nat := tdCount d * tdElem d
/-- The offset of a trailer from the start of an image of n bytes. -/
def trailerOff (n : Nat) : Nat := alignUp n 16
/-- A trailer is written: made by TRL, or copied by CHK (R210). -/
def tdTrailer (d : List Byte) : Bool := tdTrl d || tdChk d
/-- Bytes the box takes, its trailer included. -/
def tdExtent (d : List Byte) : Nat := if tdTrailer d then trailerOff (tdBytes d) + 16 else tdBytes d

/-- The contents of a descriptor that trap with RESERVED_FIELD (R208). A choice of the model (log entry 71): a RANK of 6 to 255,
which R207 does not allow and R208 does not list, is one of them. -/
def tdBad (d : List Byte) : Bool :=
  decide (tdRank d = 0) || decide (5 < tdRank d) || decide (4 < sliceN d 54 1) || decide (2 ^ 24 < tdBytes d)
    || decide (2 ^ 50 ≤ tdBase d) || decide (8 ≤ sliceN d 56 1 / 4) || sliceN d 57 7 != 0
    || (List.range 5).any (fun k => decide (tdRank d ≤ k) && sliceN d (44 + 2 * k) 2 != 0)

/-- The flags' own condition (R208). -/
def tdFlagsBad (d : List Byte) : Bool := tdTrailer d && !(tdRank d == 1 && tdElem d == 1)

/-- The coordinates of box element e: dimension 0 fastest (R209). -/
def boxCoords (d : List Byte) : Nat → Nat → List Nat
  | 0, _ => []
  | n + 1, e =>
    let b := tdBox d (tdRank d - (n + 1))
    e % b :: boxCoords d n (e / b)

/-- The tensor address of a box element, when it lies inside the tensor (R209). -/
def tensorAddr (d : List Byte) (x : List Int) (e : Nat) : Option Nat :=
  let ts := ((boxCoords d (tdRank d) e).zipIdx).map (fun i => ((x[i.2]?).getD 0 + (i.1 : Int), i.2))
  if ts.all (fun t => decide (0 ≤ t.1) && decide (t.1 < (tdSize d t.2 : Int))) then
    some (ts.foldl (fun addr t => addr + t.1.toNat * (if t.2 = 0 then tdElem d else tdPitch d t.2)) (tdBase d))
  else none

/-- The highest tensor address that an inside element of the box reaches, if there is one (R208). -/
def tensorTop (d : List Byte) (x : List Int) : Option Nat :=
  let hi := (List.range (tdRank d)).map (fun k =>
    (k, min ((x[k]?).getD 0 + (tdBox d k : Int) - 1) ((tdSize d k : Int) - 1)))
  if hi.all (fun t => decide (max 0 ((x[t.1]?).getD 0) ≤ t.2)) then
    some (hi.foldl (fun addr t => addr + t.2.toNat * (if t.1 = 0 then tdElem d else tdPitch d t.1)) (tdBase d) + tdElem d - 1)
  else none

/-- The image and trailer on the tensor side lie inside the tensor (R210). -/
def imageBad (d : List Byte) (x : List Int) : Bool :=
  tdTrailer d && (decide ((x.headD 0) < 0) || decide ((tdSize d 0 : Int) < x.headD 0 + (trailerOff (tdBytes d) + 16 : Nat)))

/-- The tensor address of an element of the box covers an address (R205, overlap). -/
def inTensor (d : List Byte) (x : List Int) (va : Nat) : Bool :=
  (List.range (tdCount d)).any (fun e => match tensorAddr d x e with
    | some t => decide (t ≤ va) && decide (va < t + tdElem d)
    | none => false)

/-- The bytes that a copy reads and writes, byte for byte, as source and destination: each in a scratchpad or not, with its
address. Zeros that a tensor copy fills in, and a trailer that it makes, have no source. -/
def jobBytes : CopyJob → List (Option (Bool × Nat) × (Bool × Nat))
  | .lanes n dsp ssp ps => (ps.map (fun p => (List.range n).map (fun i => (some (ssp, p.2 + i), (dsp, p.1 + i))))).flatten
  | .tensor d x box sp out _ =>
    let e := tdElem d
    let inner := ((List.range (tdCount d)).map (fun k => (List.range e).map (fun j =>
      let t := (tensorAddr d x k).map (fun t => (false, t + j))
      if out then t.map (fun t => (some (sp, box + e * k + j), t)) else some (t, (sp, box + e * k + j))))).flatten
    let tail := if tdTrailer d then (List.range (tdExtent d - tdBytes d)).map (fun j =>
        let o := tdBytes d + j
        let t := (false, tdBase d + (x.headD 0).toNat + o)
        some (if out then (if tdTrl d then none else some (sp, box + o), t) else (if tdTrl d then none else some t, (sp, box + o)))) else []
    (inner ++ tail).filterMap id
  | .range dst src n => (List.range n).map (fun i => (some (false, src + i), (false, dst + i)))

end Sys2Proof.Machine
end

