-- ==== Sys2Proof/Machine/Link.lean ====
section
/-! DEFINITION. What the ports carry (R361 to R375): operations and frames as octets, the link layer of a port, the route
tables, and the choice of a frame's path. -/

namespace Sys2Proof.Machine

/-! ### Operations (R365) -/

/-- DLEN, and the octets it stands for. -/
def dlenOf (n : Nat) : Nat := if n = 0 then 0 else if n ≤ 8 then 1 else if n ≤ 64 then 2 else 3
def dlenOctets (d : Nat) : Nat := if d = 0 then 0 else if d = 1 then 8 else if d = 2 then 64 else 128

/-- The data of an operation, padded to its length. -/
def opData (o : FabOp) : List Byte :=
  o.data ++ List.replicate (dlenOctets (dlenOf o.data.length) - o.data.length) 0

def opOctets (o : FabOp) : List Byte :=
  [toBytes 1 (o.kind % 16 + 16 * dlenOf o.data.length + 64 * (o.key % 4)), toBytes 1 (o.asid / 256 % 32 + 32 * (o.flags % 8)),
   toBytesBE 2 o.tag, toBytesBE 5 o.addr, toBytes 1 o.asid, toBytesBE 6 o.arg, opData o].flatten

/-- The DLEN that a KIND allows. -/
def dlenAllowed (kind dlen flags : Nat) : Bool :=
  if kind = 1 || kind = 4 || kind = 7 then dlen == 0
  else if kind = 2 || kind = 8 then dlen == 3
  else if kind = 3 then dlen == 1 || dlen == 3
  else if kind = 5 then dlen != 2
  else if kind = 6 then dlen == (if bitN flags 0 then 2 else 3)
  else false

/-- The operations that octets hold, from a source in a class; none when they do not end exactly, or one is malformed. The
fuel is the number of octets. -/
def parseOps (src tc : Nat) : Nat → List Byte → Option (List FabOp)
  | _, [] => some []
  | 0, _ :: _ => none
  | n + 1, b :: bs =>
    let w := b :: bs
    let h := b.toNat
    let kind := fieldN h 0 4
    let dlen := fieldN h 4 2
    let fl := sliceN w 1 1
    let len := 16 + dlenOctets dlen
    if dlenAllowed kind dlen (fl / 32) && decide (len ≤ w.length) then
      let o : FabOp := { kind := kind, flags := fl / 32, key := fieldN h 6 2, asid := 256 * (fl % 32) + sliceN w 9 1
                         tag := ofBytesBE ((w.drop 2).take 2), addr := ofBytesBE ((w.drop 4).take 5)
                         arg := ofBytesBE ((w.drop 10).take 6), data := (w.drop 16).take (dlenOctets dlen), src := src, tc := tc }
      (parseOps src tc n (w.drop len)).map (o :: ·)
    else none

/-! ### Frames (R362 to R364) -/

/-- The forwarding header. -/
structure FrameHead where
  dest : Nat
  via : Nat
  tc : Nat
  mode : Nat
  hop : Bool
  src : Nat
  seq : Nat
  deriving DecidableEq, Repr

/-- The 48-bit value H, and its fields. -/
def headValue (h : FrameHead) : Nat :=
  h.dest * 2 ^ 37 + h.via * 2 ^ 26 + h.tc * 2 ^ 23 + h.mode * 2 ^ 21 + b2n h.hop * 2 ^ 20 + h.src * 2 ^ 9 + h.seq
def headOf (x : Nat) : FrameHead :=
  ⟨fieldN x 37 11, fieldN x 26 11, fieldN x 23 3, fieldN x 21 2, bitN x 20, fieldN x 9 11, fieldN x 0 9⟩

/-- The wire octets of H, rotated right by 21 bits, and back. -/
def headOctets (h : FrameHead) : List Byte := toBytes 6 ((headValue h) >>> 21 + (headValue h) % 2 ^ 21 * 2 ^ 27)
def readHead (bs : List Byte) : FrameHead :=
  let x := sliceN bs 0 6
  headOf (x / 2 ^ 27 + x % 2 ^ 27 * 2 ^ 21)

/-- A header that R364 allows. -/
def headOk (h : FrameHead) : Bool :=
  let mgmt := h.dest == 0x7FF && h.via == 0x7FF && !h.hop
  if h.mode = 3 then h.via == h.src && !h.hop && h.tc != 7
  else if h.mode = 2 then
    if h.dest = 0x7FF then mgmt
    else decide (h.dest ≤ 1057) && h.tc != 7 && (h.via != h.dest || !h.hop)
  else false

/-- One octet of the CRC-32 of IEEE 802.3, least significant bit first. -/
def fcsBit (c : Nat) : Nat := if c % 2 = 1 then (c / 2) ^^^ 0xEDB88320 else c / 2
def fcsOctet (c : Nat) (b : Byte) : Nat :=
  (List.range 8).foldl (fun x _ => fcsBit x) (c ^^^ b.toNat)
def crcIeee (bs : List Byte) : Nat := (bs.foldl fcsOctet 0xFFFFFFFF) ^^^ 0xFFFFFFFF

/-- A frame before its SEQ, LINK and FCS: header, EtherType, LINK of zero, PLEN, operations, pad. -/
def rawFrame (h : FrameHead) (ops : List Byte) : List Byte :=
  [headOctets h, [0x88, 0xB5], [0, 0], toBytesBE 2 ops.length, ops, List.replicate (48 - ops.length) 0].flatten

/-- The frame as it is sent, with its SEQ, its LINK and its FCS. -/
def sealFrame (raw : List Byte) (seq link : Nat) : List Byte :=
  let body := [headOctets { readHead raw with seq := seq }, (raw.drop 6).take 2, toBytesBE 2 link, raw.drop 10].flatten
  body ++ toBytes 4 (crcIeee body)

/-- Octets of a received frame. -/
def frameLink (bs : List Byte) : Nat := ofBytesBE ((bs.drop 8).take 2)
def framePlen (bs : List Byte) : Nat := ofBytesBE ((bs.drop 10).take 2)
def frameOps (bs : List Byte) : List Byte := (bs.drop 12).take (framePlen bs)
/-- The FCS is right. -/
def fcsOk (bs : List Byte) : Bool :=
  decide (16 ≤ bs.length) && sliceN bs (bs.length - 4) 4 == crcIeee (bs.take (bs.length - 4))
/-- The operations of a frame that R362 and R364 accept. A management frame's octets are of no form that the spec gives, and any are
accepted (log entry 74). -/
def frameParse (bs : List Byte) : Option (List FabOp) :=
  let h := readHead bs
  if sliceN bs 6 2 = 0xB588 && decide (framePlen bs ≤ 4096) && decide (framePlen bs + 16 ≤ bs.length) && headOk h then
    (if h.mode = 2 && h.dest = 0x7FF then some [] else parseOps h.src h.tc (framePlen bs) (frameOps bs))
  else none

/-! ### The ports (R367 to R369) -/

def State.port (s : State) (p : Nat) : Port := Tab.get s.ports p { Port.reset with floor := Tab.get s.record.floors p s.record.floor }
/-- The octets of a queued frame: a branch's stand in the stored multicast frame (R375). -/
def frameRaw (s : State) (f : OutFrame) : List Byte :=
  match f.multi with
  | some m => ((Tab.find s.multicasts m).map Multicast.raw).getD []
  | none => f.raw
/-- Octets queued for a port, and which of R368's bounds they lie beyond. -/
def queuedOctets (s : State) (x : Port) : Nat := (x.out.map (fun f => (frameRaw s f).length)).sum
def bandOf (s : State) (x : Port) : Nat := if queuedOctets s x < 8192 then 0 else if 65536 < queuedOctets s x then 2 else 1
def State.setPort (s : State) (p : Nat) (x : Port) : State :=
  let x := if bandOf s x == x.band then x else { x with band := bandOf s x, bandSince := s.reftime }
  { s with ports := Tab.put s.ports p x }

/-! ### Queues and pools (R366, R374, R375) -/

/-- The octets of one buffer pool, and what it holds: queued frames, multicast frames stored until their last branch has been
acknowledged, and in the local pool the operations delivered to this device (R374). -/
def poolOctets : Nat := 24 * 2 ^ 20
def poolUsed (s : State) (own : Bool) : Nat :=
  (s.ports.map (fun e => ((e.2.out.filter (fun f => f.own == own && f.multi.isNone)).map (fun f => f.raw.length)).sum)).sum
    + ((s.multicasts.filter (fun e => e.2.own == own)).map (fun e => e.2.raw.length)).sum
    + (if own then (s.inbox.map (fun o => 16 + o.data.length)).sum else 0)

/-- A branch of a stored multicast frame is over; after the last the frame goes (R375). -/
def dropBranch (s : State) (m : Option Nat) : State :=
  match m.bind (fun k => (Tab.find s.multicasts k).map (fun x => (k, x))) with
  | none => s
  | some (k, x) =>
    { s with multicasts := if x.branches ≤ 1 then Tab.erase s.multicasts k else Tab.put s.multicasts k { x with branches := x.branches - 1 } }
def dropBranches (s : State) (ms : List (Option Nat)) : State := ms.foldl dropBranch s

/-- LINK of the next frame sent: the last frame accepted, or NAK with the SEQ expected (R362, R367). -/
def Port.link (x : Port) : Nat :=
  if x.nakDue then x.rxSeq * 128 + 96
  else if x.ackDue then ((x.rxSeq + 511) % 512) * 128 + 64
  else 0

/-- A frame leaves with the next SEQ and stays in the replay buffer. -/
def sendRaw (now : Nat) (x : Port) (f : OutFrame) (raw : List Byte) : Port :=
  { x with replay := x.replay ++ [⟨sealFrame raw x.txSeq x.link, now, f.stage, f.own, f.multi⟩], txSeq := (x.txSeq + 1) % 512
           ackDue := false, nakDue := false, starts := (x.starts + 1) % 8 }

/-- The virtual output queue of a frame: its destination device, or its multicast group, and its class (R374). -/
def voqOf (raw : List Byte) : Bool × Nat × Nat := ((readHead raw).mode == 3, (readHead raw).dest, (readHead raw).tc)

/-- The frames at the head of a port's virtual output queues, the oldest first. -/
def queueHeads (s : State) (x : Port) : List OutFrame :=
  (x.out.foldl (fun (r : List (Bool × Nat × Nat) × List OutFrame) f =>
    let q := voqOf (frameRaw s f)
    if r.1.contains q then r else (r.1 ++ [q], r.2 ++ [f])) ([], [])).2

/-- A frame's class has credit at its hop stage: fewer frames of both are on the link, not acknowledged, than the buffers at its
other end hold, which is the part's (R366; log entry 74). -/
def hasCredit (s : State) (x : Port) (f : OutFrame) : Bool :=
  let tc := (readHead (frameRaw s f)).tc
  decide ((x.replay.filter (fun e => (readHead e.octets).tc == tc && e.stage == f.stage)).length ≤ (Config.linkCredits tc f.stage).toNat)

/-- The frame that a port sends next: one start in eight is for class 0. Of the heads of the virtual output queues that have
credit the model takes the oldest (R366, R374; log entry 74). -/
def nextOut (s : State) (x : Port) : Option OutFrame :=
  let heads := (queueHeads s x).filter (hasCredit s x)
  match (if x.starts = 0 then heads.find? (fun f => (readHead (frameRaw s f)).tc == 0) else none) with
  | some f => some f
  | none => heads.head?

/-- One frame leaves a port that is not down, while the replay buffer of 256 has room; in training only management frames come to be
queued (R367, R380, R381). -/
def pumpOne (s : State) (p : Nat) : State :=
  let x := s.port p
  if x.pstate = 0 || 256 ≤ x.replay.length then s
  else match nextOut s x with
    | none => s
    | some f => s.setPort p (sendRaw s.reftime { x with out := x.out.erase f } f (frameRaw s f))

def pumpPort (s : State) (p : Nat) : State := (List.range (s.port p).out.length).foldl (fun s _ => pumpOne s p) s

/-- Frames of this device wait, in their order, while the local pool is full; a full local pool stops no other frame (R374). -/
def admitFrames (s : State) : List (Nat × OutFrame) → State
  | [] => { s with backlog := [] }
  | e :: es =>
    if poolUsed s true + e.2.raw.length ≤ poolOctets then
      admitFrames (pumpPort (s.setPort e.1 { s.port e.1 with out := (s.port e.1).out ++ [e.2] }) e.1) es
    else { s with backlog := e :: es }

/-- A frame is queued for a port (R374). -/
def queueFrame (s : State) (p : Nat) (f : OutFrame) : State :=
  if f.own && f.multi.isNone then admitFrames s (s.backlog ++ [(p, f)])
  else pumpPort (s.setPort p { s.port p with out := (s.port p).out ++ [f] }) p

/-- The link of a port has room again. -/
def refillPort (s : State) (p : Nat) : State := let s := pumpPort s p; admitFrames s s.backlog

/-! ### Route tables and paths (R371 to R373) -/

/-- The image of the current generation. -/
def currentImage (s : State) : Option (List Byte) := s.current.bind (fun g => (s.routes[g]?).getD none)

/-- The unicast entry of a device in the current generation, zero when there is none. -/
def routeEntry (s : State) (dest : Nat) : Nat :=
  match currentImage s with
  | none => 0
  | some img => if dest < sliceN img 4 2 then sliceN img (64 + 8 * dest) 8 else 0

/-- The multicast entry of a group. -/
def groupEntry (s : State) (g : Nat) : Nat :=
  match currentImage s with
  | none => 0
  | some img => sliceN img (64 + 8 * sliceN img 4 2 + 8 * g) 8

/-- The device can be reached: itself, or with a valid entry. -/
def reachable (s : State) (dest : Nat) : Bool := dest == s.device || bitN (routeEntry s dest) 63

def minPort (s : State) (dest : Nat) : Nat := fieldN (routeEntry s dest) 44 6
def portUp (s : State) (p : Nat) : Bool := decide (p < 36) && (s.port p).pstate == 2

/-- The intermediates of a destination, in order, with their first ports. -/
def intermediates (s : State) (dest : Nat) : List (Nat × Nat) :=
  ((List.range 4).map (fun k => fieldN (routeEntry s dest) (11 * k) 11)).filterMap (fun d =>
    if bitN (routeEntry s d) 63 && d != dest && d != s.device then some (d, minPort s d) else none)

/-- The first of the intermediates whose first port is least occupied. -/
def leastBusy (s : State) : List (Nat × Nat) → Option (Nat × Nat)
  | [] => none
  | x :: xs =>
    match leastBusy s xs with
    | none => some x
    | some y => if queuedOctets s (s.port x.2) ≤ queuedOctets s (s.port y.2) then some x else some y

/-- The path a frame takes from here: VIA and the port (R371). -/
def choosePath (s : State) (dest tc : Nat) : Nat × Nat :=
  let p := minPort s dest
  let up := (intermediates s dest).filter (fun x => portUp s x.2)
  if !portUp s p then
    match up with
    | [] => (dest, p)
    | x :: _ => x
  else if tc = 0 || tc = 4 || tc = 5 || tc = 7 then (dest, p)
  else match leastBusy s up with
    | none => (dest, p)
    | some x => if queuedOctets s (s.port p) ≤ 2 * queuedOctets s (s.port x.2) + 8192 then (dest, p) else x

/-- A frame of operations goes to a device along a path. A port that is not up takes no new frame: it is lost, and its request
goes unanswered (R372, R380). -/
def sendAlong (s : State) (dest tc : Nat) (path : Nat × Nat) (ops : List FabOp) : State :=
  if !portUp s path.2 then s
  else queueFrame s path.2 ⟨rawFrame ⟨dest, path.1, tc, 2, false, s.device, 0⟩ (ops.map opOctets).flatten, 0, true, none⟩

/-- A management frame, for the next device only: its octets the spec leaves open (R364, R366). -/
def sendManagement (s : State) (p kind value : Nat) : State :=
  queueFrame s p ⟨rawFrame ⟨0x7FF, 0x7FF, 7, 2, false, s.device, 0⟩ (toBytes 16 (Config.managementOctets kind value).toNat), 0, true, none⟩

/-! ### The key of a location (R315, R365) -/

/-- The ASID table entry of an address space, cached or in memory (R314). -/
def asidEntry (s : State) (asid : Nat) : List Byte :=
  (Tab.find s.asidCache asid).getD (s.mem.readBytes (s.asidtab.toNat + 64 * asid) 64)

/-- The valid entries of a table of n at an address, by index: of those that memory lists. -/
def tableEntries (s : State) (base n : Nat) : List Nat :=
  (((s.mem.filter (fun c => decide (base ≤ c.1) && decide (c.1 < base + 8 * n))).map (fun c =>
    s.mem.readNat ((base + (c.1 - base) / 8 * 8)) 8)).dedup).filter (bitN · 0)

/-- The page entries of a list, with their page size, and the pointers, as entries. -/
def pagesIn (es : List Nat) (size : Nat) : List (Nat × Nat) := (es.filter (bitN · 1)).map (fun e => (e, size))
def pointersIn (es : List Nat) : List Nat := es.filter (fun e => !bitN e 1)
def entryBase (e : Nat) : Nat := fieldN e 10 38 * 1024

/-- The page entries of an address space, with their sizes. -/
def pagesOf (s : State) (asid : Nat) : List (Nat × Nat) :=
  let top := tableEntries s (sliceN (asidEntry s asid) 0 8) 32768
  let mids := (pointersIn top).map (fun e => tableEntries s (entryBase e) 4096)
  let leaves := (mids.flatten.filter (fun e => !bitN e 1)).map (fun e =>
    if bitN e 2 then pagesIn (tableEntries s (entryBase e) 128) (2 ^ 16) else pagesIn (tableEntries s (entryBase e) 2048) (2 ^ 12))
  [pagesIn top (2 ^ 35), pagesIn mids.flatten (2 ^ 23), leaves.flatten].flatten

/-- The key select of a location in an address space: that of a page that maps it there (R365; log entry 30). -/
def keyOf (s : State) (asid dest addr : Nat) : Nat :=
  ((pagesOf s asid).find? (fun p => fieldN p.1 52 11 == dest && decide (entryBase p.1 ≤ addr) && decide (addr < entryBase p.1 + p.2))).elim 0
    (fun p => fieldN p.1 50 2)

/-! ### Requests and replies -/

/-- The path of a new request, where one is given: that of an unanswered one of its class to its granule; none while such a one
was sent before the current table, or through a port that is up no longer, or itself waits and was issued before (R371, R380,
R383). -/
def pathFor (s : State) (tag dest tc addr : Nat) : Option (Nat × Nat) :=
  let granule := s.sent.filter (fun e => e.1 != tag && e.2.dest == dest && e.2.op.tc == tc && e.2.op.addr / 256 == addr / 256)
  let same := granule.filter (fun e => e.2.path.isSome)
  let mine := ((Tab.find s.sent tag).map Sent.seq).getD s.sentSeq
  if same.any (fun e => e.2.old) || granule.any (fun e => e.2.path.isNone && decide (e.2.seq < mine)) then none
  else match same with
    | e :: _ => e.2.path.filter (fun x => portUp s x.2)
    | [] => some (choosePath s dest tc)

/-- A request that has no path yet takes one and is sent, when it may. -/
def trySend (s : State) (tag : Nat) : State :=
  match Tab.find s.sent tag with
  | none => s
  | some x =>
    if x.path.isSome then s
    else match pathFor s tag x.dest x.op.tc x.op.addr with
      | none => s
      | some path => sendAlong { s with sent := Tab.put s.sent tag { x with path := some path } } x.dest x.op.tc path (x.op :: x.more)

/-- The agent whose request it is. -/
def sentAgent : SentFor → Option Nat
  | .load k _ _ _ => some k
  | .atomic k _ _ _ => some k
  | .atomicSum k _ _ _ => some k
  | .red k _ => some k
  | .issue k => some k
  | .object k _ => some k
  | .place k => some k
  | .query k _ => some k
  | _ => none

/-- The class of a request: of the memory requests, those of agents of class 0 go in class 0, those of copies and clearings in
class 3 (R366). -/
def sentClass (s : State) (tc : Nat) (why : SentFor) : Nat :=
  if tc != 1 then tc
  else match why with
    | .copyRead _ => 3
    | .mat _ => 3
    | why => if ((sentAgent why).bind (Tab.find s.agents)).any (fun a => a.prio == 0) then 0 else 1

/-- Send operations of one request in one frame; it is answered within the timeout or times out (R372). -/
def sendOps (s : State) (dest : Nat) (op : FabOp) (more : List FabOp) (why : SentFor) : State :=
  let tag := Tab.freshKey s.sent 0
  let keyed := fun (o : FabOp) => [1, 2, 3, 6].contains o.kind
  let mark := fun (o : FabOp) =>
    { o with tag := tag, src := s.device, tc := sentClass s op.tc why, key := if keyed o then keyOf s o.asid dest o.addr else 0 }
  trySend { s with sent := Tab.put s.sent tag ⟨mark op, more.map mark, dest, why, s.reftime + s.record.timeout, none, false, s.sentSeq, []⟩
                   sentSeq := s.sentSeq + 1 } tag

def sendOp (s : State) (dest : Nat) (op : FabOp) (why : SentFor) : State := sendOps s dest op [] why

/-- An operation that addresses no granule goes along a path that is chosen for it (R371, R387). -/
def sendVia (s : State) (dest : Nat) (path : Nat × Nat) (op : FabOp) (why : SentFor) : State :=
  let tag := Tab.freshKey s.sent 0
  let op := { op with tag := tag, src := s.device }
  let x : Sent := ⟨op, [], dest, why, s.reftime + s.record.timeout, some path, false, s.sentSeq, []⟩
  sendAlong { s with sent := Tab.put s.sent tag x, sentSeq := s.sentSeq + 1 } dest op.tc path [op]

/-- The lowest multicast group of the current table whose branches are the ports of a coarse vector, 34 and 35 counted as 0 and 1
(R372, R377). -/
def groupFor (s : State) (mask : Nat) : Option Nat :=
  (List.range 2048).find? (fun g => bitN (groupEntry s g) 63 && (fieldN (groupEntry s g) 0 34 ||| fieldN (groupEntry s g) 34 2) == mask)

/-- A frame of one operation is stored and queued once for each branch of a group whose port is up (R375). -/
def sendGroup (s : State) (g tc : Nat) (op : FabOp) : State :=
  let ports := (List.range 36).filter (fun p => bitN (groupEntry s g) p && portUp s p)
  let m := (s.multicasts.getLast?).elim 0 (fun e => e.1 + 1)
  let raw := rawFrame ⟨g, s.device, tc, 3, false, s.device, 0⟩ (opOctets op)
  if ports.isEmpty then s
  else ports.foldl (fun s p => queueFrame s p ⟨[], 0, true, some m⟩) { s with multicasts := Tab.put s.multicasts m ⟨raw, ports.length, true⟩ }

/-- A request sent to all devices behind a coarse vector by one multicast: each of them answers it (R377). -/
def sendToAll (s : State) (g : Nat) (devs : List Nat) (op : FabOp) (why : SentFor) : State :=
  let tag := Tab.freshKey s.sent 0
  let op := { op with tag := tag, src := s.device }
  let x : Sent := ⟨op, [], s.device, why, s.reftime + s.record.timeout, some (s.device, 0), false, s.sentSeq, devs⟩
  sendGroup { s with sent := Tab.put s.sent tag x, sentSeq := s.sentSeq + 1 } g op.tc op

/-- A list with one more element, in the order of a measure. -/
def insertBy {α : Type} (f : α → Nat) (x : α) : List α → List α
  | [] => [x]
  | y :: ys => if f x < f y then x :: y :: ys else y :: insertBy f x ys
def sortBy {α : Type} (f : α → Nat) (xs : List α) : List α := xs.foldl (fun l x => insertBy f x l) []

/-- A request is no longer outstanding: those that waited for it are sent, in the order of their issue (R371). -/
def dropSent (s : State) (tag : Nat) : State :=
  let s := { s with sent := Tab.erase s.sent tag }
  (sortBy (fun e => e.2.seq) (s.sent.filter (fun e => e.2.path.isNone))).foldl (fun s e => trySend s e.1) s

/-- An acknowledge of a request: its tag, status, and data, in the class of replies to the request's (R365, R366). -/
def replyTo (s : State) (o : FabOp) (status : Nat) (data : List Byte) : State :=
  let tc := if o.tc = 1 then 2 else o.tc
  let r : FabOp := { kind := 5, flags := 0, key := if data.isEmpty then 0 else o.key, asid := o.asid, tag := o.tag, addr := o.addr
                     arg := status * 2 ^ 40, data := data, src := s.device, tc := tc }
  if reachable s o.src then sendAlong s o.src tc (choosePath s o.src tc) [r] else s

end Sys2Proof.Machine
end

