-- ==== Sys2Proof/Machine/Operands.lean ====
section
/-! DEFINITION. Operands: registers by their numbers, groups of registers, guards, the lanes an instruction acts on, and the
one operation that writes a destination (R24, R25, R32, R55 to R58). -/

namespace Sys2Proof.Machine

/-- Uniform register n: s62 reads as zero, s63 as all ones (R56). -/
def sGet (a : Agent) (n : Nat) : Word :=
  if n = 62 then 0 else if n = 63 then 0xFFFFFFFF else Tab.get a.sregs n 0

/-- Write uniform register n; writes of s62 and s63 are ignored (R56). -/
def sPut (a : Agent) (n : Nat) (x : Word) : Agent :=
  if n = 62 then a else if n = 63 then a else { a with sregs := Tab.put a.sregs n x }

/-- Vector register n of lane l. -/
def vGet (a : Agent) (n l : Nat) : Word := (Tab.get a.vregs n []).getD l 0

/-- Write vector register n in the lanes for which `f` gives a value. -/
def vPut (a : Agent) (n : Nat) (f : Nat → Option Word) : Agent :=
  { a with vregs := Tab.put a.vregs n ((List.range a.nlanes).map (fun l => (f l).getD (vGet a n l))) }

/-- Register number r of the space of R56, for lane l. -/
def regGet (a : Agent) (r l : Nat) : Word := if r < 192 then vGet a r l else sGet a (r - 192)

/-- Write register r in the lanes for which `f` gives a value; an s register takes the value for lane 0. -/
def regPut (a : Agent) (r : Nat) (f : Nat → Option Word) : Agent :=
  if r < 192 then vPut a r f
  else match f 0 with
    | none => a
    | some x => sPut a (r - 192) x

/-- The value of n registers from r on, low half first (R32, R189). -/
def rdN (a : Agent) (r : Nat) : Nat → Nat → Nat
  | 0, _ => 0
  | n + 1, l => (regGet a r l).toNat + 2 ^ 32 * rdN a (r + 1) n l

/-- Write n registers from r on with 32·n-bit values, low bits in the lowest register. -/
def wrN (a : Agent) (r : Nat) : Nat → (Nat → Option Nat) → Agent
  | 0, _ => a
  | n + 1, f =>
    wrN (regPut a r (fun l => (f l).map (BitVec.ofNat 32))) (r + 1) n (fun l => (f l).map (· / 2 ^ 32))

/-- A register field read as one register. -/
def rd1 (a : Agent) (r : Reg) (l : Nat) : Nat := (regGet a r.toNat l).toNat

/-- The value of a guard in a lane (R51, R58). -/
def guardVal (a : Agent) (g : Guard) (l : Nat) : Bool :=
  xor g.neg ((regGet a g.reg.toNat l).getLsbD g.bit.toNat)

/-- The guard of an instruction in a lane (R51, R55). A P pair has none of its own. -/
def guardTrue (a : Agent) (sh : Shape) (l : Nat) : Bool :=
  match sh with
  | .f _ x => guardVal a x.g l
  | .l _ x => if x.orGuards then guardVal a x.g1 l || guardVal a x.g2 l else guardVal a x.g1 l && guardVal a x.g2 l
  | .p _ => true
  | .event => true

/-- The operands of an instruction (R68); none for an event or a P pair. -/
def opndsOf (i : Instr) : List Opnd := ((rowOf i).map OpRow.opnds).getD []

/-- An instruction all of whose operands are s registers, or that names none (R25). -/
def uniformOf (i : Instr) : Bool := opndsUniform (opndsOf i)

/-- Whether an instruction acts in a lane (R25); a uniform one acts once, as in lane 0, whatever the mask. -/
def actsIn (a : Agent) (i : Instr) (l : Nat) : Bool :=
  (uniformOf i || a.mask.getLsbD l) && guardTrue a (shapeOf i) l

/-- The lanes an instruction acts on, ascending; lane 0 alone when it is uniform and its guard holds. -/
def actLanes (a : Agent) (i : Instr) : List Nat :=
  if uniformOf i then (if guardTrue a (shapeOf i) 0 then [0] else [])
  else (List.range a.nlanes).filter (actsIn a i)

/-- The guard of an instruction whose guard is an s-register bit. -/
def guardOn (a : Agent) (i : Instr) : Bool := guardTrue a (shapeOf i) 0

/-- The b operand of an F word: the sign-extended immediate, or n registers (R52). -/
def bVal (a : Agent) (f : FArgs) (n l : Nat) : Nat :=
  if f.imm then wrapN (32 * n) f.b.toInt else rdN a f.b.toNat n l

/-- Write the destination of an instruction in the lanes it acts on. -/
def wrLanes (a : Agent) (i : Instr) (d : Reg) (n : Nat) (f : Nat → Nat) : Agent :=
  wrN a d.toNat n (fun l => if actsIn a i l then some (f l) else none)

/-- The OR of per-lane flag words over the lanes an instruction acts on. -/
def orLanes (ls : List Nat) (f : Nat → Word) : Word := ls.foldl (fun w l => w ||| f l) 0

/-- Write a destination and OR the lanes' sticky flags into FSTAT (R85). -/
def wrFlags (a : Agent) (i : Instr) (d : Reg) (n : Nat) (f : Nat → Nat × Word) : Agent :=
  let a' := wrLanes a i d n (fun l => (f l).1)
  { a' with fstat := a'.fstat ||| orLanes (actLanes a i) (fun l => (f l).2) }

/-- The quick guard of a slot (R63). -/
def quickGuard (a : Agent) (q : BitVec 4) : Bool :=
  q == 0 || xor (q.getLsbD 3) ((sGet a 61).getLsbD (q.toNat % 8))

/-- A slot acts once when it names only s registers, else in each lane of the mask (R65). -/
def slotActs (a : Agent) (p : PSlot) (l : Nat) : Bool :=
  quickGuard a p.q && (isS p.d && (slotReads p).all isS || a.mask.getLsbD l)

/-- The lanes in which a slot acts. -/
def slotLanes (a : Agent) (p : PSlot) : List Nat :=
  if isS p.d && (slotReads p).all isS then (if quickGuard a p.q then [0] else [])
  else (List.range a.nlanes).filter (slotActs a p)

/-- The registers an instruction reads and writes, for windows (R40): numbers, with those a P pair names. -/
def regSpan (o : Opnd) : List Nat := (List.range o.n).map (fun k => o.reg.toNat + k)
def readsOf (i : Instr) : List Nat :=
  match i with
  | .pPair p => (slotReads p.s0 ++ slotReads p.s1).map (·.toNat) ++ (if p.s0.q != 0 || p.s1.q != 0 then [0xFD] else [])
  | _ => (((opndsOf i).filter (·.rd)).map regSpan).flatten ++ ((shapeOf i).guards.map (fun g => g.reg.toNat))
def writesOf (i : Instr) : List Nat :=
  match i with
  | .pPair p => [p.s0.d.toNat, p.s1.d.toNat]
  | _ => (((opndsOf i).filter (·.wr)).map regSpan).flatten

/-- A v register of the instruction lies at or beyond the allotment (R32, R72, R79), guards included. -/
def beyondAllotment (a : Agent) (i : Instr) : Bool :=
  match i with
  | .pPair p =>
    ([p.s0.d, p.s1.d] ++ slotReads p.s0 ++ slotReads p.s1).any (fun r => isV r && decide (a.allot ≤ r.toNat))
  | _ =>
    ((opndsOf i).any (fun o => isV o.reg && decide (a.allot < o.reg.toNat + o.n)))
      || (shapeOf i).guards.any (fun g => isV g.reg && decide (a.allot ≤ g.reg.toNat))

/-- A v register is named, which no forester program may do (R72, R79). -/
def namesV (i : Instr) : Bool :=
  match i with
  | .pPair p => ([p.s0.d, p.s1.d] ++ slotReads p.s0 ++ slotReads p.s1).any isV
  | _ => (opndsOf i).any (fun o => isV o.reg) || (shapeOf i).guards.any (fun g => isV g.reg)

/-- An s destination of a cross-lane instruction in a team of several strands (R57, R108). -/
def strandBroken (a : Agent) (i : Instr) : Bool :=
  match rowOf i with
  | none => false
  | some r => r.sDst == .singleStrand && decide (a.strand < a.nlanes)
      && r.opnds.any (fun o => o.wr && isS o.reg)

/-- The trap a word earns before any operand is read, in the order of R73. -/
def staticTrap (a : Agent) (i : Instr) : Option Cause :=
  let forester := a.kind == .forester
  let runs := ((rowOf i).map OpRow.runs).getD .both
  if (forester && runs == .team) || (!forester && runs == .forester) || (forester && namesV i) then some .illegalOpcode
  else if forester && (match i with | .pPair _ => true | _ => false) then some .illegalFrame
  else if ((rowOf i).map OpRow.priv).getD false && !a.priv then some .privilege
  else if !fieldRules i || beyondAllotment a i || strandBroken a i then some .reservedField
  else match i with
    | .pPair p => if pairOk p then none else some .pairConflict
    | _ => none

end Sys2Proof.Machine
end

