-- ==== Sys2Proof/Machine/Ops.lean ====
section
/-! DEFINITION. The named operations over the state: agents, free values, traps, translation, memory as an agent sees it,
closes and opens, strong accesses, and the shared course of an instruction's issue. -/

namespace Sys2Proof.Machine

/-! ### Access to the parts of the state -/

def State.agent (s : State) (k : Nat) : Agent := Tab.get s.agents k Agent.blank
def State.setAgent (s : State) (k : Nat) (a : Agent) : State := { s with agents := Tab.put s.agents k a }
/-- The agent that is issuing. -/
def State.me (s : State) : Agent := s.agent s.cur
def State.setMe (s : State) (a : Agent) : State := s.setAgent s.cur a
/-- The agent chosen in this turn has issued (R44). -/
def State.marked (s : State) : State := { s with issued := true }
/-- An agent that was chosen and did not issue. -/
def Agent.unchosen (a : Agent) : Agent := { a with state := if a.state == .run then .ready else a.state }
/-- An agent whose instruction does not issue yet, and holds it unchosen (R334). -/
def Agent.heldBack (a : Agent) : Agent := { a.unchosen with waiting := true }
/-- A change of an agent, if there is one of the key. -/
def State.modAgent (s : State) (k : Nat) (f : Agent → Agent) : State :=
  match Tab.find s.agents k with
  | none => s
  | some a => s.setAgent k (f a)
def State.core (s : State) (c : Nat) : Core := Tab.get s.cores c Core.reset
def State.setCore (s : State) (c : Nat) (x : Core) : State := { s with cores := Tab.put s.cores c x }
def State.grove (s : State) (g : Nat) : Grove := Tab.get s.groves g Grove.reset
def State.setGrove (s : State) (g : Nat) (x : Grove) : State := { s with groves := Tab.put s.groves g x }
def State.die (s : State) (d : Nat) : Die := Tab.get s.dies d { Die.reset with mhz := s.record.mhz }
def State.setDie (s : State) (d : Nat) (x : Die) : State := { s with dies := Tab.put s.dies d x }
/-- The die of an agent (R2): a core's, or a grove's. -/
def Agent.die (a : Agent) : Nat := a.grove / 8
/-- A die's clock stands still, and nothing crosses to or from it (R351, R356). -/
def dieStopped (s : State) (d : Nat) : Bool := (s.die d).relock.isSome
/-- The mode of a bank: 0 cache, 1 scratchpad, 2 FIFO (R181). -/
def Core.mode (c : Core) (b : Nat) : Nat := Tab.get c.modes b (resetMode b)

/-- Keys of the agents for which a test holds. -/
def State.agentsWhere (s : State) (p : Nat → Agent → Bool) : List Nat := (s.agents.filter (fun e => p e.1 e.2)).map (·.1)

/-! ### Indeterminate values (R9) -/

/-- The k-th free value from the counter on. -/
def State.free (s : State) (k : Nat) : Nat := (Config.freeValue (s.freeCtr + k)).toNat
/-- Advance the counter past n free values. -/
def State.used (s : State) (n : Nat) : State := { s with freeCtr := s.freeCtr + n }

/-- A register takes free values in the lanes of a mask (lane 0 for an s register). -/
def scrambleReg (s : State) (k r : Nat) (m : Mask) : State :=
  (s.setAgent k (regPut (s.agent k) r (fun l =>
    if r ≥ 192 || m.getLsbD l then some (BitVec.ofNat 32 (s.free l)) else none))).used 1024

def scrambleRegs (s : State) (k : Nat) (rs : List Nat) (m : Mask) : State := rs.foldl (fun s r => scrambleReg s k r m) s

/-- The mask of a list of lanes. -/
def lanesMask (ls : List Nat) : Mask := ls.foldl (fun m l => m ||| BitVec.twoPow 1024 l) 0

/-! ### Trap causes (R74) -/

def causeCode : Cause → Nat
  | .illegalOpcode => 0x01 | .illegalFrame => 0x02 | .reservedField => 0x03 | .pairConflict => 0x04 | .privilege => 0x05
  | .misaligned => 0x06 | .pageNotPresent => 0x07 | .pagePermission => 0x08 | .tileIntegrity => 0x09
  | .lookaheadViolation => 0x0A | .mixedSize => 0x0B | .memUncorrectable => 0x0C | .clearingFault => 0x0D
  | .stackOverflow => 0x0E | .softwareTrap => 0x0F | .breakpoint => 0x10 | .formatSlot => 0x11 | .bundleLimit => 0x12
  | .nestDepth => 0x13 | .watchdog => 0x14 | .fabricUnreachable => 0x15 | .bankMode => 0x16

/-- The cause a recorded status code names (R214, R283). -/
def causeOfCode (n : Nat) : Cause :=
  if n = 0x09 then .tileIntegrity else if n = 0x0C then .memUncorrectable else if n = 0x0D then .clearingFault
  else if n = 0x14 then .watchdog else if n = 0x15 then .fabricUnreachable else .pageNotPresent

/-! ### The growth-ring record and interrupts -/

/-- Enter an event (R395): 65,536 entries, the oldest overwritten and counted. -/
def logEvent (s : State) (code source asid : Nat) (detail : List Byte) : State :=
  let e : RingEvent := ⟨s.reftime, s.device, code, source, asid, detail⟩
  if s.growth.length < 65536 then { s with growth := s.growth ++ [e] }
  else { s with growth := s.growth.drop 1 ++ [e], wraps := s.wraps + 1 }

/-- Raise an MSI-X vector (R388). -/
def raiseMsix (s : State) (v : Nat) : State := { s with msix := s.msix ++ [v] }

/-! ### Address spaces and translation (R313 to R317) -/

def asidValid (s : State) (asid : Nat) : Bool := bitN (sliceN (asidEntry s asid) 40 4) 0
def asidKpriv (s : State) (asid : Nat) : Bool := bitN (sliceN (asidEntry s asid) 40 4) 1
def asidLachk (s : State) (asid : Nat) : Bool := bitN (sliceN (asidEntry s asid) 40 4) 2
def asidMsdbg (s : State) (asid : Nat) : Bool := bitN (sliceN (asidEntry s asid) 40 4) 3
def asidTrapvec (s : State) (asid : Nat) : Nat := sliceN (asidEntry s asid) 8 8

/-- Start of the region that firmware reserves (R398). -/
def reservedBase (s : State) : Nat := s.record.rsvbase * 2 ^ 30

/-- What an access needs of its page (R316). -/
inductive Perm where
  | fetch | read | write | update
  deriving DecidableEq, Repr

/-- A failed translation: its cause, and whether an entry was malformed (R316, R321). -/
structure Miss where
  cause : Cause
  malf : Bool
  deriving DecidableEq, Repr

/-- A table of `size` bytes may lie at an address (R316). -/
def tableOk (s : State) (base size : Nat) : Bool :=
  base % size == 0 && decide (base + size ≤ 2 ^ 40) && decide (base + size ≤ reservedBase s)

/-- A page entry is well formed for a page of a size (R315, R316). -/
def pageEntryOk (s : State) (e size : Nat) : Bool :=
  fieldN e 63 1 == 0 && fieldN e 48 2 == 0 && fieldN e 8 4 == 0 && decide (fieldN e 6 2 ≤ 1)
    && decide (fieldN e 52 11 ≤ 1057) && fieldN e 10 38 * 1024 % size == 0
    && decide (fieldN e 10 38 * 1024 + size ≤ reservedBase s)

/-- A pointer entry has only the fields its level allows; SZ in the middle only (R315, R316). -/
def pointerEntryOk (e : Nat) (middle : Bool) : Bool :=
  fieldN e 48 16 == 0 && fieldN e 3 7 == 0 && (middle || !bitN e 2)

/-- One entry of a walk: the page it maps, a table to go on in, or why it fails. -/
def walkEntry (s : State) (e size : Nat) (middle leafLevel : Bool) : Except Miss (Nat ⊕ Nat) :=
  if !bitN e 0 then .error ⟨.pageNotPresent, false⟩
  else if bitN e 1 then (if pageEntryOk s e size then .ok (.inl e) else .error ⟨.pageNotPresent, true⟩)
  else if leafLevel || !pointerEntryOk e middle then .error ⟨.pageNotPresent, true⟩
  else .ok (.inr (fieldN e 10 38 * 1024))

/-- The walk of an address: the page's size and entry (R313). -/
def walk (s : State) (asid va : Nat) : Except Miss (Nat × Nat) :=
  let root := sliceN (asidEntry s asid) 0 8
  if !asidValid s asid then .error ⟨.pageNotPresent, false⟩
  else if !tableOk s root (2 ^ 18) then .error ⟨.pageNotPresent, true⟩
  else match walkEntry s (s.mem.readNat (root + 8 * fieldN va 35 15) 8) (2 ^ 35) false false with
    | .error m => .error m
    | .ok (.inl e) => .ok (2 ^ 35, e)
    | .ok (.inr mid) =>
      if !tableOk s mid (2 ^ 15) then .error ⟨.pageNotPresent, true⟩
      else
        let me := s.mem.readNat (mid + 8 * fieldN va 23 12) 8
        match walkEntry s me (2 ^ 23) true false with
        | .error m => .error m
        | .ok (.inl e) => .ok (2 ^ 23, e)
        | .ok (.inr leaf) =>
          let large := bitN me 2
          if !tableOk s leaf (if large then 2 ^ 10 else 2 ^ 14) then .error ⟨.pageNotPresent, true⟩
          else
            let size := if large then 2 ^ 16 else 2 ^ 12
            match walkEntry s (s.mem.readNat (leaf + 8 * (va % 2 ^ 23 / size)) 8) size false true with
            | .error m => .error m
            | .ok (.inl e) => .ok (size, e)
            | .ok (.inr _) => .error ⟨.pageNotPresent, true⟩

/-- The translating unit of an agent (R317): a core's TLB, a forester's. Copy units are 576 + grove, the front end 640. -/
def Agent.unit (a : Agent) : Nat := if a.kind == .forester then 512 + a.grove else a.core
def unitCapacity (u : Nat) : Nat := if u < 512 then 512 else if u < 576 then 64 else 256

/-- The page of an address as a unit holds it: from its TLB, else by a walk (R317). -/
def lookup (s : State) (unit asid va : Nat) : Except Miss (Nat × Nat) :=
  match (Tab.get s.tlbs unit []).find? (fun t => t.asid == asid && decide (t.base ≤ va) && decide (va < t.base + t.size)) with
  | some t => .ok (t.size, t.pte.toNat)
  | none => walk s asid va

/-- An access's page permits it (R316). -/
def permits (pte : Nat) (p : Perm) (user : Bool) : Bool :=
  (match p with
    | .fetch => bitN pte 5
    | .read => bitN pte 3
    | .write => bitN pte 4
    | .update => bitN pte 3 && bitN pte 4) && (!user || bitN pte 2)

/-- Where a virtual address lies: 2^40·home device + physical address there. -/
def xlate (s : State) (unit asid va : Nat) (p : Perm) (user : Bool) : Except Miss Nat :=
  if va ≥ 2 ^ 50 then .error ⟨.pageNotPresent, false⟩
  else match lookup s unit asid va with
    | .error m => .error m
    | .ok (size, e) =>
      if permits e p user then .ok (fieldN e 52 11 * 2 ^ 40 + fieldN e 10 38 * 1024 + va % size)
      else .error ⟨.pagePermission, false⟩

/-- A unit keeps the translation of an address and the address space's entry (R314, R317). -/
def fillTlb (s : State) (unit asid va : Nat) : State :=
  match lookup s unit asid va with
  | .error _ => s
  | .ok (size, e) =>
    let old := Tab.get s.tlbs unit []
    let t : TlbEntry := ⟨asid, va / size * size, size, BitVec.ofNat 64 e⟩
    if old.contains t then s
    else { s with tlbs := Tab.put s.tlbs unit ((t :: old).take (unitCapacity unit))
                  asidCache := Tab.put s.asidCache asid (asidEntry s asid) }

def fillTlbs (s : State) (unit asid : Nat) (vas : List Nat) : State := vas.foldl (fun s va => fillTlb s unit asid va) s

/-- The locations of n bytes from an address on, each page translated on its own (R193). -/
def xlateRange (s : State) (unit asid va n : Nat) (p : Perm) (user : Bool) : Except (Nat × Miss) (List Nat) :=
  (List.range n).foldr (fun i r =>
    match xlate s unit asid (va + i) p user with
    | .error m => .error (va + i, m)
    | .ok x => r.map (x :: ·)) (.ok [])

/-- The home device of a location, and the location's line. -/
def homeOf (loc : Nat) : Nat := loc / 2 ^ 40
def lineOf (loc : Nat) : Nat := loc / 128

/-! ### Memory at its homes -/

/-- The devices that hold a line, as its home knows them: pointers, or all that the current table reaches through the marked
ports, 34 and 35 counted as 0 and 1 (R377). -/
def groupOf (s : State) (d : Nat) : Nat := if 34 ≤ minPort s d then minPort s d - 34 else minPort s d
def holdersOf (s : State) (h : Holders) : List Nat :=
  match h with
  | .owner d => [d]
  | .devices ds => ds
  | .ports m => (List.range 1058).filter (fun d => d != s.device && bitN (routeEntry s d) 63 && bitN m (groupOf s d))

/-- An interposer port and the root die of a line's home have no path between them, one way or the other (R348). -/
def noPath (s : State) (port ln : Nat) : Bool :=
  s.pairs.any (fun e => e.2.active == 4 && (e.1 == 17 * port + (8 + (Config.rootDie ln).toNat) || e.1 == 17 * (8 + (Config.rootDie ln).toNat) + port))

/-- The same between a port and the trailhead's, through which other devices are reached (R339, R348). -/
def noPathAway (s : State) (port : Nat) : Bool :=
  s.pairs.any (fun e => e.2.active == 4 && (e.1 == 17 * port + 16 || e.1 == 17 * 16 + port))

/-- A local line that a port reads as poisoned: it is, or the access needs a pair without a path (R348, R394). -/
def lineBad (s : State) (port ln : Nat) : Bool := s.poison.contains ln || noPath s port ln

/-- The entry of `poison` for a line of another device that this device has poisoned (R211; log entry 36). -/
def farPoison (ln : Nat) : Nat := 2 ^ 44 + ln
/-- The line of a location reads as poisoned. -/
def badAt (s : State) (port loc : Nat) : Bool :=
  if homeOf loc == s.device then lineBad s port (lineOf (loc % 2 ^ 40))
  else s.poison.contains (farPoison (lineOf loc)) || noPathAway s port

/-- The interposer port of an agent; of the front end, the trailhead's (R339). -/
def portOfAgent (s : State) (k : Nat) : Nat := match Tab.find s.agents k with | some a => a.die | none => 16
/-- The port of a copy unit; grove 64 stands for the front end. -/
def portOfUnit (g : Nat) : Nat := if g < 64 then g / 8 else 16

/-- The lines of a set of bytes, once each. -/
def linesOf (bytes : Tab Byte) : List Nat := (bytes.map (fun e => e.1 / 128)).dedup

/-- Of poisoned lines, those that bytes written at their homes clear: all 128 bytes of the line, and one store has written them all
(R394). -/
def clearedLines (s : State) (bytes : Tab Byte) (lines : List Nat) : List Nat :=
  lines.filter (fun ln => s.fullStores.contains ln && decide ((bytes.filter (fun e => e.1 / 128 == ln)).length = 128))

/-- Bytes are written at their local homes; a store of a whole line clears its poison (R394). -/
def writeHome (s : State) (bytes : Tab Byte) : State :=
  let whole := clearedLines s bytes (s.poison.map (fun p => 2 ^ 33 * s.device + p))
  { s with mem := s.mem.writeCells (bytes.map (fun e => (e.1 % 2 ^ 40, e.2)))
           poison := s.poison.filter (fun ln => !whole.contains (2 ^ 33 * s.device + ln))
           fullStores := s.fullStores.filter (fun ln => !(linesOf bytes).contains ln)
           windowKeys := s.windowKeys.filter (fun e => (Tab.find bytes e.1).isNone) }

/-- A line of this device of which another device may hold a copy, or has not answered yet that it holds none (R377). -/
def recalling (s : State) (pa : Nat) : Bool := s.sent.any (fun e => e.2.why == .recall pa)
def lineShared (s : State) (pa : Nat) : Bool := (Tab.find s.directory pa).isSome || recalling s pa

/-- The group by which a line's holders are all reached at once: of a coarse vector that does not name the device that asks, where
the current table has such a group (R377; log entry 29). -/
def recallGroup (s : State) (h : Holders) (but : Nat) : Option Nat :=
  match h with
  | .ports m => if (holdersOf s h).contains but then none else groupFor s m
  | _ => none

/-- Every holder of a line but one is sent an invalidation, by multicast behind a coarse vector; an owner is asked for ownership
back. They carry the address space of the access that needs them. Where they cannot reach the trailhead die, the line is poisoned
(R348, R365, R377). -/
def recallLine (s : State) (asid pa but : Nat) : State :=
  match Tab.find s.directory pa with
  | none => s
  | some h =>
    let back := match h with | .owner _ => 1 | _ => 0
    let op : FabOp := { kind := 4, flags := back, key := 0, asid := asid, tag := 0, addr := 128 * pa, arg := 0, data := [], src := 0, tc := 4 }
    let t := { s with directory := Tab.erase s.directory pa }
    if noPath s 16 pa then { t with poison := if s.poison.contains pa then s.poison else s.poison ++ [pa] }
    else match recallGroup s h but with
      | some g => sendToAll t g (holdersOf s h) op (.recall pa)
      | none => ((holdersOf s h).filter (· != but)).foldl (fun s dev => sendOp s dev op (.recall pa)) t

/-- A byte at a local home, and n bytes: what waits there for an invalidation's answers counts (R377). -/
def homeByte (s : State) (loc : Nat) : Byte := (Tab.find s.held loc).getD (s.mem.read (loc % 2 ^ 40))
def homeRead (s : State) (loc n : Nat) : Nat := ofBytes ((List.range n).map (fun i => homeByte s (loc + i)))

/-- The barrier objects of this device in whose current generation an arrival is recorded, of its agents or of other devices', by
location (R246, R248). -/
def liveObjects (s : State) : List Nat :=
  let own := (s.agents.map (fun e => e.2.arrivals.filterMap (fun x =>
    (xlate s e.2.unit e.2.asid x.1 .update false).toOption.map (fun loc => (loc, x.2))))).flatten
  ((own ++ s.guestArrivals).filterMap (fun x => if homeOf x.1 == s.device && homeRead s (x.1 + 8) 4 == x.2 then some x.1 else none)).dedup

/-- Bytes that software writes, with the fields of the live barrier objects that they touch indeterminate (R246). -/
def spoilObjects (s : State) (bytes : Tab Byte) : State × Tab Byte :=
  let hit := (liveObjects s).filter (fun o => bytes.any (fun e => decide (o ≤ e.1) && decide (e.1 < o + 64)))
  if hit.isEmpty then (s, bytes)
  else
    (s.used (32 * hit.length), hit.zipIdx.foldl (fun t o => ((List.range 32).filter (fun i => i / 4 != 3)).foldl (fun t i =>
      Tab.put t (o.1 + i) (BitVec.ofNat 8 (s.free (32 * o.2 + i)))) t) bytes)

/-- START and EXPECT of a bound context's record, and where START stands (R384, R385). -/
def collCounts (s : State) (x : Collective) : Option (Nat × Nat × Nat) :=
  if !x.en then none
  else (xlate s 640 x.asid (x.recAddr.toNat + 40) .read false).toOption.map (fun loc => (loc, homeRead s loc 4, homeRead s (loc - 4) 4))

/-- Each write of START that brings it to EXPECT is a fork of its collective (R385); `before` is the state before the write. -/
def countForks (before s : State) (bytes : Tab Byte) : State :=
  { s with collectives := s.collectives.map (fun e => match collCounts before e.2, collCounts s e.2 with
      | some (loc, was, expect), some (_, now, _) =>
        if bytes.any (fun b => decide (loc ≤ b.1) && decide (b.1 < loc + 4)) && was != expect && now == expect then
          (e.1, { e.2 with forks := e.2.forks + 1 })
        else e
      | _, _ => e) }

/-- Bytes are written at their local homes. A line that other devices hold is written once each of them has answered an
invalidation; until then its bytes are held, and seen on this device (R377). -/
def writeShared (s : State) (asid : Nat) (bytes : Tab Byte) : State :=
  let before := s
  let busy := fun (e : Nat × Byte) => lineShared s (e.1 % 2 ^ 40 / 128)
  let later := bytes.filter busy
  let s := writeHome s (bytes.filter (fun e => !busy e))
  if later.isEmpty then countForks before s bytes
  else countForks before (((later.map (fun e => e.1 % 2 ^ 40 / 128)).dedup).foldl (fun s pa => recallLine s asid pa s.device)
    { s with held := later.foldl (fun h e => Tab.put h e.1 e.2) s.held }) bytes

/-- Software's bytes are written at their local homes. -/
def writeLocal (s : State) (asid : Nat) (bytes : Tab Byte) : State :=
  let r := spoilObjects s bytes
  writeShared r.1 asid r.2

/-- Lines that a write-back from a port cannot reach are poisoned at their homes, and what it carries is lost (R348). -/
def cutOff (s : State) (port : Nat) (bytes : Tab Byte) : State :=
  let lines := ((bytes.filter (fun e => noPath s port (lineOf (e.1 % 2 ^ 40)))).map (fun e => lineOf (e.1 % 2 ^ 40))).dedup
  if lines.isEmpty then s else { s with poison := s.poison ++ lines.filter (fun ln => !s.poison.contains ln) }

/-- The bytes of one line of a set, as a write-line operation's mask and data; 16 octets to one mask bit (R365). -/
def lineData (held : List Byte) (bytes : Tab Byte) (line : Nat) : List Byte :=
  (List.range 128).map (fun i => Tab.get bytes (128 * line + i) (byteAt held i))
def lineMask (bytes : Tab Byte) (line : Nat) : Nat :=
  (List.range 8).foldl (fun m g => m + (if (List.range 16).any (fun i => (Tab.find bytes (128 * line + 16 * g + i)).isSome) then 2 ^ g else 0)) 0

/-- The bytes of a line that this device holds until their home has them (R377, R399). -/
def heldLine (s : State) (ln : Nat) : Tab Byte := s.held.filter (fun e => e.1 / 128 == ln)

/-- Every 16 octets of which some are in a set of bytes are all in it. -/
def wholeGranules (bytes : Tab Byte) (line : Nat) : Bool :=
  (List.range 8).all (fun g => !bitN (lineMask bytes line) g
    || (List.range 16).all (fun i => (Tab.find bytes (128 * line + 16 * g + i)).isSome))

/-- A request of a write-back, of any agent, for a line that is on its way to its home. -/
def isPlace : SentFor → Bool
  | .place _ => true
  | _ => false
def placeSent (s : State) (ln : Nat) : Bool :=
  s.sent.any (fun e => isPlace e.2.why && 2 ^ 33 * e.2.dest + e.2.op.addr / 128 == ln)

/-- A request that writes what an earlier instruction stored or posted, or that such a write waits for. -/
def isHomeward (asid : Nat) (x : Sent) : Bool :=
  match x.why with
  | .place _ | .red _ _ => x.op.asid == asid
  | .recall _ => true
  | _ => false

/-- Bytes of an address space are on their way to their homes, at another device or behind an invalidation (R224, R377, R399). The
model's choice (log entry 72): a close waits for all of them, whosever they are. -/
def homeward (s : State) (asid : Nat) : Bool := s.sent.any (fun e => isHomeward asid e.2)

/-- A held line is written to its home on another device: at once where its other bytes are at hand, else after the line has
been fetched exclusively (R365, R376). -/
def pushHeld (s : State) (k asid ln : Nat) : State :=
  let home := homeOf (128 * ln)
  let bytes := heldLine s ln
  if bytes.isEmpty || home == s.device || !reachable s home || placeSent s ln then s
  else if wholeGranules bytes ln || (Tab.find s.peers ln).isSome then
    sendOp { s with peers := Tab.erase s.peers ln } home
      { kind := 2, flags := 0, key := 0, asid := asid, tag := 0, addr := 128 * ln % 2 ^ 40, arg := lineMask bytes ln
        data := lineData (Tab.get s.peers ln []) bytes ln, src := 0, tc := 4 } (.place k)
  else
    sendOp s home { kind := 1, flags := 1, key := 0, asid := asid, tag := 0, addr := 128 * ln % 2 ^ 40, arg := 0, data := []
                    src := 0, tc := 1 } (.place k)

/-- The address space whose bytes a line of another device holds here, and the agents whose closes cover them (R224, R399). -/
def lineAsid (s : State) (ln asid : Nat) : Nat := ((Tab.find s.covers ln).map (·.1)).getD asid
def coversLine (s : State) (k ln : Nat) : Bool := ((Tab.find s.covers ln).map (fun c => c.2.contains k)).getD false

/-- An agent's closes cover lines of other devices from now on. -/
def coverLine (k asid : Nat) (t : Tab (Nat × List Nat)) (ln : Nat) : Tab (Nat × List Nat) :=
  let ks := ((Tab.find t ln).map (·.2)).getD []
  Tab.put t ln (asid, if ks.contains k then ks else ks ++ [k])
/-- An agent has observed such lines: those that a test names (R224). -/
def observeCovers (s : State) (k : Nat) (hit : Nat → Nat → Bool) : State :=
  { s with covers := s.covers.map (fun e => if hit e.1 e.2.1 && !e.2.2.contains k then (e.1, (e.2.1, e.2.2 ++ [k])) else e) }

/-- Bytes of other devices' lines are held until their home has them, and sent there when it can be reached (R224, R399). -/
def placeAway (s : State) (k asid : Nat) (away : Tab Byte) : State :=
  let whole := clearedLines s away (linesOf away)
  let s := { s with held := away.foldl (fun h e => Tab.put h e.1 e.2) s.held
                    covers := (linesOf away).foldl (fun t ln => coverLine k (lineAsid s ln asid) t ln) s.covers
                    poison := s.poison.filter (fun p => !whole.any (fun ln => p == farPoison ln))
                    fullStores := s.fullStores.filter (fun ln => !(linesOf away).contains ln) }
  (linesOf away).foldl (fun s ln => pushHeld s k (lineAsid s ln asid) ln) s

/-- Bytes reach their homes from an interposer port: local ones are written, remote ones held and sent. What has no path is lost, and
its line poisoned (R224, R348, R399). -/
def placeFrom (s : State) (port k asid : Nat) (bytes : Tab Byte) : State :=
  let mine := bytes.filter (fun e => homeOf e.1 == s.device)
  let away := bytes.filter (fun e => homeOf e.1 != s.device)
  let cut := fun (e : Nat × Byte) => noPath s port (lineOf (e.1 % 2 ^ 40))
  let s := writeLocal (cutOff s port mine) asid (mine.filter (fun e => !cut e))
  if noPathAway s port then
    { s with poison := s.poison ++ ((linesOf away).map farPoison).filter (fun p => !s.poison.contains p) }
  else placeAway s k asid away
def placeHome (s : State) (k asid : Nat) (bytes : Tab Byte) : State := placeFrom s (portOfAgent s k) k asid bytes

/-- Bytes that an agent's close waits for are on their way. -/
def placing (s : State) (k : Nat) : Bool := homeward s (s.agent k).asid

/-- Bytes of a line are held here: a strong access to a line of another device waits for them (R231). -/
def lineHeld (s : State) (loc : Nat) : Bool := homeOf loc != s.device && !(heldLine s (lineOf loc)).isEmpty

/-- The closed bytes of a grove's staging cache that a test names go to their homes, the poison of its lines with them (R224, R231,
R394). -/
def pushWhere (s : State) (g k asid : Nat) (p : Nat → Bool) : State :=
  let x := s.grove g
  let t := placeFrom s (portOfUnit g) k asid (x.staging.filter (fun e => p e.1))
  let bad := x.poison.filter (fun ln => p (128 * ln))
  let t := { t with poison := t.poison ++ (bad.map (fun ln => if homeOf (128 * ln) == s.device then ln % 2 ^ 33 else farPoison ln)).filter
                      (fun x => !t.poison.contains x) }
  t.setGrove g { x with staging := x.staging.filter (fun e => !p e.1), poison := x.poison.filter (fun ln => !p (128 * ln)) }
def pushStaging (s : State) (g k asid : Nat) : State := pushWhere s g k asid (fun _ => true)
/-- Every closed byte in any staging cache goes to its home. -/
def pushAll (s : State) (k asid : Nat) : State := (s.groves.map (·.1)).foldl (fun s g => pushStaging s g k asid) s

/-! ### Memory as an agent observes it (R223, R226, R227) -/

/-- An agent's own closed bytes, the latest close's first. -/
def ownClosed (cs : List Close) (loc : Nat) : Option Byte :=
  cs.foldl (fun r c => match Tab.find c.bytes loc with | some b => some b | none => r) none

/-- An agent's own latest store to a location that is not yet placed (R191). -/
def ownByte (a : Agent) (loc : Nat) : Option Byte :=
  match Tab.find a.stores loc with
  | some b => some b
  | none => match Tab.find a.kept loc with
    | some b => some b
    | none => match ownClosed a.closes loc with
      | some b => some b
      | none => Tab.find a.bundled loc

/-- The eligible byte of a location as a grove sees it; none when its line must be fetched from another device. -/
def sharedByte (s : State) (g loc : Nat) : Option Byte :=
  match Tab.find (s.grove g).staging loc with
  | some b => some b
  | none => match Tab.find s.held loc with
    | some b => some b
    | none =>
      if homeOf loc == s.device then some (s.mem.read (loc % 2 ^ 40))
      else (Tab.find s.peers (lineOf loc)).map (fun ln => byteAt ln (loc % 128))

/-- A byte that an agent's grid was forked with (R119), else the eligible one. -/
def eligibleByte (s : State) (a : Agent) (loc : Nat) : Option Byte :=
  match (Tab.find s.grids a.grid).bind (fun g => Tab.find g.view loc) with
  | some b => some b
  | none => sharedByte s a.grove loc

/-- An ordinary read of a byte: the agent's own store, else the value stable in this phase, else an eligible one. -/
def seeByte (s : State) (a : Agent) (loc : Nat) : Option Byte :=
  match ownByte a loc with
  | some b => some b
  | none => match Tab.find a.seen loc with
    | some b => some b
    | none => eligibleByte s a loc

/-- The bundles that have written a line of this device, the latest first; of other devices' lines none is known (log entry
42). -/
def lineBundles (s : State) (ln : Nat) : List Nat := if homeOf (128 * ln) == s.device then Tab.get s.lineVer ln [] else []

/-- Record a bundle in a watch table: the oldest entry makes room, its signature folded into the overflow (R241). -/
def watchBundle (a : Agent) (e : WatchEntry) : Agent :=
  if a.watch.any (fun w => w.ident == e.ident) then a
  else if a.watch.length < 16 then { a with watch := a.watch ++ [e] }
  else match a.watch with
    | [] => a
    | w :: ws => { a with watch := ws ++ [e], overflow := a.overflow ||| w.sig, folded := a.folded ++ [w] }

/-- The entry that records a bundle, as far as this device knows it (R241). -/
def watchEntry (s : State) (id : Nat) : Option WatchEntry :=
  match s.bundles.find? (fun e => e.2.ident == id) with
  | some (_, b) => some ⟨id, b.lines.length - 1, b.state == .settled, b.sig⟩
  | none => (s.versions.find? (fun v => v.ident == id)).map (fun v => ⟨id, v.count, false, v.sig⟩)

/-- The lines an agent has read in its phase that one of some bundles has written since: the agent has now observed those bundles,
so it reads such lines anew (R240). -/
def staleLines (s : State) (a : Agent) (ids : List Nat) : List Nat :=
  (a.seenVer.filter (fun e =>
    let bs := lineBundles s e.1
    (bs.take (bs.length - e.2)).any ids.contains)).map (·.1)

/-- An agent reads the current versions of lines: it observes every bundle that has written them, and records those whose
versions they are (R240, R241). -/
def observeLines (s : State) (a : Agent) (lines : List Nat) : Agent :=
  let ids := (lines.map (lineBundles s)).flatten
  if ids.isEmpty then a
  else
    let stale := staleLines s a ids
    let a := (lines.filterMap (fun ln => (lineBundles s ln).head?.bind (watchEntry s))).foldl watchBundle a
    { a with seen := a.seen.filter (fun e => !stale.contains (lineOf e.1)), seenVer := a.seenVer.filter (fun e => !stale.contains e.1) }

/-- A line matches a companion signature (R238). -/
def signatureHash (line : Nat) : Nat := line * 0x9E3779B97F4A7C15 % 2 ^ 64
def lineMatches (sig : DWord) (line : Nat) : Bool :=
  sig.getLsbD (signatureHash line / 2 ^ 58) && sig.getLsbD (signatureHash line / 2 ^ 52 % 64)

/-- Ordinary reads of locations: what is not the agent's own becomes stable in its phase, and bundles are observed. -/
def noteReads (s : State) (a : Agent) (locs : List Nat) : Agent :=
  let fresh := locs.filter (fun x => (ownByte a x).isNone && (Tab.find a.seen x).isNone)
  let lines := (fresh.map lineOf).dedup
  let a' := observeLines s a lines
  { a' with
    lastObs := s.strongSeq
    seen := fresh.foldl (fun t x => match eligibleByte s a x with | some b => Tab.put t x b | none => t) a'.seen
    seenVer := lines.foldl (fun t ln => if (Tab.find t ln).isSome then t else Tab.put t ln (lineBundles s ln).length) a'.seenVer }

/-- An ordinary store of bytes: private to the agent, and the latest of its writes (R191, R222, R223). -/
def storeBytes (a : Agent) (cells : List Host.Cell) : Agent :=
  { a with stores := cells.foldl (fun t c => Tab.put t c.1 c.2) a.stores
           order := a.order + 1, storeAt := cells.foldl (fun t c => Tab.put t c.1 (a.order + 1)) a.storeAt
           seen := a.seen.filter (fun e => !(cells.any (fun c => c.1 == e.1))) }

/-! ### Closes and opens (R224, R226, R228, R229) -/

/-- An agent's entries, in its core's side log or saved with it (R324, R334). -/
def sideEntries (s : State) (k : Nat) : List SideEntry :=
  ((s.core (s.agent k).core).sideLog).filter (fun e => e.agent == k) ++ (s.agent k).heldLog

/-- A bundle has committed, and every home that can be reached has applied the commit; or it is no longer held (R229, R239,
R244, R251). -/
def bundleCommitted (s : State) (id : Nat) : Bool :=
  match Tab.find s.bundles id with
  | none => true
  | some b => b.state == .settled || (b.state == .committed
      && b.unacked.all (fun ln => !reachable s (homeOf (128 * ln)) && !(s.sent.any (fun e => e.2.why == .bundle id ln))))

/-- A close has begun: no bundle before it holds it back (R251). -/
def closeReady (s : State) (c : Close) : Bool := c.after.elim true (bundleCommitted s)

/-- An agent has a posted RED whose home can be reached, and which has not been performed (R199, R245). -/
def redDue (s : State) (k : Nat) : Bool :=
  s.posted.any (fun e => e.2.agent == k && (match e.2.job with
    | .red _ _ loc _ _ => reachable s (homeOf loc)
    | .scratch _ _ => false))

/-- Nothing holds back the completion of a close: no side-logged entry, no strong write before it, no bundle before it (R224, R245,
R251). -/
def closeFree (s : State) (k : Nat) (c : Close) : Bool := (sideEntries s k).isEmpty && !redDue s k && closeReady s c

/-- The agents that launched a grid and the grids it descends from, and how many entries each had then made in the side log: its
stores before that happen before all that the grid does (R119, R236). A chain of children is at most 11 long (R19). -/
def forkChain (s : State) : Nat → Nat → List (Nat × Nat)
  | 0, _ => []
  | n + 1, g => match (Tab.find s.grids g).bind (fun x => x.parent.map (fun p => (x.mark, p))) with
    | none => []
    | some (mark, k, _, up) => (k, mark) :: forkChain s n up
/-- A grid descends from a team. -/
def descendsFrom (s : State) (g k : Nat) : Bool := (forkChain s 12 g).any (fun e => e.1 == k)

/-- A byte placed by an agent is no longer read from what its grid, or a grid that descends from the agent, was forked with
(R119). -/
def dropViews (s : State) (k : Nat) (bytes : Tab Byte) : State :=
  let own := (Tab.find s.agents k).map Agent.grid
  { s with grids := s.grids.map (fun e =>
      if some e.1 == own || descendsFrom s e.1 k then
        (e.1, { e.2 with view := e.2.view.filter (fun x => (Tab.find bytes x.1).isNone) })
      else e) }

/-- What an agent's spills left at bytes that meet a test is replaced there (R30). -/
def dropSpill (s : State) (a : Agent) (hit : Nat → Bool) : Tab Byte :=
  a.spill.filter (fun e => !((xlate s a.unit a.asid e.1 .read false).toOption.any hit))

/-- An engine's write gives the issuer's own earlier stores to the same bytes their place behind it: those before its issue
(R222, R236). -/
def supersede (s : State) (k num : Nat) (bytes : Tab Byte) : State :=
  let hit := fun x => (Tab.find bytes x).isSome
  let old := fun (a : Agent) (t : Tab Byte) => t.filter (fun e => !(hit e.1 && decide (Tab.get a.storeAt e.1 0 < num)))
  dropViews (s.modAgent k (fun a => { a with
    stores := old a a.stores, kept := old a a.kept, spill := dropSpill s a hit
    closes := a.closes.map (fun c => { c with bytes := c.bytes.filter (fun e => !hit e.1) }) })) k bytes

/-- What an agent has closed and a test names goes to its home; a close that an earlier bundle holds back keeps its place (R223,
R251). -/
def flushWhere (p : Nat → Bool) (s : State) (j : Nat) : State :=
  let b := s.agent j
  let cs := b.closes.takeWhile (closeReady s)
  let bytes := cs.foldl (fun t c => c.bytes.foldl (fun t e => if p e.1 then Tab.put t e.1 e.2 else t) t) ([] : Tab Byte)
  let rest := cs.map (fun c => { c with bytes := c.bytes.filter (fun e => !p e.1) }) ++ b.closes.drop cs.length
  dropViews ((placeHome s j b.asid bytes).modAgent j (fun a => { a with closes := rest })) j bytes

/-- The closes of aborted teams take their place once nothing holds them back (R229, R251, R326). -/
def settleOrphan (s : State) (e : Nat × Agent) : State :=
  let cs := e.2.closes.takeWhile (closeReady s)
  let t := cs.foldl (fun s c => placeFrom s e.2.die e.1 e.2.asid c.bytes) s
  let left := e.2.closes.drop cs.length
  { t with orphans := if left.isEmpty then Tab.erase t.orphans e.1 else Tab.put t.orphans e.1 { e.2 with closes := left } }
def settleOrphans (s : State) : State := s.orphans.foldl settleOrphan s

/-- What a close may cover by cumulativity goes to its home: all that other agents have closed (R224). The model's choice (log entry
72): it keeps no record of what happened before what, and takes every closed byte as covered. -/
def carryClosed (s : State) (k asid : Nat) : State :=
  pushAll ((s.agentsWhere (fun j b => j != k && b.closes.any (fun c => !c.bytes.isEmpty))).foldl (flushWhere (fun _ => true)) (settleOrphans s)) k asid

/-- A close's bytes take their place at its scope: in the grove's staging cache; or at their homes, with the held bytes that the
close covers. What it covers besides goes to its home (R224, R399). -/
def placeClose (s : State) (k : Nat) (c : Close) : State :=
  let a := s.agent k
  let s := carryClosed s k a.asid
  if c.scope ≤ 1 then
    let away := linesOf (c.bytes.filter (fun e => homeOf e.1 != s.device))
    let s := { s with covers := away.foldl (coverLine k a.asid) s.covers }
    let x := s.grove a.grove
    s.setGrove a.grove { x with staging := c.bytes.foldl (fun t e => Tab.put t e.1 e.2) x.staging
                                poison := x.poison.filter (fun ln => !(clearedLines s c.bytes x.poison).contains ln) }
  else
    let s := placeHome s k a.asid c.bytes
    ((linesOf s.held).filter (coversLine s k)).foldl (fun s ln => pushHeld s k (lineAsid s ln a.asid) ln) s

/-- Two agents' scopes relate them: in one grove from `.g` on, else from `.d` on (R221, R226). -/
def openRelated (sc : Nat) (same : Bool) (other : Nat) : Bool := if same then decide (1 ≤ sc) && decide (1 ≤ other) else decide (2 ≤ sc) && decide (2 ≤ other)

/-- An agent has live children that still read what it had not closed when it launched them. -/
def forkedViews (s : State) (k : Nat) : Bool :=
  s.grids.any (fun e => descendsFrom s e.1 k && !e.2.view.isEmpty)

/-- A close that has not sent its bytes to their places does so (R224, R229). -/
def launchClose (s : State) (k : Nat) (c : Close) : State :=
  if c.begun && c.bytes.isEmpty then s
  else
    let s := placeClose s k (if forkedViews s k then { c with scope := max c.scope 2 } else c)
    let a := s.agent k
    dropViews (s.setAgent k { a with closes := a.closes.map (fun x => if x == c then { x with bytes := [], begun := true } else x) }) k c.bytes

/-- The oldest close of an agent takes its place, its wake not yet delivered; one that waits for bytes on their way stays
(R224, R229). -/
def settleFirst (s : State) (k : Nat) : State :=
  match (s.agent k).closes with
  | [] => s
  | c :: _ =>
    let s := launchClose s k c
    let a := s.agent k
    if decide (2 ≤ c.scope) && placing s k then s else s.setAgent k { a with closes := a.closes.drop 1 }

/-- The issued closes of an agent up to the last that is related to an open, in order. -/
def relatedCloses (sc : Nat) (same : Bool) : List Close → List Close
  | [] => []
  | c :: cs => match relatedCloses sc same cs with
    | [] => if openRelated sc same c.scope then [c] else []
    | xs => c :: xs

/-- Other agents' issued closes, related at both scopes, send their bytes to their places before an open returns (R226). -/
def settleCloses (s : State) (k sc : Nat) : State :=
  let s := settleOrphans s
  (s.agentsWhere (fun j b => j != k && !b.closes.isEmpty)).foldl (fun s j =>
    let b := s.agent j
    ((relatedCloses sc (b.grove == (s.agent k).grove) b.closes).takeWhile (closeReady s)).foldl (fun s c => launchClose s j c) s) s

/-- A bundle that a watch table names is known to have settled (R241). -/
def knownSettled (s : State) (w : WatchEntry) : Bool :=
  w.settled || (match s.bundles.find? (fun e => e.2.ident == w.ident) with
    | some (_, b) => b.state == .settled
    | none => w.ident / 2 ^ 37 == s.device)

/-- An open at a scope: stability ends, settled bundles are forgotten, closes that happen before it are seen, and what has been
closed in its address space is covered by its agent's own closes (R224, R226 to R228, R241). The model's choice (log entry 72): it
takes every byte closed by then as observed, since it keeps no record of what happened before what. -/
def openPhase (s : State) (k sc : Nat) : State :=
  let s := settleCloses s k sc
  let s := observeCovers s k (fun _ asid => asid == (s.agent k).asid)
  let a := s.agent k
  let left := a.folded.filter (fun w => !knownSettled s w)
  let waits := fun (p : Nat) => a.lahead.any (fun e => !e.done && !e.tags.isEmpty && e.phase == p)
  s.setAgent k { a with
    lastObs := s.strongSeq, phase := a.phase + 1, seen := [], seenVer := []
    olderSeen := (Tab.put a.olderSeen a.phase a.seen).filter (fun e => waits e.1)
    watch := a.watch.filter (fun w => !knownSettled s w), folded := left
    overflow := if left.isEmpty then 0 else a.overflow }

/-- An agent leaves SLEEP: READY, with the open of R333; one saved in SLEEP keeps the wake in its area (R23). -/
def wakeAgent (s : State) (k : Nat) : State :=
  let a := s.agent k
  if a.state == .sleep then openPhase (s.setAgent k { a with state := .ready, sleepEnd := 0 }) k 2
  else s.setAgent k { a with wakePend := true }

/-- A wake reaches the team of a workgroup number and team number in a grid (R333). -/
def deliverWake (s : State) (grid : Nat) (wt : Nat × Nat) : State :=
  (s.agentsWhere (fun _ b => b.grid == grid && b.wgid.toNat == wt.1 && b.teamId == wt.2)).foldl wakeAgent s

/-- The oldest close of an agent completes, or waits for bytes that are on their way (R224, R229). -/
def completeClose (s : State) (k : Nat) : State :=
  match (s.agent k).closes with
  | [] => s
  | c :: cs =>
    let s := settleFirst s k
    if (s.agent k).closes.length > cs.length then s
    else match c.wake with
      | none => s
      | some wt => deliverWake s (s.agent k).grid wt

/-- The newest bundle of an agent that has not committed (R251). -/
def openBundle (s : State) (k : Nat) : Option Nat :=
  ((s.bundles.filter (fun e => e.2.agent == k && !bundleCommitted s e.1)).getLast?).map (·.1)

/-- The bytes of two tables, the second over the first. -/
def overlay (t u : Tab Byte) : Tab Byte := u.foldl (fun t e => Tab.put t e.1 e.2) t

/-- A close issues: at `.t` nothing leaves the agent; wider, its stores become eligible and complete later (R229, R250). -/
def issueClose (s : State) (k sc : Nat) (wake : Option (Nat × Nat)) : State :=
  let a := s.agent k
  if sc = 0 then s.setAgent k { a with stores := [], kept := overlay a.kept a.stores, keptSeq := a.sideSeq }
  else
    s.setAgent k { a with stores := [], kept := [], keptSeq := a.sideSeq, storeAt := [], scratchOpen := []
                          closes := a.closes ++ [⟨sc, overlay a.kept a.stores, wake, openBundle s k, a.sideSeq, false⟩] }

/-- The scope code of a `.d` close. -/
def scopeD : Nat := 2

/-- A close may not issue before every earlier close of its agent has completed (R229). -/
def closesPending (s : State) (k : Nat) : Bool := !(s.agent k).closes.isEmpty

/-- A close that completes in place, for a release (R232): possible when nothing holds it back. -/
def closeNow (s : State) (k sc : Nat) : State := completeClose (issueClose s k sc none) k
def closeNowFree (s : State) (k : Nat) : Bool :=
  !closesPending s k && (sideEntries s k).isEmpty && !redDue s k && (openBundle s k).isNone

/-- A remote byte whose home cannot be reached, among an agent's unclosed stores and the held and staged bytes that its closes
cover, as the address of the first (R399). -/
def unreachableByte (s : State) (k : Nat) : Option Nat :=
  let a := s.agent k
  let held := (s.held ++ (s.groves.map (fun g => g.2.staging)).flatten).filter (fun e => coversLine s k (lineOf e.1))
  ((a.stores ++ a.kept ++ held).find? (fun e => homeOf e.1 != s.device && !reachable s (homeOf e.1))).map
    (fun e => Tab.get a.lineVa (lineOf e.1) (128 * lineOf e.1 % 2 ^ 40) + e.1 % 128)

/-! ### The spilled part of a mask stack, as memory (R30, R31) -/

/-- The bytes of a spilled mask-stack entry (R31). -/
def summaryOf (m : Mask) : Nat := (List.range 32).foldl (fun w k => if fieldN m.toNat (32 * k) 32 = 0 then w else w + 2 ^ k) 0
def regionCode : Region → Nat
  | .ifArm => 0 | .elseArm => 1 | .loop => 2
def entryBytes (e : MaskEntry) : List Byte :=
  let parts : List (List Byte) := [toBytes 128 e.outer.toNat, toBytes 4 (summaryOf e.outer), toBytes 128 e.alt.toNat,
    toBytes 4 (summaryOf e.alt), toBytes 4 (regionCode e.kind), toBytes 4 0, toBytes 8 (e.addr.toNat % 2 ^ 50)]
  parts.flatten

/-- The address of entry n of the spilled part of an agent's mask stack (R30). -/
def entryAt (a : Agent) (n : Nat) : Nat := a.stackBase + 280 * n

/-- The live spilled entry an address falls into, and the offset there; the oldest entry lies first. -/
def spilledAt (a : Agent) (va : Nat) : Option (MaskEntry × Nat) :=
  if a.stackBase ≤ va then
    (a.spilled.reverse[(va - a.stackBase) / 280]?).map (fun e => (e, (va - a.stackBase) % 280))
  else none

/-- The bytes of entry n stand in the stack area as the agent's own private stores. -/
def leaveBytes (a : Agent) (n : Nat) (e : MaskEntry) : Agent :=
  { a with spill := ((entryBytes e).zipIdx).foldl (fun t x => Tab.put t (entryAt a n + x.2) x.1) a.spill }

/-- What the agent's spills and refills put at an address of its stack area, where it has stored nothing there since (R30). -/
def spillByte (a : Agent) (va : Nat) : Option Byte :=
  match spilledAt a va with
  | some (e, o) => if e.spoilt then Tab.find a.spill va else some (byteAt (entryBytes e) o)
  | none => Tab.find a.spill va

/-- A byte as a load of the agent reads it, at an address and its location: its spills and refills are its own stores. -/
def loadByte (s : State) (a : Agent) (va loc : Nat) : Option Byte :=
  match spillByte a va with
  | some b => some b
  | none => seeByte s a loc

/-- Software has written over spilled entries: those of the numbers for which a test holds (R31). -/
def spoilWhere (a : Agent) (hit : Nat → Bool) : Agent :=
  let es := a.spilled.reverse.zipIdx
  let a := (es.filter (fun e => hit e.2 && !e.1.spoilt)).foldl (fun a e => leaveBytes a e.2 e.1) a
  { a with spilled := (es.map (fun e => if hit e.2 then { e.1 with spoilt := true } else e.1)).reverse }

/-- The agent itself stores to addresses of its stack area: it then reads there what it stored (R30, R31). -/
def spoilOwn (a : Agent) (vas : List Nat) : Agent :=
  let a := spoilWhere a (fun n => vas.any (fun va => decide (entryAt a n ≤ va) && decide (va < entryAt a n + 280)))
  { a with spill := a.spill.filter (fun e => !vas.contains e.1) }

/-- Another observer's write to locations goes over an agent's spilled entries (R31). -/
def spoilAt (s : State) (a : Agent) (locs : List Nat) : Agent :=
  spoilWhere a (fun n => (List.range 280).any (fun j => match xlate s a.unit a.asid (entryAt a n + j) .read false with
    | .ok x => locs.contains x
    | .error _ => false))

/-- A write of software is numbered at the bytes it writes. -/
def numberWrite (s : State) (locs : List Nat) : State :=
  { s with codeSeq := s.codeSeq + 1, codeWrites := locs.foldl (fun t w => Tab.put t w (s.codeSeq + 1)) s.codeWrites }

/-- Software has written a byte after a write of a number. -/
def writtenSince (s : State) (n loc : Nat) : Bool := decide (n < Tab.get s.codeWrites loc 0)

/-- The grids that have a team or context resident. -/
def residentGrids (s : State) : List Nat := ((s.agents.filter (fun e => !e.2.away)).map (fun e => e.2.grid)).dedup

/-- A byte that software wrote last while a team or context of a grid was resident: as code, or in the constant bank, it is
indeterminate to that grid (R50, R180). -/
def racedFor (s : State) (g loc : Nat) : Bool := (Tab.get s.codeGrids loc []).contains g

/-- Software writes locations: code and constants there are indeterminate to the grids that are resident (R50, R180), and so are
the spilled entries of other agents there (R31). -/
def touchWritten (s : State) (k : Nat) (locs : List Nat) : State :=
  let gs := residentGrids s
  let s := { s with codeGrids := locs.foldl (fun t w => Tab.put t w gs) s.codeGrids }
  if s.agents.all (fun e => e.1 == k || e.2.spilled.isEmpty) then s
  else { s with agents := s.agents.map (fun e => if e.1 == k then e else (e.1, spoilAt s e.2 locs)) }
def softwareWrote (s : State) (k : Nat) (locs : List Nat) : State := touchWritten (numberWrite s locs) k locs

/-- The same for a write that software issued before, with its number. -/
def softwareWroteAt (s : State) (k code : Nat) (locs : List Nat) : State :=
  touchWritten { s with codeWrites := locs.foldl (fun t w => Tab.put t w (max code (Tab.get t w 0))) s.codeWrites } k locs

/-! ### Strong accesses (R197, R200, R231, R233) -/

/-- The closed bytes of a line that this device holds go to their home: from the staging caches, then from the closes that
agents have issued (R223, R231). -/
def flushClosed (s : State) (k asid line : Nat) : State :=
  let s := (s.groves.map (·.1)).foldl (fun s g => pushWhere s g k asid (fun x => x / 128 == line)) s
  (s.agentsWhere (fun _ b => b.closes.any (fun c => c.bytes.any (fun e => e.1 / 128 == line)))).foldl
    (flushWhere (fun x => x / 128 == line)) (settleOrphans s)

/-- Before a strong access of an agent, or an access of an engine, its line's closed bytes reach their home (R231). -/
def flushLine (s : State) (k loc : Nat) : State := flushClosed s k (s.agent k).asid (lineOf loc)
def flushAll (s : State) (asid loc : Nat) : State := flushClosed s 0xFFFFFFFF asid (lineOf loc)

/-- An agent's private copies of n bytes give way to a strong write of its own: those older than a place among its writes, and what
it has spilled there (R30, R222). -/
def giveWay (s : State) (k loc n num : Nat) : State :=
  let hit := fun x => decide (loc ≤ x) && decide (x < loc + n)
  let old := fun (a : Agent) (t : Tab Byte) => t.filter (fun e => !(hit e.1 && decide (Tab.get a.storeAt e.1 0 < num)))
  s.modAgent k (fun a => { a with stores := old a a.stores, kept := old a a.kept, seen := a.seen.filter (fun e => !hit e.1), spill := dropSpill s a hit })

/-- A strong write that comes after all that its agent has stored so far. -/
def nowNum (s : State) (k : Nat) : Nat := (s.agent k).order + 1

/-- A strong write of n bytes at a local home by an agent, at a place among its writes (R222). -/
def homeWrite (s : State) (k asid loc n x num : Nat) : State :=
  let s := softwareWrote s 0xFFFFFFFF ((List.range n).map (loc + ·))
  let bytes : Tab Byte := (toBytes n x).zipIdx.map (fun e => (loc + e.2, e.1))
  dropViews (giveWay (writeLocal s asid bytes) k loc n num) k bytes

/-! ### Taking a trap, and returning (R10, R328, R332) -/

/-- The agent takes a trap: PPRIV and PRIV, then the trap registers, then the handler. Its outstanding instructions stay in
flight (R43). A trap in the wait half of a BAR.SYNC forgets that its arrival has been performed, and an ERET to the instruction makes the
arrival again: the model's choice, for R10 restarts the instruction and R334 speaks of a save only (log entry 75). -/
def trapAgent (vec : Nat) (c : Cause) (addr : Nat) (a : Agent) : Agent :=
  { a with ppriv := a.priv, priv := true, trapCause := BitVec.ofNat 32 (causeCode c), trapPc := a.pc
           trapAddr := BitVec.ofNat 64 addr, pc := BitVec.ofNat 64 vec
           state := if a.state == .saved then .saved else .ready
           hold := .none, counted := false, syncWait := false, parkPc := none, ringOn := none, ringGot := none, waiting := false, lostLine := none
           lahead := a.lahead.map (fun e => { e with atTrap := e.atTrap + 1 }) }

def takeTrap (s : State) (k : Nat) (c : Cause) (addr : Nat) : State :=
  let a := s.agent k
  (s.setAgent k (trapAgent (asidTrapvec s a.asid) c addr a)).marked

/-- The return from a trap: the level restored, and the innermost handler is over (R43, R332). -/
def trapReturn (a : Agent) : Agent :=
  { a with priv := a.ppriv, lahead := a.lahead.map (fun e => { e with atTrap := e.atTrap - 1 }) }

/-! ### Launch records and slots -/

/-- The launch record of an agent's grid, and a field of it (R298). -/
def recordOf (s : State) (g : Nat) : List Byte := ((Tab.find s.grids g).map Grid.record).getD []
def recordField (s : State) (g o n : Nat) : Nat := sliceN (recordOf s g) o n

/-- Slot k of a grid's launch record (R298), and its format code (R125). -/
def slotOf (s : State) (grid k : Nat) : Nat := recordField s grid (160 + 8 * k) 8
def slotFmt (x : Nat) : Nat := fieldN x 60 4
/-- Code width of a format (R121). -/
def fmtWidth (f : Nat) : Nat := if f ≤ 2 then 16 else if f ≤ 4 then 8 else if f ≤ 6 then 6 else if f = 8 then 8 else 4
/-- How many values and registers of codes a lane of CVTQ or CVTD converts (R106). -/
def cvtValues (f : Nat) : Nat := if fmtWidth f = 16 then 2 else if fmtWidth f = 8 then 4 else if fmtWidth f = 6 then 16 else 8
def cvtRegs (f : Nat) : Nat := if fmtWidth f = 6 then 3 else 1

/-! ### Windows (R39 to R43) -/

/-- The registers an instruction reads and writes in an agent: those of its operands, and for CVTQ and CVTD the ranges that
the slot's format gives (R106). -/
def regSpanFrom (r : Reg) (n : Nat) : List Nat := (List.range n).map (fun k => r.toNat + k)
def agentReads (s : State) (a : Agent) (i : Instr) : List Nat :=
  match i with
  | .cvtq f => readsOf i ++ regSpanFrom f.a (cvtValues (slotFmt (slotOf s a.grid (f.mod.toNat % 8))))
  | .cvtd f => readsOf i ++ regSpanFrom f.a (cvtRegs (slotFmt (slotOf s a.grid (f.mod.toNat % 8))))
  | _ => readsOf i
def agentWrites (s : State) (a : Agent) (i : Instr) : List Nat :=
  match i with
  | .cvtq f => writesOf i ++ regSpanFrom f.d (cvtRegs (slotFmt (slotOf s a.grid (f.mod.toNat % 8))))
  | .cvtd f => writesOf i ++ regSpanFrom f.d (cvtValues (slotFmt (slotOf s a.grid (f.mod.toNat % 8))))
  | .ballot f => writesOf i ++ (if a.strand = 64 then [f.d.toNat + 1] else [])
  | .matchLanes f => writesOf i ++ (if a.strand = 64 then [f.d.toNat + 1] else [])
  | _ => writesOf i

/-- Entries whose window has ended and whose result has not come (R39). -/
def blocking (a : Agent) : List LAEntry := a.lahead.filter (fun e => !e.done && e.remain == 0)

/-- An instruction that has not completed, or whose window has not ended: its result is in no register until both have come, for the
spec lets no instruction of the window see it (R39, R40). -/
def LAEntry.live (e : LAEntry) : Bool := !e.done || e.remain != 0

/-- In a handler, an outstanding instruction whose destination the instruction reads (R43). -/
def handlerBlocking (a : Agent) (rd : List Nat) : List LAEntry :=
  a.lahead.filter (fun e => e.live && e.atTrap != 0
    && rd.any (fun r => decide (e.dest.toNat ≤ r) && decide (r < e.dest.toNat + e.nreg)))

/-- A window's instruction reads or writes its destination, or writes a data operand (R40). -/
def violates (a : Agent) (rd wr : List Nat) : Bool :=
  a.lahead.any (fun e => e.live &&
    ((rd ++ wr).any (fun r => decide (e.dest.toNat ≤ r) && decide (r < e.dest.toNat + e.nreg))
      || wr.any (fun r => e.srcs.any (fun q => q.toNat == r))))

/-- An agent waits at the end of a window: parked for a memory request of a team, else unchosen (R41, R146). -/
def waitFor (a : Agent) (es : List LAEntry) : Agent :=
  if a.kind == .team && es.any (·.parks) then { a with state := .parked } else a.unchosen

/-- A handler's instruction waits for outstanding instructions as if it ended their windows (R43); what has come of them is written
next. -/
def endWindows (es : List LAEntry) (a : Agent) : Agent :=
  { a with lahead := a.lahead.map (fun e => if es.contains e then { e with remain := 0, done := false } else e) }

/-- An outstanding instruction after an instruction of its window: a destination that is overwritten is indeterminate, and so is a
result with a data operand that is overwritten; of an atomic, what it writes to memory is instead (R40). -/
def taintEntry (w : List Nat) (m : Mask) (e : LAEntry) : LAEntry :=
  let hit := w.filter (fun r => (decide (e.dest.toNat ≤ r) && decide (r < e.dest.toNat + e.nreg))
    || (!e.mem && e.srcs.any (fun q => q.toNat == r)))
  if !e.live || hit.isEmpty then e
  else { e with taint := e.taint ||| (if hit.any (fun r => decide (192 ≤ r)) then BitVec.allOnes 1024 else m) }

/-- One instruction more of the window has issued (R39). -/
def tickEntry (e : LAEntry) : LAEntry := { e with remain := e.remain - 1 }

/-- Registers that an instruction wrote and that an outstanding instruction will write (R40). -/
def hitDests (a : Agent) (w : List Nat) : List Nat :=
  w.filter (fun r => a.lahead.any (fun e => e.live && decide (e.dest.toNat ≤ r) && decide (r < e.dest.toNat + e.nreg)))

/-- The lanes of an outstanding instruction whose data operand the instruction overwrites (R40). -/
def hitLanes (e : LAEntry) (w : List Nat) (m : Mask) : Mask :=
  let hit := w.filter (fun r => e.srcs.any (fun q => q.toNat == r))
  if !e.live || hit.isEmpty then 0 else if hit.any (fun r => decide (192 ≤ r)) then BitVec.allOnes 1024 else m

/-- Bytes that an outstanding atomic wrote, and whose data operand the instruction overwrites, become indeterminate (R40). -/
def hitSites (a : Agent) (w : List Nat) (m : Mask) : List (Nat × Nat) :=
  (a.lahead.map (fun e => (e.sites.filter (fun t => (hitLanes e w m).getLsbD t.1)).map (fun t => (t.2.1, t.2.2)))).flatten

/-- The requests of outstanding atomics to other homes whose data operand the instruction overwrites (R40). -/
def hitSent (s : State) (k : Nat) (a : Agent) (w : List Nat) (m : Mask) : List Nat :=
  (s.sent.filter (fun x => match x.2.why with
    | .atomic j t lane _ => j == k && a.lahead.any (fun e => e.token == t && (hitLanes e w m).getLsbD lane)
    | .atomicSum j t _ _ => j == k && a.lahead.any (fun e => e.token == t && hitLanes e w m != 0)
    | _ => false)).map (·.1)

/-- An unanswered request's operand, as far as it still lies here, becomes indeterminate (R40). -/
def looseSent (s : State) (tag : Nat) : State :=
  match Tab.find s.sent tag with
  | none => s
  | some x => ({ s with sent := Tab.put s.sent tag { x with op := { x.op with
      data := (List.range x.op.data.length).map (fun i => BitVec.ofNat 8 (s.free i)) } } } : State).used x.op.data.length

/-! ### Issue (R22, R36, R39, R62, R73) -/

/-- What an instruction does when it comes to issue: it issues and goes on, or to an address; it issues and stays
outstanding; it issues and stays at its address in a waiting state; it issues and its agent is gone; it uses its turn, but
its agent is held for a fault before it issues (R320: the model's choice, log entry 75); it traps, having changed nothing, or nothing but what reporting it
clears; or it does not issue. -/
inductive Act where
  | go (s : State)
  | goTo (s : State) (pc : DWord)
  | long (s : State) (e : LAEntry)
  | hold (s : State)
  | gone (s : State)
  | fault (s : State)
  | trap (c : Cause) (addr : Nat)
  | trapIn (s : State) (c : Cause) (addr : Nat)
  | wait (s : State)

/-- What an instruction writes: its registers and the lanes it acts in, for a P pair slot by slot; nothing where it acts in no
lane (R40, R58, R65). -/
def writeParts (s : State) (a : Agent) (i : Instr) : List (List Nat × List Nat) :=
  let parts := match i with
    | .pPair p => [([p.s0.d.toNat], slotLanes a p.s0), ([p.s1.d.toNat], slotLanes a p.s1)]
    | _ => [(agentWrites s a i, actLanes a i)]
  parts.filter (fun p => !p.2.isEmpty)

/-- The agent stands behind the agents listed. -/
def Agent.yieldTo (a : Agent) (js : List Nat) : Agent := { a with yielded := true, passFor := js }

/-- The agents of the class of agent `k` that are READY. -/
def readyPeers (s : State) (k : Nat) : List Nat :=
  let a := s.agent k
  s.agentsWhere (fun j b => j != k && b.kind == a.kind && b.core == a.core && b.grove == a.grove && b.prio == a.prio
    && b.state == .ready)

/-- A yield takes effect: the agent stands behind the agents of its class that are READY now (R44, R62, R118). -/
def yieldAgent (s : State) (k : Nat) : State := s.setAgent k ((s.agent k).yieldTo (readyPeers s k))

/-- An agent whose instruction has issued, with its windows as they now are (R39). -/
def Agent.pastIssue (a : Agent) (la : List LAEntry) (pc : DWord) : Agent :=
  { a with lahead := la, pc := pc, counted := false, waiting := false, ringOn := none, ringGot := none, lostLine := none
           hold := .none, state := if a.state == .run then .ready else a.state }

/-- An instruction that has issued and holds its agent unchosen until it ends: the agent is not saved meanwhile (R334). -/
def holdsUnchosen : Hold → Bool
  | .bundle _ | .freeing _ | .placing => true
  | _ => false

/-- An agent whose instruction has issued and stays at its address: its windows count it when it goes on, for it may yet trap,
and then does not count (R39). -/
def Agent.heldAtIssue (a : Agent) : Agent := { a with counted := true, waiting := holdsUnchosen a.hold, state := if a.state == .run then .ready else a.state }

/-- What one part of an instruction's writes does to the instructions in whose windows it lies: `a` is the agent before the
instruction (R40). -/
def disturb (k : Nat) (a : Agent) (s : State) (part : List Nat × List Nat) : State :=
  let m := lanesMask part.2
  let hits := hitDests a part.1
  let s := if hits.isEmpty then s else scrambleRegs s k hits m
  let s := (hitSites a part.1 m).foldl (fun s t => (homeWrite s k a.asid t.1 t.2 (s.free 0 + 2 ^ 64 * s.free 1) (nowNum s k)).used 2) s
  (hitSent s k a part.1 m).foldl looseSent s

/-- The value an entry writes in a lane: sign-extended from `sext` bits when that is not 0. -/
def LAEntry.value (e : LAEntry) (l : Nat) : Nat :=
  let x := (e.values[l]?).getD 0
  if e.sext = 0 then x else wrapN 32 (signedN e.sext x)

/-- The sticky flags that an entry sets: not those of a lane whose result is indeterminate (R9, R85). -/
def LAEntry.flagBits (e : LAEntry) : Word :=
  (e.flags.zipIdx.filter (fun x => e.lanes.getLsbD x.2 && !e.taint.getLsbD x.2)).foldl (fun w x => w ||| x.1) 0

/-- A long-latency result is written to its destination, indeterminate where the window overwrote it (R39, R40). -/
def writeEntry (s : State) (k : Nat) (e : LAEntry) : State :=
  let a := s.agent k
  let a := wrN a e.dest.toNat e.nreg (fun l =>
    if !e.lanes.getLsbD l then none
    else if e.taint.getLsbD l then some (s.free (2 * l) + 2 ^ 64 * s.free (2 * l + 1)) else some (e.value l))
  (s.setAgent k { a with fstat := a.fstat ||| e.flagBits }).used 2048

/-- The instructions of some lookahead entries have completed and their windows have ended with this issue: their results are written
(R39, R40). -/
def LAEntry.ended (e : LAEntry) : Bool := e.done && e.remain == 0
def writeEnded (s : State) (k : Nat) (la : List LAEntry) : State := (la.filter LAEntry.ended).foldl (fun s e => writeEntry s k e) s

/-- The instruction has issued: windows advance and what it overwrote in them is indeterminate, results of windows that end with it are
written, the pc moves, a set yield bit takes effect, unless it did when the instruction began to wait (R39, R40, R44, R62). -/
def finish (i : Instr) (old s : State) (pc : DWord) (new : List LAEntry) : State :=
  let k := s.cur
  let a0 := old.agent k
  let parts := writeParts old a0 i
  let a := s.agent k
  let la := a.lahead.map (fun e => tickEntry (parts.foldl (fun e p => taintEntry p.1 (lanesMask p.2) e) e))
  let s := (s.setAgent k (a.pastIssue (la.filter (fun e => !e.ended || e.err.isSome) ++ new) pc)).marked
  let s := writeEnded (parts.foldl (disturb k a0) s) k la
  let s := (new.filter (fun e => e.lanes != 0)).foldl (fun s e => scrambleRegs s k ((List.range e.nreg).map (fun j => e.dest.toNat + j)) e.lanes) s
  if (shapeOf i).yld && !a0.counted then yieldAgent s k else s

/-- The instruction has issued and stays at its address in a waiting state: a set yield bit takes effect, once (R62). -/
def finishHold (i : Instr) (s : State) : State :=
  let k := s.cur
  let once := (s.agent k).counted
  let s := (s.setAgent k (s.agent k).heldAtIssue).marked
  if (shapeOf i).yld && !once then yieldAgent s k else s

/-- Instructions at which a recorded cause is reported: a close, or an access with release; for an unreachable bundle also
BQUERY (R244, R323). -/
def reportsAt (i : Instr) (c : Cause) : Bool :=
  match i with
  | .pclose _ | .phase _ | .bclose _ | .barInit _ | .barArv _ | .barSync _ | .wake _ | .exit _ => true
  | .atom f | .atomc f | .atomf f | .red f | .atomag f => decide (2 ≤ modOrd f.mod)
  | .bquery _ => c == .fabricUnreachable
  | _ => false

/-- The first recorded cause that is due at an instruction. -/
def dueReport (a : Agent) (i : Instr) : Option (Cause × Nat) :=
  let inside := match a.hold with | .object _ | .bundle _ => true | _ => false
  if guardOn a i && !inside then a.reports.find? (fun r => reportsAt i r.1) else none

/-- The agent is in the middle of an instruction that an event will end. -/
def heldByEvent (a : Agent) : Bool :=
  match a.hold with
  | .bankDrain _ _ | .claimDrain _ _ | .controlStore _ _ | .tlbi => true
  | _ => false

/-- Poisoned or failed results whose window has ended are reported before anything else issues (R195). -/
def dueError (a : Agent) : Option (LAEntry × Cause × Nat) :=
  (a.lahead.find? (fun e => e.done && e.remain == 0 && e.err.isSome)).bind (fun e => e.err.map (fun c => (e, c.1, c.2)))

/-- Why an instruction of an agent does not issue yet, whatever it is: the agent it leaves. -/
def notYet (s : State) (a : Agent) (i : Instr) : Option Agent :=
  if heldByEvent a then some a
  else if !(blocking a).isEmpty then some (waitFor a (blocking a))
  else if !(handlerBlocking a (agentReads s a i)).isEmpty then
    some (waitFor (endWindows (handlerBlocking a (agentReads s a i)) a) (handlerBlocking a (agentReads s a i)))
  else if ((rowOf i).map OpRow.long).getD false && decide (32 ≤ (a.lahead.filter (fun e => !e.done)).length) then
    some a.unchosen
  else none

/-- An agent whose instruction does not issue. One at CWAIT, or at a wait on a ring, may be saved, and issues it again (R334); any other
instruction that holds its team unchosen completes first. -/
def Agent.waitAt (i : Instr) (a : Agent) : Agent :=
  match i with
  | .cwait _ | .ringWait _ | .ringPark _ => a.unchosen
  | _ => a.heldBack

/-- A cause that is reported even at an instruction that waits: an unreachable home, for which it may wait in vain (R244, R399). -/
def promptReport (a : Agent) (i : Instr) : Option (Cause × Nat) := (dueReport a i).filter (fun r => r.1 == .fabricUnreachable)

/-- The agent once a cause has been reported. -/
def Agent.reported (a : Agent) (r : Cause × Nat) : Agent := { a with reports := a.reports.filter (· != r) }

/-- A trap that an instruction takes before its own description is reached: a report that is due, its word (R72, R73), a
recorded cause, or the lookahead check (R40). -/
def earlyTrap (s : State) (a : Agent) (i : Instr) : Option (Agent × Cause × Nat) :=
  match dueError a with
  | some (e, c, addr) => some ({ a with lahead := a.lahead.filter (fun x => x.token != e.token) }, c, addr)
  | none =>
    match staticTrap a i with
    | some c => some (a, c, 0)
    | none =>
      match promptReport a i with
      | some r => some (a.reported r, r.1, r.2)
      | none => if asidLachk s a.asid && violates a (agentReads s a i) (agentWrites s a i) then some (a, .lookaheadViolation, 0) else none

/-- The address after an instruction (R49). -/
def nextPc (a : Agent) (i : Instr) : DWord := a.pc + BitVec.ofNat 64 (shapeOf i).size

/-- A recorded cause that is due at an instruction is taken at the moment it would have issued (R233, R323). -/
def reporting (i : Instr) (s : State) (a : Agent) (x : Act) : Act :=
  match x, dueReport a i with
  | .wait t, _ => .wait t
  | _, some r => .trapIn (s.setMe (a.reported r)) r.1 r.2
  | x, none => x

/-- An instruction of the set comes to issue in the current agent. -/
def issue (i : Instr) (s : State) (body : State → Agent → Act) : Host.Outcome State Fault Refusal :=
  match Tab.find s.agents s.cur with
  | none => .fault .noAgent
  | some a =>
    match notYet s a i with
    | some a' => .next (s.setMe a')
    | none =>
      match earlyTrap s a i with
      | some (a', c, addr) => .next (takeTrap (s.setMe a') s.cur c addr)
      | none =>
        match reporting i s a (body s a) with
        | .go t => .next (finish i s t (nextPc a i) [])
        | .goTo t pc => .next (finish i s t pc [])
        | .long t e => .next (finish i s t (nextPc a i) [e])
        | .hold t => .next (finishHold i t)
        | .gone t => .next t.marked
        | .fault t => .next t.marked
        | .trap c addr => .next (takeTrap s s.cur c addr)
        | .trapIn t c addr => .next (takeTrap t s.cur c addr)
        | .wait t => .next (t.setMe (t.me.waitAt i))

/-- An instruction that issues and then waits: it has issued once (R62). -/
def holdOnce (a : Agent) (s : State) : Act := if a.counted then .wait s else .hold s

/-- The body of an instruction that only changes its agent. -/
def onAgent (f : Agent → Agent) : State → Agent → Act := fun s a => .go (s.setMe (f a))

/-- A fresh token of a window's entry (R42, R336). -/
def freshToken (a : Agent) : Nat := (List.range 65536).find? (fun t => a.lahead.all (fun e => e.token != t)) |>.getD 0

/-- An entry for a long-latency instruction: its window, its destination, and its per-lane result (R39). -/
def mkEntry (a : Agent) (i : Instr) (d : Reg) (n : Nat) (parks mem : Bool) (srcs : List Reg) (f : Nat → Nat) : LAEntry :=
  { token := freshToken a, parks := parks, mem := mem, dest := d, nreg := if 0xFE ≤ d.toNat then 0 else n
    remain := (shapeOf i).la.toNat, done := false, lanes := lanesMask (actLanes a i), taint := 0
    values := (List.range (if isS d then 1 else a.nlanes)).map (fun l => if actsIn a i l then f l else 0)
    sext := 0, srcs := srcs, flags := [], err := none, atTrap := 0, phase := a.phase, num := a.order + 1, tags := [], sites := [] }

/-- Scratchpad bytes and banks -/
def scratchBank (a : Nat) : Nat := a / 65536 % 32
def scratchCore (a : Nat) : Nat := a / 2 ^ 21 % 8

/-- The first byte of n at a scratchpad address that an agent may not access, if any (R179, R182). -/
def scratchFault (s : State) (a : Agent) (addr n : Nat) : Option Nat :=
  (List.range n).findSome? (fun i =>
    let x := addr + i
    let off := addr % 2 ^ 21 + i
    let bad := decide (2 ^ 24 ≤ addr) || decide (2 ^ 21 ≤ off)
      || (s.core (8 * a.grove + scratchCore addr)).mode (off / 65536) != 1
      || !bitN (recordField s a.grid 36 4) (off / 65536)
    if bad then some x else none)

/-- What a scratchpad byte holds before it is written: zero, or a free value where the bank was taken over with indeterminate
contents (R182). -/
def unsetByte (c : Core) (off : Nat) : Byte :=
  match Tab.find c.unset (off / 65536) with
  | none => 0
  | some base => (Config.freeValue (base + off % 65536)).setWidth 8

/-- A byte of a core's scratchpad; the memory holds it combined with what it held before it was written. -/
def Core.scratchByte (c : Core) (off : Nat) : Byte := c.scratch.read off ^^^ unsetByte c off

/-- n scratchpad bytes at an address of a grove. -/
def scratchBytes (s : State) (g addr n : Nat) : List Byte :=
  (List.range n).map (fun i => (s.core (8 * g + scratchCore addr)).scratchByte (addr % 2 ^ 21 + i))
def scratchRead (s : State) (g addr n : Nat) : Nat := ofBytes (scratchBytes s g addr n)

/-- The first poisoned line of a scratchpad that n bytes touch, as its address in the grove (R195, R394). -/
def poisonIn (c : Core) (addr n : Nat) : Option Nat :=
  (c.poison.find? (fun ln => decide (ln * 128 < addr % 2 ^ 21 + n) && decide (addr % 2 ^ 21 < (ln + 1) * 128))).map
    (fun ln => addr / 2 ^ 21 * 2 ^ 21 + 128 * ln)
def scratchPoison (s : State) (g addr n : Nat) : Option Nat := poisonIn (s.core (8 * g + scratchCore addr)) addr n

/-- Bytes are stored into a core's scratchpad, in order; one store of a whole line clears its poison (R394). -/
def Core.store (c : Core) (cells : List (Nat × Byte)) : Core :=
  { c with scratch := c.scratch.writeCells (cells.map (fun e => (e.1, e.2 ^^^ unsetByte c e.1)))
           poison := c.poison.filter (fun ln => !(List.range 128).all (fun j => cells.any (fun e => e.1 == 128 * ln + j))) }

def scratchWrite (s : State) (g addr : Nat) (bytes : List Byte) : State :=
  s.setCore (8 * g + scratchCore addr)
    ((s.core (8 * g + scratchCore addr)).store (bytes.zipIdx.map (fun e => (addr % 2 ^ 21 + e.2, e.1))))

end Sys2Proof.Machine
end

