-- ==== Sys2Proof/Machine/Formats.lean ====
section
/-! DEFINITION. The narrow formats, format slots, encoding a value into a slot, the stochastic generator, codebooks and the
tile trailer with its CRC (R121 to R137). -/

namespace Sys2Proof.Machine

/-! ### Slots (R125, R126) -/

def slotBlockCode (x : Nat) : Nat := fieldN x 58 2
/-- The block length of a slot along K. -/
def slotBlock (x : Nat) : Nat := 16 * 2 ^ slotBlockCode x
def slotScale (x : Nat) : Bool := bitN x 57
def slotSat (x : Nat) : Bool := bitN x 56
def slotRnd (x : Nat) : Nat := fieldN x 54 2
def slotTrl (x : Nat) : Bool := bitN x 53
def slotGroup (x : Nat) : Nat := fieldN x 51 2
def slotAddr (x : Nat) : Nat := fieldN x 0 48

/-- A slot is malformed (R126). -/
def slotMalformed (x : Nat) : Bool :=
  let f := slotFmt x
  (f == 0 && x != 0) || decide (11 ≤ f) || slotBlockCode x == 3 || slotRnd x == 3 || fieldN x 48 3 != 0
    || (f == 10 && (slotAddr x == 0 || slotAddr x % 32 != 0 || slotRnd x != 0 || slotGroup x != 0))
    || (slotGroup x != 0 && (f != 9 || slotScale x || slotAddr x == 0 || slotAddr x % 4 != 0))
    || (slotRnd x == 2 && slotGroup x != 0)
    || (slotAddr x != 0 && !(f == 10) && slotGroup x == 0 && slotRnd x != 2)

/-- A slot that an instruction may not name (R126). -/
def slotBad (x : Nat) : Bool := slotFmt x == 0 || slotMalformed x

/-- The layout of a floating format (R121). -/
def fmtLayout (f : Nat) : Fmt :=
  if f = 1 then bf16 else if f = 2 then fp16 else if f = 3 then ⟨4, 3⟩ else if f = 4 then ⟨5, 2⟩ else if f = 5 then ⟨3, 2⟩
  else if f = 6 then ⟨2, 3⟩ else ⟨2, 1⟩
/-- Integer formats. -/
def fmtInt (f : Nat) : Bool := f == 8 || f == 9

/-- The value of a code (R122, R123); `cb` is the codebook's 32 bytes. -/
def codeValue (cb : List Byte) (f c : Nat) : FVal :=
  if f = 8 then intV (signedN 8 c)
  else if f = 9 then intV (signedN 4 c)
  else if f = 10 then decodeF bf16 (sliceN cb (2 * (c % 16)) 2)
  else
    let L := fmtLayout f
    if f = 1 || f = 2 || f = 4 then decodeF L c
    else if f = 3 && c % 128 = 127 then .nan false
    else
      let neg := bitN c (L.e + L.m)
      let e := fieldN c L.m L.e
      let m := fieldN c 0 L.m
      if e = 0 then .fin neg m (L.emin - L.m) else .fin neg (2 ^ L.m + m) ((e : Int) - L.bias - L.m)

/-- The largest finite code of a floating format, and its value in units of the exponent given (R121). -/
def fmtMaxCode (f : Nat) : Nat :=
  if f = 3 then 0x7E else if f = 5 || f = 6 then 0x1F else if f = 7 then 0x7 else (fmtLayout f).maxCode false

/-! ### Encoding (R128 to R131) -/

/-- The statistics of an encoding: largest finite magnitude, saturations, non-finite inputs. -/
structure QStat where
  qmax : Nat
  sat : Nat
  nf : Nat
  deriving DecidableEq, Repr

def QStat.zero : QStat := ⟨0, 0, 0⟩
/-- Two sets of statistics together. -/
def QStat.join (a b : QStat) : QStat := ⟨max a.qmax b.qmax, a.sat + b.sat, a.nf + b.nf⟩

/-- The stochastic generator (R130). -/
def generator (key wgid ctr : Nat) : Nat :=
  let M := 2 ^ 64
  let z := (key + wgid * 0x9E3779B97F4A7C15 + ctr) % M
  let z := ((z ^^^ (z >>> 30)) * 0xBF58476D1CE4E5B9) % M
  let z := ((z ^^^ (z >>> 27)) * 0x94D049BB133111EB) % M
  let z := z ^^^ (z >>> 31)
  z / 2 ^ 32

/-- A magnitude rounded to a multiple of 2^q in a slot's mode; `r` is the generator's output (R129). -/
def roundSlot (rnd r mag : Nat) (exp q : Int) : Nat :=
  if rnd = 2 then
    (if q ≤ exp then mag * pow2 (exp - q)
     else
       let d := pow2 (q - exp)
       mag / d + b2n (decide (r < mag % d * 2 ^ 32 / d)))
  else (roundAt (if rnd = 1 then 1 else 0) false mag exp q).1

/-- The codebook entry nearest to a finite value, ties to the lower index; 0 when none is finite (R131). -/
def nearestEntry (cb : List Byte) (neg : Bool) (mag : Nat) (exp : Int) : Nat :=
  let q := min exp (-133)
  let d2 := fun i => match codeValue cb 10 i with
    | .fin n m e => some (scaledInt neg mag exp q - scaledInt n m e q).natAbs
    | _ => none
  let best := (List.range 16).foldl (fun (b : Option (Nat × Nat)) i =>
    match d2 i, b with
    | none, _ => b
    | some d, none => some (i, d)
    | some d, some (j, dj) => if d < dj then some (i, d) else some (j, dj)) none
  (best.map (·.1)).getD 0

/-- The finite entry nearest to an infinity: the largest or the smallest, the lower index on a tie. -/
def extremeEntry (cb : List Byte) (neg : Bool) : Nat := nearestEntry cb neg 1 200

/-- A finite value lies below every finite entry of a codebook or above every one (R128). A choice of the model (log entry 71): with
no finite entry in the codebook it counts as inside. -/
def outsideBook (cb : List Byte) (v : FVal) : Bool :=
  let es := ((List.range 16).map (codeValue cb 10)).filter (fun e => match e with | .fin _ _ _ => true | _ => false)
  !es.isEmpty && (es.all (fun e => ltV v e) || es.all (fun e => ltV e v))

/-- The code of the end of a format's range (R128). -/
def rangeEnd (f : Nat) (neg : Bool) : Nat :=
  if f = 8 then (if neg then 0x80 else 0x7F)
  else if f = 9 then (if neg then 0x8 else 0x7)
  else (fmtLayout f).signBit neg + fmtMaxCode f

/-- Encode a finite value in a floating format: the code, and whether it lies outside the range (R128, R129). -/
def encodeFloat (f rnd r : Nat) (sat neg : Bool) (mag : Nat) (exp : Int) : Nat × Bool :=
  let L := fmtLayout f
  if mag = 0 then (L.signBit neg, false)
  else
    let q := max (leadExp mag exp - L.m) (L.emin - L.m)
    let n := normSig L (roundSlot rnd r mag exp q) q
    let code := if n.1 < 2 ^ L.m then n.1 else (n.2 + L.m + L.bias).toNat * 2 ^ L.m + (n.1 - 2 ^ L.m)
    if fmtMaxCode f < code then
      (if sat || f == 5 || f == 6 || f == 7 then rangeEnd f neg
       else if f = 3 then 0x7F
       else if rnd = 1 then rangeEnd f neg else L.infCode neg, true)
    else (L.signBit neg + code, false)

/-- Encode a finite value as an integer code (R128). -/
def encodeInt (f rnd r : Nat) (neg : Bool) (mag : Nat) (exp : Int) : Nat × Bool :=
  let w := fmtWidth f
  let k := roundSlot rnd r mag exp 0
  let lim := 2 ^ (w - 1)
  if (neg && decide (lim < k)) || (!neg && decide (lim ≤ k)) then (rangeEnd f neg, true)
  else (wrapN w (if neg then -(k : Int) else (k : Int)), false)

/-- encode(x, slot) of R128, with the generator's output for its element; a code and the statistics. -/
def encodeSlot (cb : List Byte) (slot r : Nat) (x : FVal) : Nat × QStat :=
  let f := slotFmt slot
  let ieee := f == 1 || f == 2 || f == 4
  match x with
  | .nan _ => (if f = 3 then 0x7F else if ieee then (fmtLayout f).nanCode else 0, ⟨0, 0, 1⟩)
  | .inf n =>
    (if f = 10 then extremeEntry cb n
     else if !slotSat slot && ieee then (fmtLayout f).infCode n
     else if !slotSat slot && f == 3 then 0x7F
     else rangeEnd f n, ⟨0, 0, 1⟩)
  | .fin n m e =>
    let q := (roundF fp32 1 false m e).1
    if f = 10 then (nearestEntry cb n m e, ⟨q, b2n (outsideBook cb x), 0⟩)
    else
      let c := if fmtInt f then encodeInt f (slotRnd slot) r n m e else encodeFloat f (slotRnd slot) r (slotSat slot) n m e
      (c.1, ⟨q, b2n c.2, 0⟩)

/-! ### The trailer and its CRC (R133, R135) -/

/-- One bit step of the reflected CRC-32C. -/
def crcBit (c : Nat) : Nat := if c % 2 = 1 then (c / 2) ^^^ 0x82F63B78 else c / 2
def crcByte (c : Nat) (b : Byte) : Nat := crcBit (crcBit (crcBit (crcBit (crcBit (crcBit (crcBit (crcBit (c ^^^ b.toNat))))))))
/-- CRC-32C of a string of bytes. -/
def crc32c (bs : List Byte) : Nat := (bs.foldl crcByte 0xFFFFFFFF) ^^^ 0xFFFFFFFF

/-- The FLAGS field of a trailer (R133). -/
def trailerFlags (slot : Nat) (q : QStat) : Nat :=
  slotFmt slot + (if slotScale slot then 16 else 0) + (if slotRnd slot = 2 then 32 else 0)
    + (if 0xFFFFFFFF ≤ q.sat then 64 else 0) + (if 0xFFFF ≤ q.nf then 128 else 0)

/-- Bytes 0 to 11 of a trailer. -/
def trailerHead (slot : Nat) (q : QStat) : List Byte :=
  toBytes 4 q.qmax ++ toBytes 4 (min q.sat 0xFFFFFFFF) ++ toBytes 2 (min q.nf 0xFFFF) ++ toBytes 2 (trailerFlags slot q)

/-- Codes of a width packed from the least significant bit (R124). -/
def packCodes (w : Nat) (cs : List Nat) : Nat := cs.foldr (fun c r => c % 2 ^ w + 2 ^ w * r) 0

/-! ### Versions at a home (R239 to R241, R243) -/

/-- A bundle's pending version of a line becomes current: its bytes land over the current ones, which the home keeps. -/
def commitVersion (s : State) (asid ident line : Nat) : State :=
  match s.versions.find? (fun v => v.line == line && v.ident == ident && !v.retained) with
  | none => s
  | some v =>
    let was := Tab.get s.lineVer line []
    let old : Tab Byte := v.cells.map (fun e => (e.1, homeByte s e.1))
    let kept : Version := { v with cells := old, retained := true, was := was.head? }
    let s := writeLocal s asid v.cells
    { s with versions := s.versions.map (fun w => if w == v then kept else w), lineVer := Tab.put s.lineVer line (ident :: was) }

/-- Whether the origin of a pending version says that it has committed. No operation of R365 asks it of another device: that
answer is a free value, where no line of the bundle here has been committed (log entry 1). -/
def originCommitted (s : State) (ident : Nat) : State × Bool :=
  match s.bundles.find? (fun e => e.2.ident == ident) with
  | some (_, b) => (s, b.state == .committed || b.state == .settled)
  | none =>
    if s.versions.any (fun v => v.ident == ident && v.retained) then (s, true)
    else if ident / 2 ^ 37 == s.device then (s, false) else (s.used 1, decide (s.free 0 % 2 = 1))

/-- A resolving fetch at the home of a line (R241). -/
def resolveLine (s : State) (asid line : Nat) : State :=
  match s.versions.find? (fun v => v.line == line && !v.retained) with
  | none => s
  | some v =>
    let r := originCommitted s v.ident
    if r.2 then commitVersion r.1 asid v.ident line else r.1

/-- An engine's reads of local lines: it observes bundles as one agent does, so what has committed is made current (R240, R291). -/
def resolveEngine (s : State) (asid : Nat) (locs : List Nat) : State :=
  ((s.versions.filter (fun v => !v.retained && locs.any (fun x => lineOf x == v.line))).map Version.line).foldl (fun s ln => resolveLine s asid ln) s

/-- An agent's reads of local lines with a pending version: one of a bundle in its watch table commits, one that matches its
overflow signature is resolved (R240, R241). -/
def resolveReads (s : State) (a : Agent) (locs : List Nat) : State :=
  (s.versions.filter (fun v => !v.retained && locs.any (fun x => lineOf x == v.line))).foldl (fun s v =>
    if a.watch.any (fun w => w.ident == v.ident) then commitVersion s a.asid v.ident v.line
    else if lineMatches a.overflow v.line then resolveLine s a.asid v.line
    else s) s

/-- What an agent asks the home of another device's line for when the line matches its watch table: the FLAGS and ARG of the version
fetches, one for each entry it matches, or of the resolving fetch it takes (R241). A resolving fetch names the first folded bundle that
the line matches. -/
def watchFetches (a : Agent) (line : Nat) : List (Nat × Nat) :=
  match a.watch.filter (fun w => lineMatches w.sig line) with
  | [] => if lineMatches a.overflow line then [(4, ((a.folded.find? (fun w => lineMatches w.sig line)).map WatchEntry.ident).getD 0)] else []
  | ws => ws.map (fun w => (2, w.ident))

/-- The same for an agent's ordinary read of a byte. The last is the one that is read: its entry is the latest. -/
def fracture (s : State) (a : Agent) (loc : Nat) : List (Nat × Nat) :=
  if homeOf loc == s.device || (ownByte a loc).isSome || (Tab.find a.seen loc).isSome
      || (Tab.find (s.grove a.grove).staging loc).isSome || (Tab.find s.held loc).isSome then []
  else watchFetches a (lineOf loc)

/-! ### Bytes that an engine writes and no agent has joined (R205, R291) -/

/-- The position of a scratchpad byte in the numbering of software's writes: above every location. -/
def scratchPos (core off : Nat) : Nat := 2 ^ 60 + 2 ^ 21 * core + off
def scratchPosAt (g addr : Nat) : Nat := scratchPos (8 * g + scratchCore addr) (addr % 2 ^ 21)

/-- The location of byte o of a mat transfer's lane. -/
def laneLoc (ln : Nat × Nat × Nat × Nat) (o : Nat) : Nat :=
  let off := ln.2.1 % 4096 + o
  if off < 4096 then ln.2.2.1 + o else ln.2.2.2 + (off - 4096)

/-- The position of a byte on a side of a copy; a scratchpad's has none while the workgroup is saved. -/
def tracePos (s : State) (t : Trace) (p : Perm) (b : Bool × Nat) : Option Nat :=
  if b.1 then (if ((Tab.find s.wgs t.wg).map Wg.saved).getD false then none else some (scratchPosAt t.grove b.2)) else (xlate s (576 + t.grove) t.asid b.2 p t.user).toOption

/-- The bytes that copies which no agent has joined write, and those of CLR.TSTORE commands. -/
def traceDst (s : State) (t : Trace) : List Nat := (jobBytes t.job).filterMap (fun p => tracePos s t .write p.2)
def storeDst (c : MatCmd) : List Nat :=
  match c.job with
  | .store _ _ e _ _ lanes => (lanes.map (fun ln => (List.range (1024 * e)).map (laneLoc ln))).flatten
  | _ => []

/-- Of some positions, those of bytes that such an engine writes: a load of them is indeterminate (R205, R291). -/
def unjoined (s : State) (ps : List Nat) : List Nat :=
  let ds := (s.traces.map (fun e => traceDst s e.2)).flatten ++ (s.matCmds.map (fun e => storeDst e.2)).flatten
  if ds.isEmpty then [] else ps.filter ds.contains

/-! ### Ordinary reads by an agent at issue: codebooks, group tables, descriptors -/

/-- Side-logged writes of an agent that its copies, mat commands and child grids of a mark see (R119, R236). -/
def forkLog (s : State) (k mark : Nat) : List SideEntry := (sideEntries s k).filter (fun e => decide (e.seq < mark))

/-- Those that a grid was forked with: of its launching agent, and of the agents that its ancestors were launched by (R119, R236). -/
def chainLog (s : State) (g : Nat) : List SideEntry := ((forkChain s 12 g).map (fun e => forkLog s e.1 e.2)).flatten

/-- An entry of a side log covers a byte. -/
def SideEntry.covers (e : SideEntry) (va : Nat) : Bool :=
  if e.red then decide (e.va ≤ va) && decide (va < e.va + atomSzBytes (e.ctrl / 8) (e.ctrl % 8))
  else e.va == va / 16 * 16 && bitN e.mask (va % 16)

/-- A store in a side log covers a byte that an agent reads: one of its own, or one that its grid was forked with (R119,
R245). -/
def sideCovers (s : State) (k va : Nat) : Bool :=
  ((sideEntries s k).filter (fun e => !e.red) ++ chainLog s (s.agent k).grid).any (fun e => e.covers va)

/-- Why a read at issue failed. -/
structure ReadFail where
  cause : Cause
  addr : Nat
  /-- Bytes of the agent's own side-logged stores, for which it is held instead (R245). -/
  held : List Nat := []
  deriving DecidableEq, Repr

/-- A byte that a poisoned line would have to supply: one of the staging cache, or else of memory (R195, R394). -/
def poisoned (s : State) (a : Agent) (loc : Nat) : Bool :=
  let x := s.grove a.grove
  (x.poison.contains (lineOf loc) || (badAt s a.die loc && (Tab.find x.staging loc).isNone))
    && (ownByte a loc).isNone && (Tab.find a.seen loc).isNone

/-- n bytes read as an ordinary load of an agent, or the trap that the read earns (R123, R208): the bytes and their
locations. A line homed on another device is read only when this device already holds it; what an engine writes that no agent has
joined is indeterminate (R205). -/
def readAtIssue (s : State) (a : Agent) (va n : Nat) : Except ReadFail (List Byte × List Nat) :=
  match xlateRange s a.unit a.asid va n .read (!a.priv) with
  | .error (x, m) => .error { cause := m.cause, addr := x }
  | .ok locs =>
    let vas := ((List.range n).map (va + ·)).filter (sideCovers s s.cur)
    if !vas.isEmpty then .error { cause := .pageNotPresent, addr := va, held := vas } else
    match (locs.zipIdx).find? (fun e => poisoned s a e.1) with
    | some e => .error { cause := .memUncorrectable, addr := va + e.2 }
    | none =>
      match (locs.zipIdx).find? (fun e => (seeByte s a e.1).isNone
          && (!reachable s (homeOf e.1) || (a.lostLine.map (·.1)) == some (lineOf e.1))) with
      | some e => .error { cause := (a.lostLine.map (·.2)).getD .fabricUnreachable, addr := va + e.2 }
      | none =>
        let hot := unjoined s locs
        .ok (locs.zipIdx.map (fun x => if hot.contains x.1 then BitVec.ofNat 8 (s.free x.2) else (seeByte s a x.1).getD 0), locs)

/-- The trap that a failed read at issue takes; or the hold, until its own side-logged stores have been replayed (R123, R245). -/
def failRead (s : State) (a : Agent) (e : ReadFail) : Act :=
  if e.held.isEmpty then .trap e.cause e.addr
  else .fault (s.setMe { a with state := .faultHold, hold := .sideLoad e.held })

/-- A byte of this device's memory is an older version than a bundle that the agent has observed (R240, R241). -/
def olderAt (s : State) (a : Agent) (loc : Nat) : Bool :=
  s.versions.any (fun v => v.line == lineOf loc && !v.retained && (a.watch.any (fun w => w.ident == v.ident)
    || (lineMatches a.overflow v.line && s.bundles.any (fun e => e.2.ident == v.ident && (e.2.state == .committed || e.2.state == .settled)))))

/-- A read at issue touches a line that has still to come: from another device, or in the version that the agent must see. -/
def readAway (s : State) (a : Agent) (locs : List Nat) : Option Nat := locs.find? (fun x => (seeByte s a x).isNone || olderAt s a x)

/-- The flags of a line request: a copy or a mat command observes bundles as one agent does, and asks by a resolving fetch, so that
what has committed is current at the home (R240, R241, R291). -/
def fetchFlags : SentFor → Nat
  | .copyRead _ => 4
  | .mat _ => 4
  | _ => 0

/-- Ask the home of a location for its line, once (R366, R376). -/
def fetchLine (s : State) (asid loc : Nat) (why : SentFor) : State :=
  let pa := 128 * lineOf loc % 2 ^ 40
  if s.sent.any (fun e => e.2.op.kind == 1 && e.2.dest == homeOf loc && e.2.op.addr == pa && e.2.why == why) then s
  else
    let tc := if fetchFlags why = 0 then 1 else 5
    sendOp s (homeOf loc) { kind := 1, flags := fetchFlags why, key := 0, asid := asid, tag := 0, addr := pa, arg := 0, data := [], src := 0, tc := tc } why

/-- What a read at issue waits for is asked for, or made current at its home (R240, R376). -/
def fetchIssue (s : State) (a : Agent) (x : Nat) : State :=
  if homeOf x == s.device then resolveReads s a [x] else fetchLine s a.asid x (.issue s.cur)

/-- After a read at issue: the free values that it took, and what its agent has read (R205, R227). -/
def readUsed (s : State) (locs : List Nat) : State := if (unjoined s locs).isEmpty then s else s.used locs.length
def readNoted (s : State) (a : Agent) (locs : List Nat) : Agent :=
  let hot := unjoined s locs
  noteReads s a (if hot.isEmpty then locs else locs.filter (fun x => !hot.contains x))

/-- A read at issue, then what follows with its bytes; a line away is fetched first (R123, R161, R208). -/
def withRead (s : State) (a : Agent) (r : Except ReadFail (List Byte × List Nat)) (go : State → Agent → List Byte → Act) : Act :=
  match r with
  | .error e => failRead s a e
  | .ok (bs, locs) =>
    match readAway s a locs with
    | some x => .wait (fetchIssue s a x)
    | none => go (readUsed s locs) (readNoted s a locs) bs

/-- The codebook of a slot, when it has one (R123). -/
def readBook (s : State) (a : Agent) (slot : Nat) : Except ReadFail (List Byte × List Nat) :=
  if slotFmt slot = 10 then readAtIssue s a (slotAddr slot) 32 else .ok ([], [])

end Sys2Proof.Machine
end

