-- ==== Sys2Proof/Machine/Control.lean ====
section
/-! DEFINITION. The control block but LAUNCH and CWAIT, 0x0C0 to 0x0CC: branches, structured divergence, the end of a team, and yield
(R114 to R118), with the check and the making of a grid from its launch record (R298 to R301). -/

namespace Sys2Proof.Machine

/-! ### Branches (R53, R114) -/

/-- The signed 24-bit word offset of a branch-class F word (R53). -/
def branchOffset (f : FArgs) : Int := signedN 24 (f.d.toNat * 65536 + f.a.toNat * 256 + f.b.toNat)
/-- The address of the branch + 8 × offset. -/
def branchTarget (a : Agent) (f : FArgs) : DWord := BitVec.ofNat 64 (wrapN 64 ((a.pc.toNat : Int) + 8 * branchOffset f))

def execNop (f : FArgs) (s : State) := issue (.nop f) s (fun s _ => .go s)

def execBra (f : FArgs) (s : State) := issue (.bra f) s (fun s a =>
  if guardOn a (.bra f) then .goTo s (branchTarget a f) else .go s)

def execBraL (x : LArgs) (s : State) := issue (.braL x) s (fun s a =>
  if guardOn a (.braL x) then .goTo s (BitVec.ofNat 64 (wrapN 64 ((a.pc.toNat : Int) + 8 * x.imm33.toInt))) else .go s)

/-- An indirect transfer to an address, which must be a multiple of 8 (R49). -/
def jumpTo (s : State) (t : Nat) : Act := if t % 8 ≠ 0 then .trap .misaligned t else .goTo s (BitVec.ofNat 64 t)

def execBrx (f : FArgs) (s : State) := issue (.brx f) s (fun s a =>
  if guardOn a (.brx f) then jumpTo s (rdN a f.a.toNat 2 0) else .go s)

def execCall (f : FArgs) (s : State) := issue (.call f) s (fun s a =>
  if guardOn a (.call f) then .goTo (s.setMe (sPut a 60 (loWord (a.pc + 8)))) (branchTarget a f) else .go s)

def execRet (f : FArgs) (s : State) := issue (.ret f) s (fun s a =>
  if guardOn a (.ret f) then jumpTo s ((hiWord a.pc).toNat * 2 ^ 32 + rd1 a f.a 0) else .go s)

/-! ### The mask stack (R29 to R31, R115) -/

/-- The lanes a team has. -/
def teamLanes (a : Agent) : Mask := BitVec.ofNat 1024 (2 ^ a.nlanes - 1)

/-- The lanes in which the condition of a divergence instruction holds (R58, R115). -/
def condMask (a : Agent) (i : Instr) : Mask :=
  lanesMask ((List.range a.nlanes).filter (guardTrue a (shapeOf i)))

/-- Push an entry; onto a full hardware stack, the oldest hardware entry goes to the stack area, none when it does not fit
there (R30). A choice of the model (log entry 39): the stack area is not translated, so a spill or refill takes no fault where
its page is absent or not writable; R320 lists none for it. -/
def pushEntry (a : Agent) (e : MaskEntry) : Option Agent :=
  if a.stack.length < 16 then some { a with stack := e :: a.stack }
  else match a.stack.getLast? with
    | none => some { a with stack := [e] }
    | some old =>
      if a.stackSize < 280 * (a.spilled.length + 1) then none
      else some { a with stack := e :: a.stack.dropLast, spilled := old :: a.spilled }

/-- An entry read back from the stack area: what software wrote over is indeterminate (R31). -/
def refilled (s : State) (a : Agent) (e : MaskEntry) : MaskEntry :=
  if e.spoilt then
    { outer := Config.freeRow s.freeCtr &&& teamLanes a, alt := Config.freeRow (s.freeCtr + 1) &&& teamLanes a
      kind := e.kind, addr := Config.freeValue (s.freeCtr + 2), spoilt := false }
  else e

/-- Pop the top entry; a pop that empties the hardware stack reads the most recent spilled entry back, whose bytes stay in the
stack area (R30). -/
def popEntry (s : State) (a : Agent) : State :=
  match a.stack.drop 1, a.spilled with
  | [], e :: es =>
    let b := if e.spoilt then a else leaveBytes a es.length e
    (s.setMe { b with stack := [refilled s a e], spilled := es }).used 3
  | rest, _ => s.setMe { a with stack := rest }

/-- The most recent entry, in hardware or spilled, as it reads (R115). Software that reloads a team may leave all its entries in the stack
area (R338). -/
def topEntry (s : State) (a : Agent) : Option MaskEntry :=
  match a.stack with
  | e :: _ => some e
  | [] => a.spilled.head?.map (refilled s a)

/-- The most recent entry takes a kind. -/
def Agent.setTop (a : Agent) (kind : Region) : Agent :=
  match a.stack, a.spilled with
  | e :: es, _ => { a with stack := { e with kind := kind } :: es }
  | [], e :: es => { a with spilled := { e with kind := kind } :: es }
  | [], [] => a

/-- Pop the most recent entry, wherever it is: a spilled one is read back first. -/
def popTop (s : State) (a : Agent) : State :=
  match a.stack, a.spilled with
  | [], e :: es =>
    let b := if e.spoilt then a else leaveBytes a es.length e
    popEntry (s.used 3) { b with stack := [refilled s a e], spilled := es }
  | _, _ => popEntry s a

/-- The free values that reading the most recent entry takes. -/
def topUsed (s : State) (a : Agent) : State := if a.stack.isEmpty then s.used 3 else s

def execDivIf (f : FArgs) (s : State) := issue (.divIf f) s (fun s a =>
  let g := condMask a (.divIf f)
  match pushEntry a { outer := a.mask, alt := a.mask &&& ~~~g, kind := .ifArm, addr := branchTarget a f, spoilt := false } with
  | none => .trap .stackOverflow 0
  | some a' => if a.mask &&& g = 0 then .goTo (s.setMe a') (branchTarget a f) else .go (s.setMe { a' with mask := a.mask &&& g }))

def execDivElse (f : FArgs) (s : State) := issue (.divElse f) s (fun s a =>
  match topEntry s a with
  | some e =>
    if e.kind = .ifArm then
      let a' := a.setTop .elseArm
      let s := topUsed s a
      if e.alt = 0 then .goTo (s.setMe a') (branchTarget a f) else .go (s.setMe { a' with mask := e.alt })
    else .go s
  | none => .go s)

def execDivJoin (f : FArgs) (s : State) := issue (.divJoin f) s (fun s a =>
  match topEntry s a with
  | some e => if e.kind = .loop then .go s else .go (popTop s { a with mask := e.outer })
  | none => .go s)

def execDivLoop (f : FArgs) (s : State) := issue (.divLoop f) s (fun s a =>
  let g := condMask a (.divLoop f)
  if a.mask &&& g = 0 then .goTo s (branchTarget a f)
  else match pushEntry a { outer := a.mask, alt := 0, kind := .loop, addr := a.pc + 8, spoilt := false } with
    | none => .trap .stackOverflow 0
    | some a' => .go (s.setMe { a' with mask := a.mask &&& g }))

/-- The entries after lanes leave the most recent loop: those above it lose the lanes, and the loop's own records them; none
when no loop is open (R115). -/
def breakOut (leave : Mask) : List MaskEntry → Option (List MaskEntry)
  | [] => none
  | e :: es =>
    if e.kind = .loop then some ({ e with alt := e.alt ||| leave } :: es)
    else (breakOut leave es).map ({ e with outer := e.outer &&& ~~~leave, alt := e.alt &&& ~~~leave } :: ·)

def execDivBrk (f : FArgs) (s : State) := issue (.divBrk f) s (fun s a =>
  let leave := a.mask &&& condMask a (.divBrk f)
  match breakOut leave (a.stack ++ a.spilled) with
  | none => .go s
  | some es => .go (s.setMe { a with mask := a.mask &&& ~~~leave, stack := es.take a.stack.length
                                     spilled := es.drop a.stack.length }))

/-- DIV.NEXT; an address that software has written into the entry may be misaligned, which traps as any indirect transfer (R31, R49). -/
def execDivNext (f : FArgs) (s : State) := issue (.divNext f) s (fun s a =>
  match topEntry s a with
  | some e =>
    if e.kind = .loop then
      let m := a.mask &&& condMask a (.divNext f)
      if m = 0 then .go (popTop s { a with mask := e.outer })
      else if e.addr.toNat % 8 ≠ 0 then .trap .misaligned e.addr.toNat
      else .goTo ((topUsed s a).setMe { a with mask := m }) e.addr
    else .go s
  | none => .go s)

/-! ### End of a team, and yield (R117, R118) -/

/-- An agent leaves its slot: its registers, mask stack and record of arrivals go with it. -/
def dropAgent (s : State) (k : Nat) : State := { s with agents := Tab.erase s.agents k, goneUnits := Tab.put s.goneUnits k (s.agent k).unit }

/-- A yield by an instruction, or by its yield bit. -/
def execYieldTeam (f : FArgs) (s : State) := issue (.yieldTeam f) s (fun s a =>
  if guardOn a (.yieldTeam f) then .go (yieldAgent s s.cur) else .go s)

/-! ### Launch records (R15, R298 to R301) -/

/-- Field readers of a launch record. -/
def recLanes (r : List Byte) : Nat := sliceN r 8 2
def recStrand (r : List Byte) : Nat := sliceN r 10 1
def recGang (r : List Byte) : Nat := sliceN r 11 1 + 1
def recPrio (r : List Byte) : Nat := fieldN (sliceN r 12 1) 0 2
def recPclass (r : List Byte) : Nat := fieldN (sliceN r 12 1) 2 2
/-- The release scope code: 2 `.d` or 3 `.f` (R298, R305). -/
def recRscope (r : List Byte) : Nat := 2 + fieldN (sliceN r 12 1) 4 2
def recHandle (r : List Byte) : Nat := sliceN r 44 4
def recMap (r : List Byte) : Nat := sliceN r 228 1 % 8
def recProducer (r : List Byte) : Nat := sliceN r 224 4
def recX (r : List Byte) : Nat := sliceN r 0 4
def recY (r : List Byte) : Nat := sliceN r 4 2
def recZ (r : List Byte) : Nat := sliceN r 6 2
/-- The workgroup count of a grid. -/
def recCount (r : List Byte) : Nat := recX r * recY r * recZ r

/-- Role k: its entry, stack area, team count, register count, kind (R299). -/
def roleAt (r : List Byte) (k o n : Nat) : Nat := sliceN r (64 + 24 * k + o) n
def roleEntry (r : List Byte) (k : Nat) : Nat := roleAt r k 0 8
def roleStack (r : List Byte) (k : Nat) : Nat := roleAt r k 8 8
def roleStackSize (r : List Byte) (k : Nat) : Nat := roleAt r k 16 4
def roleTeams (r : List Byte) (k : Nat) : Nat := roleAt r k 20 1
def roleRegs (r : List Byte) (k : Nat) : Nat := roleAt r k 21 1
def roleForester (r : List Byte) (k : Nat) : Bool := bitN (roleAt r k 22 1) 0

/-- A role entry keeps R15 and R299. -/
def roleOk (r : List Byte) (k : Nat) : Bool :=
  if roleTeams r k = 0 then sliceN r (64 + 24 * k) 24 == 0
  else
    roleEntry r k % 8 == 0 && decide (roleEntry r k < 2 ^ 50) && roleStack r k % 8 == 0 && decide (roleStack r k < 2 ^ 50)
      && roleStackSize r k % 280 == 0 && decide (roleAt r k 22 1 ≤ 1) && roleAt r k 23 1 == 0
      && (if roleForester r k then roleTeams r k == 1 && roleRegs r k == 0
          else decide (1 ≤ roleRegs r k) && decide (roleRegs r k ≤ 24))

/-- Some grove has a bank in a mode on all its cores, or the bank has it at reset (R300). -/
def bankHad (s : State) (b mode : Nat) : Bool :=
  resetMode b == mode
    || (List.range 64).any (fun g => (List.range 8).all (fun c => (s.core (8 * g + c)).mode b == mode))

/-- Bank masks that a record may ask for (R300). -/
def masksOk (s : State) (sp fifo : Nat) : Bool :=
  sp &&& fifo == 0 && (List.range 32).all (fun b => (!bitN sp b || bankHad s b 1) && (!bitN fifo b || bankHad s b 2))

/-- A launch record that the front end accepts, but for its handle (R14, R15, R19, R27, R298 to R300). -/
def recordOk (s : State) (r : List Byte) (child : Bool) : Bool :=
  let teams := roleTeams r 0 + roleTeams r 1 + roleTeams r 2 + roleTeams r 3
  let lanes := recLanes r
  let strand := recStrand r
  let map := sliceN r 228 1
  let addrs := [sliceN r 16 8, sliceN r 24 8, sliceN r 48 8, sliceN r 240 8, sliceN r 248 8]
  decide (32 ≤ lanes) && decide (lanes ≤ 1024) && (strand == 16 || strand == 32 || strand == 64)
    && lanes % 32 == 0 && lanes % max 32 strand == 0
    && decide (1 ≤ teams) && decide (teams ≤ 128) && (List.range 4).all (roleOk r)
    && (child || decide (sliceN r 13 1 ≤ 10))
    && decide (recPclass r ≤ 2) && decide (recRscope r ≤ 3) && fieldN (sliceN r 12 1) 6 2 == 0
    && decide (map ≤ 4) && sliceN r 14 2 == 0 && sliceN r 56 8 == 0 && sliceN r 230 2 == 0
    && addrs.all (fun x => decide (x < 2 ^ 50)) && sliceN r 48 8 % 4 == 0 && sliceN r 240 8 % 4 == 0 && sliceN r 248 8 % 8 == 0
    && (map == 4 || sliceN r 248 8 == 0) && (map != 4 || sliceN r 248 8 != 0) && (map == 0 || recProducer r != 0)
    && (List.range 8).all (fun k => !slotMalformed (sliceN r (160 + 8 * k) 8))
    && masksOk s (sliceN r 36 4) (sliceN r 40 4)

/-- A live grid of an address space with a handle. -/
def liveGrid (s : State) (asid handle : Nat) : Option Nat :=
  (s.grids.find? (fun e => e.2.asid == asid && e.2.gridId.toNat == handle)).map (·.1)

/-- The next handle of a child grid that no live grid has, in rising order modulo 2^31 (R301). -/
def childHandle (s : State) : Nat :=
  let at_ := fun n => 0x80000000 + (s.nextChild % 2 ^ 31 + n) % 2 ^ 31
  ((List.range (s.grids.length + 1)).find? (fun n => !(s.grids.any (fun e => e.2.gridId.toNat == at_ n)))).elim (at_ 0) at_

/-- A launch that has been taken up with a record that is accepted, and whose grid is still to be made (R295, R300). -/
def launchDue (x : Cmd) : Bool := sliceN x.bytes 0 1 == 1 && !x.begun && !x.done && x.verdict == some 0

/-- The producer that a record names, if it is live: a grid, or a launch taken up that will be one (R302). -/
def liveProducer (s : State) (asid : Nat) (r : List Byte) : Option Nat :=
  if recProducer r = 0 then none
  else match liveGrid s asid (recProducer r) with
    | some k => some k
    | none => (s.cmds.find? (fun e => launchDue e.2 && e.2.asid == asid && recHandle e.2.record == recProducer r)).map (·.1)

/-- The record of a producer. -/
def producerRecord (s : State) (k : Nat) : Option (List Byte) :=
  match Tab.find s.grids k with
  | some g => some g.record
  | none => (Tab.find s.cmds k).map Cmd.record

/-- The scope of the first opens of a grid's teams: the producer's RSCOPE, `.f` when the producer has gone, `.d` when there is none
(R305; log entry 54). -/
def firstOpen (s : State) (r : List Byte) (producer : Option Nat) : Nat :=
  if recProducer r = 0 then 2 else (producer.bind (producerRecord s)).elim 3 recRscope

/-- A grid enters the distributor (R119, R300, R301): `producer` was live at its take-up. Its key is the number of its take-up, that of
its command or of its LAUNCH. -/
def addGrid (s : State) (key : Nat) (r : List Byte) (asid handle depth prio : Nat) (parent : Option (Nat × Nat × Nat))
    (cmd producer : Option Nat) (view : Tab Byte) : State :=
  let g : Grid :=
    { gridId := BitVec.ofNat 32 handle, asid := asid, record := r, depth := depth, prio := prio, parent := parent, cmd := cmd
      order := key, producer := producer
      placed := [], retired := 0, stopped := false, eligible := [], done := false, status := 0, view := view
      mark := match parent with | some (k, _, _) => (s.agent k).sideSeq | none => 0
      members := [], openScope := firstOpen s r producer }
  { s with grids := Tab.put s.grids key g, nextOrder := max s.nextOrder (key + 1) }

/-- What an agent sees that others need not yet, the oldest first: the bytes its grid was forked with, those of its bundles that
have not committed, its issued closes', and its own (R119, R236). -/
def privateView (s : State) (a : Agent) : Tab Byte :=
  let base := ((Tab.find s.grids a.grid).map Grid.view).getD []
  overlay (overlay (a.closes.foldl (fun t c => overlay t c.bytes) (overlay base a.bundled)) a.kept) a.stores

/-- The live children of an agent (R20, R120). -/
def childrenOf (s : State) (k : Nat) (a : Agent) : List Nat :=
  (s.grids.filter (fun e => (match e.2.parent with
    | some (j, w, _) => j == k && w == a.wg
    | none => false) && !e.2.done)).map (·.1)

end Sys2Proof.Machine
end

