-- ==== Sys2Proof/Machine/IntLogic.lean ====
section
/-! DEFINITION. The integer and logic block, 0x000 to 0x021 (R87 to R95), and the slots of a P pair (R63 to R66). -/

namespace Sys2Proof.Machine

/-! ### Values, over numbers of N bits -/

/-- A number of N bits as the signed or unsigned integer it stands for. -/
def intOf (u : Bool) (n x : Nat) : Int := if u then ((x % 2 ^ n : Nat) : Int) else signedN n x

/-- Clamp an integer to the N-bit range; SAT when clamped. -/
def clampN (u : Bool) (n : Nat) (x : Int) : Nat × Word :=
  let lo : Int := if u then 0 else -((2 ^ (n - 1) : Nat) : Int)
  let hi : Int := if u then ((2 ^ n : Nat) : Int) - 1 else ((2 ^ (n - 1) : Nat) : Int) - 1
  if x < lo then (wrapN n lo, flagSAT) else if hi < x then (wrapN n hi, flagSAT) else (wrapN n x, 0)

def addN (n x y : Nat) : Nat := (x + y) % 2 ^ n
def subN (n x y : Nat) : Nat := wrapN n ((x : Int) - (y : Int))
def addSatN (u : Bool) (n x y : Nat) : Nat × Word := clampN u n (intOf u n x + intOf u n y)
def mulN (n x y : Nat) : Nat := x * y % 2 ^ n
def mulHighN (u : Bool) (n x y : Nat) : Nat := wrapN (2 * n) (intOf u n x * intOf u n y) / 2 ^ n
def madN (n x y d : Nat) : Nat := (x * y + d) % 2 ^ n

/-- Byte i of a word, signed or unsigned (R88). -/
def byteInt (u : Bool) (x i : Nat) : Int := intOf u 8 (fieldN x (8 * i) 8)
def dp4 (ua ub : Bool) (x y d : Nat) : Nat :=
  wrapN 32 ((d : Int) + byteInt ua x 0 * byteInt ub y 0 + byteInt ua x 1 * byteInt ub y 1
    + byteInt ua x 2 * byteInt ub y 2 + byteInt ua x 3 * byteInt ub y 3)

/-- Quotient and remainder with truncation toward zero; by zero, all ones and the dividend, with DZ (R89). -/
def divN (u : Bool) (n x y : Nat) : Nat × Nat × Word :=
  let a := intOf u n x
  let b := intOf u n y
  if b = 0 then (2 ^ n - 1, x % 2 ^ n, flagDZ)
  else (wrapN n (Int.tdiv a b), wrapN n (a - Int.tdiv a b * b), 0)

def minN (u : Bool) (n x y : Nat) : Nat := if intOf u n x ≤ intOf u n y then x else y
def maxN (u : Bool) (n x y : Nat) : Nat := if intOf u n x ≤ intOf u n y then y else x

/-- The saturating and the wrapping form of |a| and of -a (R87). -/
def absN (sat : Bool) (n x : Nat) : Nat × Word :=
  let v := signedN n x
  if sat then clampN false n (Int.natAbs v : Int) else (wrapN n (Int.natAbs v : Int), 0)
def negN (sat : Bool) (n x : Nat) : Nat × Word :=
  let v := signedN n x
  if sat then clampN false n (-v) else (wrapN n (-v), 0)

/-- The conditions of ICMP (R90). -/
def condInt (c : Nat) (x y : Int) : Bool :=
  if c = 0 then decide (x = y) else if c = 1 then decide (x ≠ y) else if c = 2 then decide (x < y)
  else if c = 3 then decide (x ≤ y) else if c = 4 then decide (y < x) else decide (y ≤ x)

/-- A comparison result shifted into a destination (R59). -/
def shiftIn (d : Nat) (c : Bool) : Nat := (d * 2 + b2n c) % 2 ^ 32

def notN (n x : Nat) : Nat := 2 ^ n - 1 - x % 2 ^ n
def andnN (n x y : Nat) : Nat := x &&& notN n y

/-- The shifts, by an amount of 8 bits (R91). -/
def shlN (n x k : Nat) : Nat := if n ≤ k then 0 else x * 2 ^ k % 2 ^ n
def shrN (n x k : Nat) : Nat := if n ≤ k then 0 else x / 2 ^ k
def sarN (n x k : Nat) : Nat := if n ≤ k then (if bitN x (n - 1) then 2 ^ n - 1 else 0) else wrapN n (signedN n x / ((2 ^ k : Nat) : Int))
def rotN (n x k : Nat) : Nat := let r := k % n; (x * 2 ^ r % 2 ^ n) ||| (x / 2 ^ (n - r))

/-- Bit-field extract and insert (R92). -/
def bfx (u : Bool) (x b : Nat) : Nat :=
  let pos := b % 256
  let len := b / 256 % 256
  let y := if 32 ≤ pos then 0 else x / 2 ^ pos
  if len = 0 then 0 else if 32 ≤ len then y else wrapN 32 (intOf u len y)
def bfi (x b d : Nat) : Nat :=
  let pos := b % 256
  let len := b / 256 % 256
  if 32 ≤ pos then d else setFieldN d pos (min len (32 - pos)) x

/-- The number of 1 bits among the low n. -/
def popN : Nat → Nat → Nat
  | 0, _ => 0
  | n + 1, x => x % 2 + popN n (x / 2)
/-- Trailing zeros, counted to n. -/
def ctzN : Nat → Nat → Nat
  | 0, _ => 0
  | n + 1, x => if x % 2 = 1 then 0 else 1 + ctzN n (x / 2)
/-- The low n bits in reverse order. -/
def revN : Nat → Nat → Nat
  | 0, _ => 0
  | n + 1, x => x % 2 * 2 ^ n + revN n (x / 2)
def clzN (n x : Nat) : Nat := ctzN n (revN n x)

/-- The selection of R93. -/
def selN (m : BitVec 6) (x y d : Nat) : Nat := if xor (bitN d (m.toNat % 32)) (mb m 5) then x else y

/-- The offset of LEA (R94): sign-extended, or zero-extended with `.u`, an immediate from its 8-bit field. -/
def leaOffset (a : Agent) (f : FArgs) (l : Nat) : Int :=
  if mb f.mod 5 then (if f.imm then (f.b.toNat : Int) else (rd1 a f.b l : Int))
  else if f.imm then f.b.toInt else signedN 32 (rd1 a f.b l)

/-! ### Operands of the block -/

/-- The operand width N, and an operand of N bits in a lane (R82). -/
def wN (f : FArgs) : Nat := 32 * nW f
def aW (a : Agent) (f : FArgs) (l : Nat) : Nat := rdN a f.a.toNat (nW f) l
def bW (a : Agent) (f : FArgs) (l : Nat) : Nat := bVal a f (nW f) l
def dW (a : Agent) (f : FArgs) (l : Nat) : Nat := rdN a f.d.toNat (nW f) l
/-- The U bit (R82). -/
def uBit (f : FArgs) : Bool := mb f.mod 0
/-- The shift amount: 8 bits of the register or the immediate's field (R91). -/
def shiftAmt (a : Agent) (f : FArgs) (l : Nat) : Nat := if f.imm then f.b.toNat else rd1 a f.b l % 256

/-- An instruction that writes a value computed per lane. -/
def alu (i : Instr) (s : State) (d : Reg) (n : Nat) (g : Agent → Nat → Nat) : Host.Outcome State Fault Refusal :=
  issue i s (onAgent (fun a => wrLanes a i d n (g a)))

/-- An instruction that writes a value computed per lane and sets sticky flags. -/
def aluFlags (i : Instr) (s : State) (d : Reg) (n : Nat) (g : Agent → Nat → Nat × Word) : Host.Outcome State Fault Refusal :=
  issue i s (onAgent (fun a => wrFlags a i d n (g a)))

/-- A long-latency arithmetic instruction: its result and flags come at completion (R39, R85). -/
def aluLong (i : Instr) (s : State) (d : Reg) (n : Nat) (srcs : List Reg) (g : Agent → Nat → Nat × Word) :
    Host.Outcome State Fault Refusal :=
  issue i s (fun s a => .long s { mkEntry a i d n false false srcs (fun l => (g a l).1) with
    flags := (List.range (if isS d then 1 else a.nlanes)).map (fun l => if actsIn a i l then (g a l).2 else 0) })

/-- The registers of an operand of n registers. -/
def group (r : Reg) (n : Nat) : List Reg := (List.range n).map (fun k => r + BitVec.ofNat 8 k)

/-! ### The instructions -/

def execIadd (f : FArgs) (s : State) := alu (.iadd f) s f.d (nW f) (fun a l => addN (wN f) (aW a f l) (bW a f l))
def execIsub (f : FArgs) (s : State) := alu (.isub f) s f.d (nW f) (fun a l => subN (wN f) (aW a f l) (bW a f l))
def execIadds (f : FArgs) (s : State) := aluFlags (.iadds f) s f.d (nW f) (fun a l => addSatN (uBit f) (wN f) (aW a f l) (bW a f l))
def execImul (f : FArgs) (s : State) := alu (.imul f) s f.d (nW f) (fun a l => mulN (wN f) (aW a f l) (bW a f l))
def execImulh (f : FArgs) (s : State) := alu (.imulh f) s f.d (nW f) (fun a l => mulHighN (uBit f) (wN f) (aW a f l) (bW a f l))
def execImad (f : FArgs) (s : State) := alu (.imad f) s f.d (nW f) (fun a l => madN (wN f) (aW a f l) (bW a f l) (dW a f l))
def execIdp4 (f : FArgs) (s : State) :=
  alu (.idp4 f) s f.d 1 (fun a l => dp4 (uBit f) (mb f.mod 2) (rd1 a f.a l) (rd1 a f.b l) (rd1 a f.d l))
def execIdiv (f : FArgs) (s : State) := aluLong (.idiv f) s f.d (nW f) (group f.a (nW f) ++ group f.b (nW f))
  (fun a l => let q := divN (uBit f) (wN f) (aW a f l) (bW a f l); (q.1, q.2.2))
def execIrem (f : FArgs) (s : State) := aluLong (.irem f) s f.d (nW f) (group f.a (nW f) ++ group f.b (nW f))
  (fun a l => let q := divN (uBit f) (wN f) (aW a f l) (bW a f l); (q.2.1, q.2.2))
def execImin (f : FArgs) (s : State) := alu (.imin f) s f.d (nW f) (fun a l => minN (uBit f) (wN f) (aW a f l) (bW a f l))
def execImax (f : FArgs) (s : State) := alu (.imax f) s f.d (nW f) (fun a l => maxN (uBit f) (wN f) (aW a f l) (bW a f l))
def execIabs (f : FArgs) (s : State) := aluFlags (.iabs f) s f.d (nW f) (fun a l => absN (mb f.mod 2) (wN f) (aW a f l))
def execIneg (f : FArgs) (s : State) := aluFlags (.ineg f) s f.d (nW f) (fun a l => negN (mb f.mod 2) (wN f) (aW a f l))
def execIcmp (f : FArgs) (s : State) := alu (.icmp f) s f.d 1 (fun a l =>
  shiftIn (rd1 a f.d l) (condInt (f.mod.toNat / 4 % 8) (intOf (uBit f) (wN f) (aW a f l)) (intOf (uBit f) (wN f) (bW a f l))))
def execAndB (f : FArgs) (s : State) := alu (.andB f) s f.d (nW f) (fun a l => aW a f l &&& bW a f l)
def execOrB (f : FArgs) (s : State) := alu (.orB f) s f.d (nW f) (fun a l => aW a f l ||| bW a f l)
def execXorB (f : FArgs) (s : State) := alu (.xorB f) s f.d (nW f) (fun a l => aW a f l ^^^ bW a f l)
def execAndn (f : FArgs) (s : State) := alu (.andn f) s f.d (nW f) (fun a l => andnN (wN f) (aW a f l) (bW a f l))
def execNotB (f : FArgs) (s : State) := alu (.notB f) s f.d (nW f) (fun a l => notN (wN f) (aW a f l))
def execShl (f : FArgs) (s : State) := alu (.shl f) s f.d (nW f) (fun a l => shlN (wN f) (aW a f l) (shiftAmt a f l))
def execShr (f : FArgs) (s : State) := alu (.shr f) s f.d (nW f) (fun a l => shrN (wN f) (aW a f l) (shiftAmt a f l))
def execSar (f : FArgs) (s : State) := alu (.sar f) s f.d (nW f) (fun a l => sarN (wN f) (aW a f l) (shiftAmt a f l))
def execRot (f : FArgs) (s : State) := alu (.rot f) s f.d (nW f) (fun a l => rotN (wN f) (aW a f l) (shiftAmt a f l))
def execBfx (f : FArgs) (s : State) := alu (.bfx f) s f.d 1 (fun a l => bfx (uBit f) (rd1 a f.a l) (rd1 a f.b l))
def execBfi (f : FArgs) (s : State) := alu (.bfi f) s f.d 1 (fun a l => bfi (rd1 a f.a l) (rd1 a f.b l) (rd1 a f.d l))
def execPopc (f : FArgs) (s : State) := alu (.popc f) s f.d 1 (fun a l => popN (wN f) (aW a f l))
def execClz (f : FArgs) (s : State) := alu (.clz f) s f.d 1 (fun a l => clzN (wN f) (aW a f l))
def execCtz (f : FArgs) (s : State) := alu (.ctz f) s f.d 1 (fun a l => ctzN (wN f) (aW a f l))
def execBrev (f : FArgs) (s : State) := alu (.brev f) s f.d (nW f) (fun a l => revN (wN f) (aW a f l))
def execSel (f : FArgs) (s : State) := alu (.sel f) s f.d 1 (fun a l => selN f.mod (rd1 a f.a l) (bVal a f 1 l) (rd1 a f.d l))
def execMov (f : FArgs) (s : State) := alu (.mov f) s f.d (nW f) (fun a l => aW a f l)
def execMovi (f : FArgs) (s : State) := alu (.movi f) s f.d (nW f) (fun a l => bVal a f (nW f) l)
def execLea (f : FArgs) (s : State) := alu (.lea f) s f.d 2 (fun a l =>
  wrapN 64 ((rdN a f.a.toNat 2 l : Int) + leaOffset a f l * ((2 ^ (f.mod.toNat / 4 % 8) : Nat) : Int)))
def execMovw (x : LArgs) (s : State) := alu (.movw x) s x.d (if mb x.mod 1 then 2 else 1) (fun _ _ =>
  if mb x.mod 1 then wrapN 64 x.imm33.toInt else x.imm33.toNat % 2 ^ 32)

end Sys2Proof.Machine
end

