-- ==== Sys2Proof/Machine/Rank.lean ====
section
/-! DEFINITION. The collective engine's record, its schedule, the sending of a rank's own data, and the fork of a collective
(R384 to R387). -/

namespace Sys2Proof.Machine

/-! ### The engine's reads (R385) -/

/-- What the engine's read of some bytes meets. -/
inductive EngineGot where
  | bytes (bs : List Byte)
  | fail
  | away (loc : Nat)

/-- n bytes the engine reads in an address space, through the front end's translation path. -/
def engineRead (s : State) (asid va n : Nat) : EngineGot :=
  match xlateRange s 640 asid va n .read false with
  | .error _ => .fail
  | .ok locs =>
    if locs.any (badAt s 16) then .fail
    else match locs.find? (fun x => (sharedByte s 64 x).isNone) with
    | none => .bytes (locs.map (fun x => (sharedByte s 64 x).getD 0))
    | some x => if reachable s (homeOf x) then .away x else .fail

def EngineGot.orNone : EngineGot → Option (List Byte)
  | .bytes bs => some bs
  | _ => none

/-! ### The record (R384) -/

def collOp (r : List Byte) : Nat := sliceN r 0 1
def collType (r : List Byte) : Nat := sliceN r 1 1
def collRank (r : List Byte) : Nat := sliceN r 2 2
def collRanks (r : List Byte) : Nat := sliceN r 4 2
def collMap (r : List Byte) : Nat := sliceN r 8 8
def collSrc (r : List Byte) : Nat := sliceN r 16 8
def collDst (r : List Byte) : Nat := sliceN r 24 8
def collCount (r : List Byte) : Nat := sliceN r 32 4
def collExpect (r : List Byte) : Nat := sliceN r 36 4
/-- Bytes of an input element, and of the whole source of an all-reduce. -/
def collElem (r : List Byte) : Nat := if collType r % 128 = 1 then 2 else 4
def collBytes (r : List Byte) : Nat := if collOp r = 0 then collCount r * collElem r else collCount r

/-- The record and the rank map are in range. -/
def collOk (s : State) (r : List Byte) (map : List Nat) : Bool :=
  let n := collRanks r
  decide (collOp r ≤ 1) && (collOp r == 1 || decide (collType r % 128 ≤ 2)) && sliceN r 6 2 == 0 && sliceN r 44 4 == 0
    && sliceN r 56 72 == 0 && decide (1 ≤ n) && decide (n ≤ 1058) && collMap r % 2 == 0
    && (collOp r == 0 || collCount r % 128 == 0) && decide (1 ≤ collExpect r) && decide (collExpect r ≤ 128)
    && map.all (fun d => decide (d ≤ 1057)) && map.dedup == map && map[collRank r]? == some s.device

/-! ### The schedule of an all-to-all (R387) -/

/-- The slots of the exchanges, and a rank's partner in one of them. -/
def collSlots (n : Nat) : Nat := n + n % 2 - 1
def collPartner (n i t : Nat) : Option Nat :=
  let m := collSlots n
  if m ≤ t then none
  else
    let j := if i = m then t else if i = t then m else (2 * t + m - i) % m
    if j < n then some j else none

/-- The device is at the far end of the port toward it. -/
def neighbour (s : State) (d : Nat) : Bool := (s.port (minPort s d)).neigh == d

/-- The way of an all-to-all's shard to a device: where that is no neighbour, by the pair's first intermediate, which forwards it
(R371, R387; log entry 65). -/
def shardPath (s : State) (d : Nat) : Nat × Nat :=
  if neighbour s d then choosePath s d 6 else (intermediates s d).headD (choosePath s d 6)

def State.coll (s : State) (c : Nat) : Collective := Tab.get s.collectives c Collective.reset
def State.setColl (s : State) (c : Nat) (x : Collective) : State := { s with collectives := Tab.put s.collectives c x }

/-- A shard operation: context, source rank, and the offset within the source's buffer in units of 128 octets (R365). -/
def shardOp (c : Nat) (x : Collective) (off : Nat) (data : List Byte) : FabOp :=
  { kind := 8, flags := 0, key := 0, asid := x.asid, tag := 0, addr := 0
    arg := c * 2 ^ 40 + collRank x.fork % 2 ^ 16 * 2 ^ 24 + off, data := data ++ List.replicate (128 - data.length) 0, src := 0
    tc := 6 }

/-- A stretch of the source buffer goes to a device along a path, from a unit of 128 octets on. -/
def sendShards (s : State) (c : Nat) (x : Collective) (dest : Nat) (path : Nat × Nat) (first : Nat) (bs : List Byte) : State :=
  (List.range ((bs.length + 127) / 128)).foldl (fun s k =>
    sendVia s dest path (shardOp c x (first + k) ((bs.drop (128 * k)).take 128)) (.coll c)) s

/-- What a rank sends at the beginning of a slot: its whole source to every rank, or one shard to its partner. -/
def startSlot (s : State) (c : Nat) : State :=
  let x := s.coll c
  let r := x.fork
  if !x.busy || x.bad || x.sent then s
  else
    let read := fun (va n : Nat) (go : List Byte → State) => match engineRead s x.asid va n with
      | .bytes bs => go bs
      | .fail => s.setColl c { x with bad := true }
      | .away loc => fetchLine s x.asid loc (.coll c)
    let done := s.setColl c { x with sent := true }
    if collOp r = 0 then
      read (collSrc r) (collBytes r) (fun bs =>
        (x.rankmap.filter (· != s.device)).foldl (fun s d => sendShards s c x d (choosePath s d 6) 0 bs) done)
    else match collPartner (collRanks r) (collRank r) x.slot with
      | none => done
      | some j =>
        read (collSrc r + j * collCount r) (collCount r) (fun bs =>
          let d := x.rankmap.getD j 0
          sendShards done c x d (shardPath s d) (j * (collCount r / 128)) bs)

/-- A collective forks: the engine reads the record and the rank map, and begins (R384, R385). -/
def forkCollective (s : State) (c : Nat) (x : Collective) : State :=
  let r := engineRead s x.asid x.recAddr.toNat 128
  let rec_ := r.orNone.getD []
  let n := collRanks rec_
  let m := if n ≤ 1058 then engineRead s x.asid (collMap rec_) (2 * n) else .bytes []
  let map := m.orNone.getD []
  let ranks := (List.range (map.length / 2)).map (fun k => sliceN map (2 * k) 2)
  let ok := r.orNone.isSome && m.orNone.isSome && collOk s rec_ ranks
  startSlot (s.setColl c { x with busy := true, slot := 0, sent := false, bad := !ok, fork := rec_, rankmap := ranks, pend := []
                                  forks := x.forks - 1 }) c

/-- The engine begins the collectives whose forks have come, those of one context one after another (R385; log entry 65). -/
def beginForks (s : State) : State :=
  s.collectives.foldl (fun s e =>
    let x := s.coll e.1
    if x.forks != 0 && !x.busy then forkCollective s e.1 x else s) s

end Sys2Proof.Machine
end

