-- ==== Sys2Proof/Machine/Strong.lean ====
section
/-! DEFINITION. A strong access at its local home (R196 to R200, R231 to R233), posted
accesses (R192, R199, R234), and the fault records of an access (R320 to R324). -/

namespace Sys2Proof.Machine

/-! ### One strong access at a local home -/

/-- What a strong access left: the state, the value it read, why it was not performed, and whether its value is
indeterminate. -/
structure Strong where
  s : State
  old : Nat
  err : Option Cause
  loose : Bool

/-- Of the strong accesses performed to a line, those whose bytes overlap a range; the latest of them with another base or size
(R233). -/
def overlapping (s : State) (loc n : Nat) : List (Nat × Nat × Nat × Nat) :=
  (Tab.get s.lastStrong (lineOf loc) []).filter (fun e => decide (e.1 < loc + n) && decide (loc < e.1 + e.2.1))
def mismatched (s : State) (loc n : Nat) : Option (Nat × Nat × Nat × Nat) :=
  (overlapping s loc n).head?.bind (fun e => if e.1 == loc && e.2.1 == n then none else some e)

/-- The bytes of a range that a conflict leaves indeterminate, by their places: those of an overlapping access of another agent, with
another base or size, after which this one has observed nothing (R233; log entry 28). -/
def racedBytes (s : State) (k loc n : Nat) : List Nat :=
  let es := (overlapping s loc n).filter (fun e => !(e.1 == loc && e.2.1 == n) && e.2.2.1 != k && decide ((s.agent k).lastObs < e.2.2.2))
  if es.isEmpty then [] else (List.range n).filter (fun i => es.any (fun e => decide (e.1 ≤ loc + i) && decide (loc + i < e.1 + e.2.1)))

/-- n bytes with those at some places indeterminate, from a place among the free values on. -/
def mixFree (s : State) (raced : List Nat) (base n x : Nat) : Nat :=
  if raced.isEmpty then x
  else ofBytes ((toBytes n x).zipIdx.map (fun e => if raced.contains e.2 then BitVec.ofNat 8 (s.free (base + e.2)) else e.1))

/-- A strong access of n bytes is performed: it is the latest to its bytes (R233). -/
def noteStrong (s : State) (k loc n : Nat) : State :=
  let others := (Tab.get s.lastStrong (lineOf loc) []).filter (fun e => !(decide (e.1 < loc + n) && decide (loc < e.1 + e.2.1)))
  { s with strongSeq := s.strongSeq + 1
           lastStrong := Tab.put s.lastStrong (lineOf loc) ((loc, n, k, s.strongSeq + 1) :: others) }

/-- A strong access of n bytes by an agent at a local home, at a place among the agent's writes: `f` gives the new value, none for no
write. In debug mode a mismatch is not performed; otherwise a conflict leaves the bytes that overlap indeterminate, in memory and in
what is read (R222, R233). Bundles that the agent has observed are made current at the line first (R240, R241). -/
def strongFrom (s : State) (k asid loc n num : Nat) (f : Nat → Option Nat) : Strong :=
  let s := flushLine (resolveReads s (s.agent k) [loc]) k loc
  if lineBad s (portOfAgent s k) (lineOf (loc % 2 ^ 40)) then ⟨s, 0, some .memUncorrectable, true⟩
  else if (mismatched s loc n).isSome && asidMsdbg s asid then ⟨s, 0, some .mixedSize, true⟩
  else
    let raced := racedBytes s k loc n
    let old := mixFree s raced 0 n (homeRead s loc n)
    let t := noteStrong (if raced.isEmpty then s else s.used (2 * n)) k loc n
    match (if raced.isEmpty then f old else some (mixFree s raced n n ((f old).getD old))) with
    | none => ⟨t, old, none, false⟩
    | some x => ⟨beginForks (homeWrite t k asid loc n x num), old, none, false⟩

/-- One that its agent issues now. -/
def strongAt (s : State) (k asid loc n : Nat) (f : Nat → Option Nat) : Strong := strongFrom s k asid loc n (nowNum s k) f

/-! ### One barrier operation at a local home (R246, R247, R254) -/

/-- A strong access to a barrier object: a read, BAR.INIT's write, or an arrival with a participant index. -/
inductive BarOp where
  | read
  | init (n : Nat)
  | arrive (k : Nat)

/-- An object to which no arrival is made: EXPECT is 0 or above 128 (R247). -/
def expectBad (o : List Byte) : Bool := decide (sliceN o 0 4 = 0) || decide (128 < sliceN o 0 4)

/-- The object after an arrival with an index (R247). -/
def arriveObject (o : List Byte) (k : Nat) : List Byte :=
  let expect := sliceN o 0 4
  let mask := sliceN o 16 16
  let gen := sliceN o 8 4
  let arrived := if bitN mask k then sliceN o 4 4 else sliceN o 4 4 + 1
  let mask := if bitN mask k then mask else mask + 2 ^ k
  if arrived = expect then [toBytes 4 expect, toBytes 4 0, toBytes 4 (gen + 1), toBytes 4 0, toBytes 16 0, o.drop 32].flatten
  else [toBytes 4 expect, toBytes 4 arrived, toBytes 4 gen, toBytes 4 0, toBytes 16 mask, o.drop 32].flatten

/-- What a barrier operation writes; none for no write. -/
def BarOp.new (op : BarOp) (o : List Byte) : Option (List Byte) :=
  match op with
  | .read => none
  | .init n => some [toBytes 4 n, toBytes 4 0, toBytes 4 (sliceN o 8 4 + 1), List.replicate 52 0].flatten
  | .arrive k => if expectBad o then none else some (arriveObject o k)

/-- What a barrier operation left: the state, the object as it read it, and why it was not performed. -/
structure BarRun where
  s : State
  old : List Byte
  err : Option Cause

/-- A barrier operation of an agent on an object of a local home: a strong access of 64 bytes, which is in conflict with others of
its line as R233 says. It leaves the object's fields as it writes them (R246); over a spilled mask-stack entry it is a write of
software (R31). -/
def objectAct (s : State) (k asid loc : Nat) (op : BarOp) : BarRun :=
  let s := flushLine (resolveReads s (s.agent k) [loc]) k loc
  if lineBad s (portOfAgent s k) (lineOf (loc % 2 ^ 40)) then ⟨s, [], some .memUncorrectable⟩
  else if (mismatched s loc 64).isSome && asidMsdbg s asid then ⟨s, [], some .mixedSize⟩
  else
    let raced := racedBytes s k loc 64
    let old := (List.range 64).map (fun i => if raced.contains i then BitVec.ofNat 8 (s.free i) else homeByte s (loc + i))
    let t := noteStrong (if raced.isEmpty then s else s.used 64) k loc 64
    match (if raced.isEmpty then op.new old else some ((op.new old).getD old)) with
    | none => ⟨t, old, none⟩
    | some o =>
      let bytes : Tab Byte := o.zipIdx.map (fun e => (loc + e.2, e.1))
      let w := softwareWrote t 0xFFFFFFFF (bytes.map (·.1))
      ⟨dropViews (giveWay (writeShared w asid bytes) k loc 64 (nowNum t k)) k bytes, old, none⟩

/-- The width in bits of an atomic's element, and how many elements, by operation and size (R196). -/
def atomFmt (sz : Nat) : Fmt := if sz = 3 then fp64 else if sz = 5 then fp16 else if sz = 6 then bf16 else fp32
/-- A float operation on each element (R197). -/
def atomFloat (op sz m x : Nat) : Nat :=
  let one := fun (y z : Nat) => (if op = 16 then faddC (atomFmt sz) 0 y z else fminmaxC (atomFmt sz) (op == 18) y z).1
  if 5 ≤ sz then one (m % 2 ^ 16) (x % 2 ^ 16) + 2 ^ 16 * one (fieldN m 16 16) (fieldN x 16 16) else one m x

/-- The new memory value m′ of R196. -/
def atomNew (op sz m x : Nat) : Nat :=
  let w := 8 * atomSzBytes op sz
  if op = 0 then m else if op = 1 then x else if op = 2 then addN w m x else if op = 3 then m &&& x
  else if op = 4 then m ||| x else if op = 5 then m ^^^ x
  else if op = 6 then minN false w m x else if op = 7 then maxN false w m x
  else if op = 8 then minN true w m x else if op = 9 then maxN true w m x
  else if op = 10 then (if x ≤ m then 0 else m + 1)
  else if op = 11 then (if m = 0 || x < m then x else m - 1)
  else atomFloat op sz m x

/-! ### Posted accesses -/

/-- One posted access is performed: a RED at its home, a store at another core's port. One whose home cannot be reached
stays (R199, R234, R399). -/
def performPosted (s : State) (e : Nat) (p : Posted) : State :=
  let done := { s with posted := Tab.erase s.posted e }
  match p.job with
  | .scratch port cells =>
    numberWrite (done.setCore port ((s.core port).store cells)) (cells.map (fun e => scratchPos port e.1))
  | .red ctrl ord loc va data =>
    if homeOf loc == s.device then
      let r := strongFrom done p.agent p.asid loc (atomSzBytes (ctrl / 8) (ctrl % 8)) p.num (fun m => some (atomNew (ctrl / 8) (ctrl % 8) m data))
      if r.err == some .mixedSize then
        r.s.modAgent p.agent (fun a => { a with reports := a.reports ++ [(.mixedSize, va)] })
      else r.s
    else
      let s := flushClosed s p.agent p.asid (lineOf loc)
      if reachable s (homeOf loc) && !lineHeld s loc then
        let s := giveWay { s with posted := Tab.erase s.posted e } p.agent loc (atomSzBytes (ctrl / 8) (ctrl % 8)) p.num
        sendOp s (homeOf loc) { kind := 3, flags := 0, key := 0, asid := p.asid, tag := 0, addr := loc % 2 ^ 40
                                arg := ctrl * 2 ^ 40 + ord * 2 ^ 32
                                data := toBytes 128 data, src := 0, tc := 1 } (.red p.agent va)
      else s

/-- An agent's posted accesses that meet a test are performed, in the order they were issued. -/
def drainPosted (s : State) (k : Nat) (p : PostedJob → Bool) : State :=
  (s.posted.filter (fun e => e.2.agent == k && p e.2.job)).foldl (fun s e => performPosted s e.1 e.2) s

/-- Posted stores of an agent to scratchpads are performed, before the fork of an engine operation that may read them (R175, R236). -/
def drainScratch (s : State) (k : Nat) : State :=
  drainPosted s k (fun j => match j with | .scratch _ _ => true | _ => false)

/-- Every posted access of an agent is performed (R234, R253). -/
def drainAll (s : State) (k : Nat) : State := drainPosted s k (fun _ => true)

/-- A join of an engine operation or of child grids: an open at `.d`, before which what the agent has posted is performed (R234, R236; log
entry 40). -/
def openJoin (s : State) (k : Nat) : State := openPhase (drainAll s k) k 2

/-- A remote byte among an agent's stores, or a RED of it, whose home cannot be reached: the first such address (R399). -/
def unplaceable (s : State) (k : Nat) : Option Nat :=
  match unreachableByte s k with
  | some x => some x
  | none => s.posted.findSome? (fun e => match e.2.job with
      | .red _ _ loc va _ => if e.2.agent == k && homeOf loc != s.device && !reachable s (homeOf loc) then some va else none
      | _ => none)

/-! ### Fault records (R320 to R324) -/

/-- The fault queue of an address space is in force (R314, R322). -/
def queueInForce (s : State) (asid : Nat) : Bool :=
  let ctl := sliceN (asidEntry s asid) 32 4
  asidValid s asid && bitN ctl 31 && decide (4 ≤ fieldN ctl 11 5) && decide (fieldN ctl 11 5 ≤ 14)

/-- The record of a fault of a team's access (R321). -/
def faultRec (a : Agent) (m : Miss) (va access : Nat) (whom : FaultOf) : FaultRec :=
  { asid := a.asid, va := va, cause := m.cause, access := access, malf := m.malf, user := !a.priv, source := a.core
    slot := a.slot, gridId := a.gridId, wgid := a.wgid, cursor := 0, ring := 0xFFFFFFFF, whom := whom, posted := none
    overflowed := false }

def addFault (s : State) (r : FaultRec) : State := { s with faults := s.faults ++ [{ r with device := s.device }] }

/-- The access of an instruction faults: it traps precisely at privileged level, in a forester context, and where no fault
queue is in force; else its team is held and a record is posted (R320, R322). -/
def heldFault (s : State) (a : Agent) (m : Miss) (va access : Nat) : Act :=
  if a.priv || a.kind == .forester || !queueInForce s a.asid then .trap m.cause va
  else .fault ((addFault s (faultRec a m va access (.hold s.cur))).setMe { a with state := .faultHold })

/-- The walk of an address ends at a leaf table of 64 KiB pages. -/
def leafLarge (s : State) (asid va : Nat) : Bool :=
  let top := s.mem.readNat (sliceN (asidEntry s asid) 0 8 + 8 * fieldN va 35 15) 8
  let middle := s.mem.readNat (fieldN top 10 38 * 1024 + 8 * fieldN va 23 12) 8
  asidValid s asid && bitN top 0 && !bitN top 1 && bitN middle 0 && !bitN middle 1 && bitN middle 2

/-- The page of an address: of its translation, or of the leaf table that has none for it; where the walk reaches neither, the
4 KiB around it (log entry 41). -/
def pageBase (s : State) (a : Agent) (va : Nat) : Nat :=
  match lookup s a.unit a.asid va with
  | .ok (size, _) => va / size * size
  | .error _ => if leafLarge s a.asid va then va / 65536 * 65536 else va / 4096 * 4096

/-- The bytes of an access, with their locations: the first failure in address order (R193). -/
def xlateSpan (s : State) (a : Agent) (va n : Nat) (p : Perm) : Except (Nat × Miss) (List Nat) :=
  if va % 4096 + n ≤ 4096 then
    match xlate s a.unit a.asid va p (!a.priv) with
    | .error m => .error (va, m)
    | .ok x => .ok ((List.range n).map (fun i => x + i))
  else xlateRange s a.unit a.asid va n p (!a.priv)

/-- The accesses of several lanes, as lane and address: each with its locations, or the first failure. -/
def xlateLanes (s : State) (a : Agent) (eas : List (Nat × Nat)) (n : Nat) (p : Perm) :
    Except (Nat × Miss) (List (Nat × Nat × List Nat)) :=
  eas.foldr (fun e r =>
    match xlateSpan s a e.2 n p with
    | .error m => .error m
    | .ok locs => r.map ((e.1, e.2, locs) :: ·)) (.ok [])

/-- The first effective address with a bit of [63:50] set, or byte of an access that reaches one (R178). -/
def rangeFault (eas : List (Nat × Nat)) (n : Nat) : Option Nat :=
  eas.findSome? (fun e => if 2 ^ 50 ≤ e.2 then some e.2 else if 2 ^ 50 < e.2 + n then some (2 ^ 50) else none)

/-- A token is free (R42, R146): 64 per core for its teams, 8 requests for a forester context. -/
def tokenFree (s : State) (a : Agent) : Bool :=
  let out := fun (b : Agent) => (b.lahead.filter (fun e => e.parks && !e.done)).length
  if a.kind == .forester then decide (out a < 8)
  else decide ((s.agents.foldl (fun n e => if e.2.kind == .team && e.2.core == a.core then n + out e.2 else n) 0) < 64)

end Sys2Proof.Machine
end

