-- ==== Sys2Proof/Machine/Bundles.lean ====
section
/-! DEFINITION. Bundles at their origin (R237 to R239, R242 to R244): identities, the versions a bundle places at its homes, room
for them, withdrawal, and publishing anew. -/

namespace Sys2Proof.Machine

/-- The identity of a bundle (R238). -/
def bundleIdent (dev core slot seq : Nat) : Nat := dev * 2 ^ 37 + core * 2 ^ 28 + slot * 2 ^ 24 + seq % 2 ^ 24

/-- The companion signature of a set of lines (R238). -/
def signature (lines : List Nat) : DWord :=
  lines.foldl (fun w ln =>
    let h := signatureHash ln
    w ||| BitVec.twoPow 64 (h / 2 ^ 58) ||| BitVec.twoPow 64 (h / 2 ^ 52 % 64)) 0

/-- The bytes of one line of a bundle. -/
def lineCells (bytes : Tab Byte) (line : Nat) : Tab Byte := bytes.filter (fun e => e.1 / 128 == line)

/-- The lines of a bundle at homes of this device, or at those of others. -/
def bundleHomes (s : State) (b : Bundle) (here : Bool) : List Nat :=
  b.lines.filter (fun ln => (homeOf (128 * ln) == s.device) == here)

/-! ### Room for versions (R242, R243) -/

/-- A version of another bundle stands at a home line (R243). -/
def versionHeld (s : State) (ident line : Nat) : Bool := s.versions.any (fun v => v.line == line && v.ident != ident)

/-- The home slice of a line: the hash is hidden (R185). -/
def sliceOfLine (line : Nat) : Nat := (Config.homeSlice line).toNat % 384

/-- The free entries of a slice: its buffer holds 2,048 lines, its spill area some more (R242). -/
def versionRoom (s : State) (sl : Nat) : Nat :=
  2048 + Config.spillLines.toNat - (s.versions.filter (fun v => sliceOfLine v.line == sl)).length

/-- A home takes a pending version: no other bundle's version of the line stands there, and its slice has an entry free, of which
the last is for the bundle refused there that has waited longest (R242, R243). -/
def takesVersion (s : State) (ident line : Nat) : Bool :=
  !versionHeld s ident line
    && (decide (s.versions.length < 2047)
      || (match s.refusals.find? (fun r => r.1 == sliceOfLine line) with
        | some r => if r.2 = ident then decide (0 < versionRoom s (sliceOfLine line)) else decide (1 < versionRoom s (sliceOfLine line))
        | none => decide (0 < versionRoom s (sliceOfLine line))))

/-- A bundle has been refused at a slice, or waits there no longer. -/
def addRefusal (s : State) (ident line : Nat) : State :=
  let r := (sliceOfLine line, ident)
  { s with refusals := if s.refusals.contains r then s.refusals else s.refusals ++ [r] }
def dropRefusals (s : State) (ident : Nat) : State := { s with refusals := s.refusals.filter (fun r => r.2 != ident) }

/-! ### Placing the versions (R239, R378) -/

/-- The mask form and the data form of a bundle-pending pair (R365). -/
def pendingOps (b : Bundle) (asid line : Nat) : FabOp × FabOp :=
  let cells := lineCells b.bytes line
  let mask := cells.foldl (fun m e => m + 2 ^ (e.1 % 128)) 0
  let hdr : List (List Byte) := [toBytes 16 mask, toBytes 8 b.sig.toNat, toBytes 2 (b.lines.length - 1), List.replicate 38 0]
  let op : FabOp := { kind := 6, flags := 1, key := 0, asid := asid, tag := 0, addr := 128 * line % 2 ^ 40, arg := b.ident
                      data := hdr.flatten, src := 0, tc := 5 }
  (op, { op with flags := 0, data := lineData [] b.bytes line })

/-- A local home takes a pending version of a bundle, or refuses it. -/
def placeVersion (b : Bundle) (s : State) (ln : Nat) : State :=
  if takesVersion s b.ident ln then
    { s with versions := s.versions ++ [⟨ln, b.ident, lineCells b.bytes ln, b.lines.length - 1, b.sig, false, none⟩] }
  else addRefusal s b.ident ln

/-- Place the pending versions of a bundle that are not yet placed: at local homes, and at others by request (R239). -/
def placeVersions (s : State) (id : Nat) : State :=
  match Tab.find s.bundles id with
  | none => s
  | some b =>
    if b.state != .pending then s
    else
      let placed := fun (s : State) (ln : Nat) => s.versions.any (fun v => v.line == ln && v.ident == b.ident)
      let mine := bundleHomes s b true
      let s := (mine.filter (fun ln => !placed s ln)).foldl (placeVersion b) s
      let asid := (s.agent b.agent).asid
      let unsent := (bundleHomes s b false).filter (fun ln => b.unacked.contains ln && !(s.sent.any (fun e => e.2.why == .bundle id ln)))
      let s := unsent.foldl (fun s ln =>
        sendOps s (homeOf (128 * ln)) (pendingOps b asid ln).1 [(pendingOps b asid ln).2] (.bundle id ln)) s
      let all := mine.all (placed s)
      let b' := { b with refusedAt := if all then b.refusedAt else some (b.refusedAt.getD s.reftime)
                         state := if all && b.unacked.isEmpty then .placed else b.state }
      { (if b'.state == .placed then dropRefusals s b.ident else s) with bundles := Tab.put s.bundles id b' }

/-- The commit of one line, or the end of its version, goes to its home: a settle also ends a pending version of a bundle that
has been withdrawn (R239, R242; log entry 72). -/
def tellHome (id : Nat) (b : Bundle) (settle : Bool) (s : State) (ln : Nat) : State :=
  sendOp s (homeOf (128 * ln))
    { kind := 7, flags := b2n settle, key := 0, asid := (s.agent b.agent).asid, tag := 0, addr := 128 * ln % 2 ^ 40
      arg := b.ident, data := [], src := 0, tc := 5 } (if settle then .other else .bundle id ln)

/-- The pending versions of a bundle are discarded at every home that has one, and nothing waits for its requests (R242, R244). -/
def discardVersions (s : State) (id : Nat) (b : Bundle) : State :=
  let s := { s with versions := s.versions.filter (fun v => v.ident != b.ident)
                    sent := s.sent.map (fun e => match e.2.why with
                      | .bundle j _ => if j = id then (e.1, { e.2 with why := .other }) else e
                      | _ => e) }
  ((bundleHomes s b false).filter (fun ln => reachable s (homeOf (128 * ln)))).foldl (fun s ln => tellHome id b true s ln) s

/-- The growth-ring entry of a withdrawal (R395). -/
def logWithdrawal (s : State) (b : Bundle) : State :=
  let a := s.agent b.agent
  logEvent s 0x60 (b.ident / 2 ^ 28 % 512) a.asid [toBytes 6 b.ident, [0, 0], toBytes 4 b.name.toNat, [0, 0, 0, 0]].flatten

/-- A bundle of which a home cannot be reached before its commit is withdrawn: nothing of it becomes eligible, its stores stay its
agent's, and the agent reports the line (R244). -/
def abandonBundle (s : State) (id ln : Nat) (b : Bundle) : State :=
  let s := dropRefusals (discardVersions (logWithdrawal s b) id b) b.ident
  let s := { s with bundles := Tab.put s.bundles id { b with state := .withdrawn, refusedAt := none, unacked := bundleHomes s b false } }
  s.modAgent b.agent (fun a => { a with
    reports := a.reports ++ [(.fabricUnreachable, Tab.get a.lineVa ln (128 * ln % 2 ^ 40))] })

/-- A bundle goes to its homes, or is withdrawn because one of them cannot be reached (R239, R244). -/
def publish (s : State) (id : Nat) : State :=
  match Tab.find s.bundles id with
  | none => s
  | some b =>
    match b.lines.find? (fun ln => !reachable s (homeOf (128 * ln))) with
    | some ln => abandonBundle s id ln b
    | none => placeVersions { s with bundles := Tab.put s.bundles id { b with state := if b.lines.isEmpty then .settled else .pending } } id

/-- The agent's withdrawn bundles are published anew, by the instruction that reported them (R244). -/
def republish (s : State) (k : Nat) : State :=
  (s.bundles.filter (fun e => e.2.agent == k && e.2.state == .withdrawn)).foldl (fun s e => publish s e.1) s

end Sys2Proof.Machine
end

