-- ==== Sys2Proof/Machine/Races.lean ====
section
/-! DEFINITION. Races with engines (R176, R180, R205, R291): bytes that an engine writes and that no agent has joined yet, and
bytes of its source that software writes between its issue and its join. -/

namespace Sys2Proof.Machine

/-- A scratchpad byte that an MX.STACC writes which no MX.WAIT has joined (R176). -/
def accUnjoined (s : State) (core off : Nat) : Bool :=
  s.agents.any (fun a => !a.2.away && (a.2.mxq ++ a.2.mxDone).any (fun e =>
    e.spans.any (fun x => 8 * a.2.grove + x.1 == core && decide (x.2.1 ≤ off) && decide (off < x.2.1 + x.2.2))))

/-- Of the scratchpad bytes of a core from an offset on, those that a load may not read yet, by their place. -/
def hotScratch (s : State) (core off n : Nat) : List Nat :=
  let ds := unjoined s ((List.range n).map (fun i => scratchPos core (off + i)))
  (List.range n).filter (fun i => accUnjoined s core (off + i) || ds.contains (scratchPos core (off + i)))

/-- The bytes that agents other than one have stored and not closed to where it can have observed them, in memory and in
scratchpads. -/
def foreignBytes (s : State) (k : Nat) : List Nat :=
  ((s.agents.filter (fun e => e.1 != k)).map (fun e =>
    ([e.2.stores, e.2.kept, e.2.bundled, (e.2.closes.map Close.bytes).flatten].flatten).map (·.1) ++ e.2.scratchOpen)).flatten

/-- Of the positions of a copy's source, those that other agents' stores make indeterminate at its issue (R205). -/
def foreignSource (s : State) (k : Nat) (t : Trace) : List Nat :=
  let fs := foreignBytes s k
  if fs.isEmpty then [] else (jobBytes t.job).filterMap (fun p => (p.1.bind (tracePos s t .read)).filter fs.contains)

/-- A source byte of a copy was stored to after its issue, or by another agent that had not closed it (R205). -/
def sourceRaced (s : State) (t : Trace) (b : Bool × Nat) : Bool :=
  match tracePos s t .read b with
  | none => false
  | some x => writtenSince s t.since x || t.foreign.contains x

/-- A destination byte of a copy becomes indeterminate. -/
def looseByte (t : Trace) (s : State) (b : Bool × Nat) : State :=
  let x : Byte := BitVec.ofNat 8 (s.free 0)
  if b.1 then (scratchWrite s t.grove b.2 [x]).used 1
  else match xlate s (576 + t.grove) t.asid b.2 .write t.user with
    | .error _ => s
    | .ok loc => (s.setGrove t.grove { (s.grove t.grove) with staging := Tab.put (s.grove t.grove).staging loc x }).used 1

/-- A copy is joined: what it wrote from raced source bytes is indeterminate, and its races are over (R205). -/
def joinCopy (s : State) (e : Nat × Trace) : State :=
  let bad := (jobBytes e.2.job).filter (fun p => p.1.any (sourceRaced s e.2))
  bad.foldl (fun s p => looseByte e.2 s p.2) { s with traces := Tab.erase s.traces e.1 }

/-- The copies that a test names are joined. -/
def joinCopies (s : State) (p : Trace → Bool) : State := (s.traces.filter (fun e => p e.2)).foldl joinCopy s

end Sys2Proof.Machine
end

