-- ==== Sys2Proof/Machine/MemInstr.lean ====
section
/-! DEFINITION. The memory block but `BANKSET`, 0x100 to 0x10E: loads, stores, atomics, FIFO banks, and the placement hints
(R177 to R204), with the event that performs a posted access. -/

namespace Sys2Proof.Machine

/-! ### Global loads -/

/-- The byte offset of an F word (R189). -/
def fOff (f : FArgs) : Int := if f.imm then f.b.toInt else 0

/-- The lanes an instruction acts on with their effective addresses: register pair + offset (R178, R189). -/
def globalEas (a : Agent) (i : Instr) (r : Reg) (off : Int) : List (Nat × Nat) :=
  (actLanes a i).map (fun l => (l, wrapN 64 ((rdN a r.toNat 2 l : Int) + off)))

/-- The sign-extension width of a load (R189). -/
def szSext (sz : Nat) : Nat := if sz = 2 then 8 else if sz = 4 then 16 else 0

/-- A posted RED that touches a line of some locations. -/
def redTouches (locs : List Nat) : PostedJob → Bool
  | .red _ _ loc _ _ => locs.any (fun x => lineOf x == lineOf loc)
  | .scratch _ _ => false

/-- The missing bytes of a load: lane, position in the value, location. -/
def missingBytes (s : State) (a : Agent) (ls : List (Nat × Nat × List Nat)) : List (Nat × Nat × Nat) :=
  (ls.map (fun e => (e.2.2.zipIdx.filter (fun x => (loadByte s a (e.2.1 + x.2) x.1).isNone || !(fracture s a x.1).isEmpty)).map (fun x => (e.1, x.2, x.1)))).flatten

/-- A read of another device's line: its bytes as FLAGS and ARG say (R365). -/
def readOp (asid ln : Nat) (x : Nat × Nat) : FabOp :=
  { kind := 1, flags := x.1, key := 0, asid := asid, tag := 0, addr := 128 * ln % 2 ^ 40, arg := x.2, data := [], src := 0
    tc := if x.1 = 0 then 1 else 5 }

/-- Request the lines of missing bytes for an entry; the tags of the requests. Of several version fetches of a line the last is
the one it reads (R241). -/
def requestLines (s : State) (k asid token : Nat) (vaOf : Nat × Nat × Nat → Nat) (miss : List (Nat × Nat × Nat)) : State × List Nat :=
  ((miss.map (fun x => lineOf x.2.2)).dedup).foldl (fun r ln =>
    let mine := miss.filter (fun x => lineOf x.2.2 == ln)
    let parts := mine.map (fun x => (x.1, x.2.1, 1, x.2.2 % 128))
    let fr := (mine.map (fun x => fracture r.1 (r.1.agent k) x.2.2)).find? (fun l => !l.isEmpty) |>.getD [(0, 0)]
    let s := fr.dropLast.foldl (fun s x => sendOp s (homeOf (128 * ln)) (readOp asid ln x) .other) r.1
    let tag := Tab.freshKey s.sent 0
    (sendOp s (homeOf (128 * ln)) (readOp asid ln (fr.getLastD (0, 0))) (.load k token (vaOf (mine.headD (0, 0, 0))) parts), r.2 ++ [tag])) (s, [])

/-- A load whose bytes are all translated: values come from what the agent's phase observes, other devices' lines are asked
for, poisoned lanes are indeterminate, and so are the bytes that a test names and those that an engine writes (R190, R195, R205,
R372). -/
def loadEntry (i : Instr) (d : Reg) (sz : Nat) (free : Nat → Bool) (s : State) (a : Agent) (ls : List (Nat × Nat × List Nat)) : Act :=
  let locs := (ls.map (·.2.2)).flatten
  let s := resolveReads (drainPosted s s.cur (redTouches locs)) (s.agent s.cur) locs
  let a := { (s.agent s.cur) with state := a.state }
  let racing := unjoined s locs
  let hot := fun x => free x || racing.contains x
  let loose := (missingBytes s a ls).filter (fun x => hot x.2.2)
  let miss := (missingBytes s a ls).filter (fun x => !hot x.2.2)
  let far := miss.filter (fun x => !reachable s (homeOf x.2.2))
  let bad := ls.filter (fun e => e.2.2.any (poisoned s a))
  let value := fun l => match ls.find? (fun e => e.1 == l) with
    | none => 0
    | some e => ofBytes (e.2.2.zipIdx.map (fun x =>
        if hot x.1 then BitVec.ofNat 8 (s.free (16 * l + x.2)) else (loadByte s a (e.2.1 + x.2) x.1).getD 0))
  let e := mkEntry a i d (szRegs sz) true true [] value
  let vaOf := fun l n => (((ls.find? (fun e => e.1 == l)).map (·.2.1)).getD 0 + n) / 128 * 128
  let err := match bad with
    | b :: _ => some (.memUncorrectable, ((b.2.2.zipIdx.find? (fun x => poisoned s a x.1)).map (fun x => (b.2.1 + x.2) / 128 * 128)).getD b.2.1)
    | [] => match far with
      | x :: _ => some (.fabricUnreachable, vaOf x.1 x.2.1)
      | [] => none
  let r := requestLines s s.cur a.asid e.token (fun x => vaOf x.1 x.2.1) (miss.filter (fun x => reachable s (homeOf x.2.2)))
  let s := fillTlbs r.1 a.unit a.asid (ls.map (·.2.1))
  let s := if locs.any hot then s.used 16384 else s
  .long (s.setMe (noteReads s a (locs.filter (fun x => (seeByte s a x).isSome && !hot x))))
    { e with sext := szSext sz, tags := r.2, err := err, taint := lanesMask (bad.map (·.1) ++ (far ++ loose).map (·.1)) }

/-- A load that would read a byte of the agent's own side-logged stores is held until they are replayed (R245). -/
def sideHeld (s : State) (a : Agent) (eas : List (Nat × Nat)) (n : Nat) (go : Act) : Act :=
  match (eas.map (fun e => ((List.range n).map (e.2 + ·)).filter (sideCovers s s.cur))).flatten with
  | [] => go
  | vas => .fault (s.setMe { a with state := .faultHold, hold := .sideLoad vas })

/-- A load from global memory of the size SZ at the lanes' addresses; bytes that a test names are indeterminate (R178, R190,
R320). One that may be held is held for its own side-logged stores first, whether or not its page is there (R245, R323). -/
def loadAct (i : Instr) (d : Reg) (sz : Nat) (free : Nat → Bool) (eas : List (Nat × Nat)) (s : State) (a : Agent) : Act :=
  if !tokenFree s a then .wait s
  else match rangeFault eas (szBytes sz) with
    | some x => .trap .pageNotPresent x
    | none => match xlateLanes s a eas (szBytes sz) .read with
      | .error (va, m) =>
        if a.priv || a.kind == .forester then .trap m.cause va else sideHeld s a eas (szBytes sz) (heldFault s a m va 0)
      | .ok ls => sideHeld s a eas (szBytes sz) (loadEntry i d sz free s a ls)

def execLd (f : FArgs) (s : State) := issue (.ld f) s (fun s a =>
  loadAct (.ld f) f.d f.mod.toNat (fun _ => false) (globalEas a (.ld f) f.a (fOff f)) s a)
def execLdL (x : LArgs) (s : State) := issue (.ldL x) s (fun s a =>
  loadAct (.ldL x) x.d x.mod.toNat (fun _ => false) (globalEas a (.ldL x) x.a x.imm33.toInt) s a)

/-- LDK: a byte of the constant bank that software wrote last while a team of the grid was resident is indeterminate (R180). -/
def execLdk (f : FArgs) (s : State) := issue (.ldk f) s (fun s a =>
  let base := recordField s a.grid 24 8
  let len := recordField s a.grid 32 4
  let n := szBytes f.mod.toNat
  let offs := (actLanes a (.ldk f)).map (fun l => (l, wrapN 32 ((rd1 a f.a l : Int) + fOff f)))
  match offs.find? (fun e => decide (len < e.2 + n)) with
  | some e => .trap .pagePermission (base + e.2)
  | none =>
    loadAct (.ldk f) f.d f.mod.toNat (racedFor s a.grid) (offs.map (fun e => (e.1, base + e.2))) s a)

/-! ### Global stores (R191, R245, R320, R324) -/

/-- The bytes of a store: lane after lane, ascending, so that the highest lane's byte comes last (R191). -/
def storeCells (a : Agent) (d : Reg) (regs n : Nat) (eas : List (Nat × Nat)) : List (Nat × Byte) :=
  (eas.map (fun e => (toBytes n (rdN a d.toNat regs e.1)).zipIdx.map (fun x => (e.2 + x.2, x.1)))).flatten

/-- The lines of which a store writes all 128 bytes (R394). -/
def wholeLines (locs : List Nat) : List Nat :=
  ((locs.map lineOf).dedup).filter (fun ln => (List.range 128).all (fun i => locs.contains (128 * ln + i)))

/-- Such lines are noted until they are at their homes. -/
def noteWhole (s : State) (locs : List Nat) : State :=
  if locs.length < 128 then s
  else { s with fullStores := s.fullStores ++ (wholeLines locs).filter (fun ln => !s.fullStores.contains ln) }

/-- Ordinary stores of bytes at addresses and their locations. -/
def performStore (s : State) (a : Agent) (cells : List (Nat × Nat × Byte)) : State :=
  let s := noteWhole s (cells.map (·.2.1))
  let a := storeBytes a (cells.map (fun c => (c.2.1, c.2.2)))
  let a := if a.spilled.isEmpty && a.spill.isEmpty then a else spoilOwn a (cells.map (·.1))
  (softwareWrote s s.cur (cells.map (·.2.1))).setMe
    { a with lineVa := cells.foldl (fun t c => Tab.put t (lineOf c.2.1) (c.1 - c.2.1 % 128)) a.lineVa }

/-- The agent's own posted REDs to the lines of a store come before it: they are performed first, or it waits while one is on
its way past held bytes (R222). -/
def afterReds (s : State) (locs : List Nat) (go : State → Act) : Act :=
  let s := drainPosted s s.cur (redTouches locs)
  if s.posted.any (fun e => e.2.agent == s.cur && redTouches (locs.filter (fun x => reachable s (homeOf x))) e.2.job) then .wait s
  else go s

/-- The pages, as they now are, for which an agent holds side-logged entries; the first that some addresses touch, if any (R324; log
entry 41). -/
def sidePages (s : State) (k : Nat) : List Nat := ((sideEntries s k).map (fun e => pageBase s (s.agent k) e.va)).dedup
def sidePage (s : State) (a : Agent) (vas : List Nat) : Option Nat :=
  let held := sidePages s s.cur
  vas.findSome? (fun va => held.find? (· == pageBase s a va))

/-- Entries go into the side log, numbered in their order within the team (R324). -/
def logEntries (s : State) (k : Nat) (es : List SideEntry) : State :=
  let a := s.agent k
  let x := s.core a.core
  let s := { s with codeSeq := es.foldl (fun n (e : SideEntry) => max n e.code) s.codeSeq }
  (s.setCore a.core { x with sideLog := x.sideLog ++ es.zipIdx.map (fun e => { e.1 with seq := a.sideSeq + e.2 }) }).setAgent k
    { a with sideSeq := a.sideSeq + es.length, order := es.foldl (fun n e => max n e.num) a.order }

/-- An access that is side-logged: `fails` are its failing pages with the first address and cause of each, `held` a page it
touches for which its team holds entries already, `es` its entries, `t` the state with what needs no logging performed. Whole
or held; too large an access is held as a load; a record is posted for each page that has none yet (R320, R324). -/
def sideAct (s : State) (a : Agent) (access : Nat) (fails : List (Nat × Nat × Miss)) (held : Option Nat) (es : List SideEntry)
    (t : State) : Act :=
  let used := (s.core a.core).sideLog.length
  let fresh := fails.filter (fun f => !(sidePages s s.cur).contains f.1)
  if 512 < es.length then
    match fails, held with
    | f :: _, _ => heldFault s a f.2.2 f.2.1 access
    | [], some p => .fault (s.setMe { a with state := .faultHold, hold := .sidePage p })
    | [], none => .go t
  else if 512 < used + es.length then .fault (s.setMe { a with state := .faultHold, hold := .sideRoom es.length })
  else if queueInForce s a.asid then
    .go (fresh.foldl (fun t f => addFault t (faultRec a f.2.2 f.2.1 access (.side a.core s.cur f.2.1))) (logEntries t s.cur es))
  else
    let t := logEntries t s.cur (es.filter (fun e => !(fresh.any (fun f => f.1 == pageBase s a e.va))))
    .go (t.setMe { t.me with reports := t.me.reports ++ fresh.map (fun f => (f.2.2.cause, f.2.1)) })

/-- The first failing address of each failing page of some bytes. -/
def failingPages (s : State) (a : Agent) (vas : List Nat) (p : Perm) : List (Nat × Nat × Miss) :=
  vas.foldl (fun r va => match xlate s a.unit a.asid va p (!a.priv) with
    | .ok _ => r
    | .error m => if r.any (fun f => f.1 == pageBase s a va) then r else r ++ [(pageBase s a va, va, m)]) []

/-- The side-log entries of stored bytes: one for each 16-byte chunk (R324). -/
def chunkEntries (s : State) (a : Agent) (cells : Tab Byte) : List SideEntry :=
  ((cells.map (fun c => c.1 / 16)).dedup).map (fun q =>
    let mine := cells.filter (fun c => c.1 / 16 == q)
    { agent := s.cur, va := 16 * q, mask := mine.foldl (fun m c => m + 2 ^ (c.1 % 16)) 0, red := false, ctrl := 0, ord := 0
      slot := a.slot, seq := 0, data := mine.foldl (fun x c => x + c.2.toNat * 2 ^ (8 * (c.1 % 16))) 0, user := !a.priv
      num := a.order + 1, code := s.codeSeq + 1 })

/-- A store of cells at addresses (R178, R191, R320, R324). -/
def storeAct (eas : List (Nat × Nat)) (n : Nat) (cells : List (Nat × Byte)) (s : State) (a : Agent) : Act :=
  match rangeFault eas n with
  | some x => .trap .pageNotPresent x
  | none =>
    let held := if (sideEntries s s.cur).isEmpty then none else sidePage s a (cells.map (·.1))
    match xlateLanes s a eas n .write with
    | .ok ls =>
      if held.isSome then sideAct s a 1 [] held (chunkEntries s a (cells.foldl (fun t c => Tab.put t c.1 c.2) [])) s
      else
        let locs := (ls.map (·.2.2)).flatten
        afterReds s locs (fun s =>
          .go (performStore (fillTlbs s a.unit a.asid (eas.map (·.2))) s.me ((cells.zip locs).map (fun c => (c.1.1, c.2, c.1.2)))))
    | .error (va, m) =>
      if a.priv || a.kind == .forester then .trap m.cause va
      else
        let all := cells.foldl (fun t c => Tab.put t c.1 c.2) ([] : Tab Byte)
        let fails := failingPages s a (all.map (·.1)) .write
        let whole := held.isSome
        let logged := all.filter (fun c => whole || fails.any (fun f => f.1 == pageBase s a c.1))
        let direct := (all.filter (fun c => !(whole || fails.any (fun f => f.1 == pageBase s a c.1)))).filterMap (fun c =>
          match xlate s a.unit a.asid c.1 .write (!a.priv) with
          | .ok loc => some (c.1, loc, c.2)
          | .error _ => none)
        afterReds s (direct.map (·.2.1)) (fun s => sideAct s s.me 1 fails held (chunkEntries s a logged) (performStore s s.me direct))

def execSt (f : FArgs) (s : State) := issue (.st f) s (fun s a =>
  let eas := globalEas a (.st f) f.a (fOff f)
  storeAct eas (szBytes f.mod.toNat) (storeCells a f.d (szRegs f.mod.toNat) (szBytes f.mod.toNat) eas) s a)
def execStL (x : LArgs) (s : State) := issue (.stL x) s (fun s a =>
  let eas := globalEas a (.stL x) x.a x.imm33.toInt
  storeAct eas (szBytes x.mod.toNat) (storeCells a x.d (szRegs x.mod.toNat) (szBytes x.mod.toNat) eas) s a)

/-! ### Scratchpad loads and stores (R179, R190 to R192, R234) -/

/-- The lanes with their scratchpad addresses. -/
def scratchEas (a : Agent) (i : Instr) (r : Reg) (off : Int) : List (Nat × Nat) :=
  (actLanes a i).map (fun l => (l, wrapN 32 ((rd1 a r l : Int) + off)))

/-- The first offending scratchpad byte of the lanes (R179). -/
def scratchBad (s : State) (a : Agent) (eas : List (Nat × Nat)) (n : Nat) : Option Nat :=
  eas.findSome? (fun e => scratchFault s a e.2 n)

/-- The port of a scratchpad address, and whether it is the agent's own core's. -/
def portOf (a : Agent) (addr : Nat) : Nat := 8 * a.grove + scratchCore addr
def ownPort (a : Agent) (addr : Nat) : Bool := a.kind == .team && portOf a addr == a.core

/-- A posted store to one of some ports. -/
def scratchTouches (ports : List Nat) : PostedJob → Bool
  | .scratch p _ => ports.contains p
  | .red _ _ _ _ _ => false

/-- The value of n scratchpad bytes at a lane's address; bytes that an engine writes are indeterminate (R176, R205). -/
def ldsValue (s : State) (a : Agent) (n : Nat) (e : Nat × Nat) : Nat :=
  let hot := hotScratch s (portOf a e.2) (e.2 % 2 ^ 21) n
  ofBytes ((scratchBytes s a.grove e.2 n).zipIdx.map (fun x => if hot.contains x.2 then BitVec.ofNat 8 (s.free (16 * e.1 + x.2)) else x.1))

/-- An LDS returns bytes that other agents have stored: what those agents have stored happens before it (R235). -/
def seeStores (s : State) (k : Nat) (ps : List Nat) : State :=
  if s.agents.all (fun e => e.1 == k || !e.2.scratchOpen.any ps.contains) then s
  else { s with agents := s.agents.map (fun e => if e.1 != k && e.2.scratchOpen.any ps.contains then (e.1, { e.2 with scratchOpen := [] }) else e) }

def ldsAct (i : Instr) (d : Reg) (sz : Nat) (eas : List (Nat × Nat)) (s : State) (a : Agent) : Act :=
  match scratchBad s a eas (szBytes sz) with
  | some x => .trap .bankMode x
  | none =>
    let away := eas.any (fun e => !ownPort a e.2)
    if away && !tokenFree s a then .wait s
    else
      let s := drainPosted s s.cur (scratchTouches (eas.map (fun e => portOf a e.2)))
      let s := seeStores s s.cur (eas.map (fun e => (List.range (szBytes sz)).map (fun i => scratchPosAt a.grove (e.2 + i)))).flatten
      let a := { (s.agent s.cur) with lastObs := s.strongSeq }
      let value := fun l => ((eas.find? (fun e => e.1 == l)).map (ldsValue s a (szBytes sz))).getD 0
      let hot := eas.any (fun e => !(hotScratch s (portOf a e.2) (e.2 % 2 ^ 21) (szBytes sz)).isEmpty)
      let bad := eas.filter (fun e => (scratchPoison s a.grove e.2 (szBytes sz)).isSome)
      .long ((if hot then s.used 16384 else s).setMe a) { mkEntry a i d (szRegs sz) away true [] value with
        sext := szSext sz, taint := lanesMask (bad.map (·.1))
        err := (bad.findSome? (fun e => scratchPoison s a.grove e.2 (szBytes sz))).map (fun x => (.memUncorrectable, x)) }

def execLds (f : FArgs) (s : State) := issue (.lds f) s (fun s a =>
  ldsAct (.lds f) f.d f.mod.toNat (scratchEas a (.lds f) f.a (fOff f)) s a)
def execLdsL (x : LArgs) (s : State) := issue (.ldsL x) s (fun s a =>
  ldsAct (.ldsL x) x.d x.mod.toNat (scratchEas a (.ldsL x) x.a x.imm33.toInt) s a)

/-- The key after the last of a table. -/
def nextKey {α : Type} (t : Tab α) : Nat := (t.getLast?).elim 0 (fun e => e.1 + 1)

/-- Post a job of an agent. -/
def postJob (s : State) (a : Agent) (j : PostedJob) : State :=
  { s with posted := Tab.put s.posted (nextKey s.posted) ⟨s.cur, a.asid, nowNum s s.cur, j⟩ }

def stsAct (eas : List (Nat × Nat)) (n : Nat) (cells : List (Nat × Byte)) (s : State) (a : Agent) : Act :=
  match scratchBad s a eas n with
  | some x => .trap .bankMode x
  | none =>
    .go ((List.range 8).foldl (fun s c =>
      let mine := cells.filter (fun x => scratchCore x.1 == c)
      if mine.isEmpty then s
      else if a.kind == .team && 8 * a.grove + c == a.core then
        s.setCore a.core ((s.core a.core).store (mine.map (fun x => (x.1 % 2 ^ 21, x.2))))
      else postJob s a (.scratch (8 * a.grove + c) (mine.map (fun x => (x.1 % 2 ^ 21, x.2)))))
      (if cells.isEmpty then s
       else
        let ps := cells.map (fun x => scratchPosAt a.grove x.1)
        numberWrite (s.setMe { s.me with scratchOpen := s.me.scratchOpen.filter (fun p => !ps.contains p) ++ ps.dedup }) ps))

def execSts (f : FArgs) (s : State) := issue (.sts f) s (fun s a =>
  let eas := scratchEas a (.sts f) f.a (fOff f)
  stsAct eas (szBytes f.mod.toNat) (storeCells a f.d (szRegs f.mod.toNat) (szBytes f.mod.toNat) eas) s a)
def execStsL (x : LArgs) (s : State) := issue (.stsL x) s (fun s a =>
  let eas := scratchEas a (.stsL x) x.a x.imm33.toInt
  stsAct eas (szBytes x.mod.toNat) (storeCells a x.d (szRegs x.mod.toNat) (szBytes x.mod.toNat) eas) s a)

/-- POSTED_ACCESS_PERFORMED: a posted access reaches its home or port, unless its die's clock stands still; accesses of one agent to
one line, or to one port, keep their order (R199, R222, R234, R356). -/
def postedReady (s : State) (e : Nat) (p : Posted) : Bool :=
  match p.job with
  | .red _ _ loc _ _ => !(s.posted.any (fun x => decide (x.1 < e) && x.2.agent == p.agent && redTouches [loc] x.2.job))
  | .scratch port _ => !(s.posted.any (fun x => decide (x.1 < e) && x.2.agent == p.agent && scratchTouches [port] x.2.job))

def execPostedAccessPerformed (e : Nat) (s : State) : Host.Outcome State Fault Refusal :=
  match Tab.find s.posted e with
  | none => .next s
  | some p => if postedReady s e p && !dieStopped s (portOfAgent s p.agent) then .next (performPosted s e p) else .next s

/-! ### Strong accesses (R196 to R201, R231 to R233) -/

/-- The checks of a strong access before it is performed: range, alignment, translation (R178, R200, R320). -/
def strongCheck (s : State) (a : Agent) (eas : List (Nat × Nat)) (n : Nat) (go : List (Nat × Nat × List Nat) → Act)
    (held : Nat × Miss → Act) : Act :=
  match rangeFault eas 1 with
  | some x => .trap .pageNotPresent x
  | none => match eas.find? (fun e => e.2 % n != 0) with
    | some e => .trap .misaligned e.2
    | none => match xlateLanes s a eas n .update with
      | .error m => held m
      | .ok ls => go ls

/-- A close that cannot place all its bytes places those it can before it traps (R399). -/
def placePart (s : State) (k : Nat) : State :=
  let a := s.agent k
  let near := fun (e : Nat × Byte) => reachable s (homeOf e.1)
  let mine := (overlay a.kept a.stores).filter near
  let s := placeHome (pushAll s k a.asid) k a.asid mine
  dropViews (s.modAgent k (fun a => { a with stores := a.stores.filter (fun e => !near e), kept := a.kept.filter (fun e => !near e) })) k mine

/-- The close of a release before an access: it waits, traps where bytes cannot be placed, or is completed (R229, R232,
R399). -/
def released (s : State) (ord sc : Nat) (go : State → Act) : Act :=
  if ord < 2 then go s
  else
    let s := republish (drainAll s s.cur) s.cur
    match (if 2 ≤ sc then unplaceable s s.cur else none) with
    | some x => .trapIn (if closeNowFree s s.cur then placePart s s.cur else s) .fabricUnreachable x
    | none =>
      if !closeNowFree s s.cur then .wait s
      else
        let s := closeNow s s.cur sc
        if closesPending s s.cur then .wait s else go s

/-- The result of performing the lanes of an atomic. -/
structure AtomRun where
  s : State
  vals : List (Nat × Nat)
  err : Option (Cause × Nat)
  loose : List Nat
  tags : List Nat
  sites : List (Nat × Nat × Nat)

/-- The invalidations of a line that have not been answered: an access to it is performed once they have been (R377). -/
def recallTags (s : State) (loc : Nat) : List Nat :=
  (s.sent.filter (fun e => homeOf loc == s.device && e.2.why == .recall (loc % 2 ^ 40 / 128))).map (·.1)

/-- The fetches that an agent sends before a strong access to a line of another device, so that the home makes current what the agent
has observed (R240, R241). -/
def sendWatch (s : State) (k asid loc : Nat) : State :=
  (watchFetches (s.agent k) (lineOf loc)).foldl (fun s x => sendOp s (homeOf loc) (readOp asid (lineOf loc) x) .other) s

/-- One lane of an atomic: at its local home, or as a request to its home device (R197, R200, R240, R376). `sure` says that it writes
whatever it reads: its agent's older stores give way as it is sent, those before a compare when the answer says that it wrote (R222). -/
def atomLane (n asid token : Nat) (sure : Bool) (f : Nat → Nat → Option Nat) (msg : Nat → Nat × List Byte) (r : AtomRun)
    (e : Nat × Nat × List Nat) : AtomRun :=
  let loc := e.2.2.headD 0
  if homeOf loc == r.s.device then
    let x := strongAt r.s r.s.cur asid loc n (f e.1)
    { r with s := x.s.setMe (observeLines x.s x.s.me [lineOf loc]), vals := r.vals ++ [(e.1, x.old)], tags := r.tags ++ recallTags x.s loc
             loose := if x.loose then r.loose ++ [e.1] else r.loose
             err := match r.err with
               | some c => some c
               | none => x.err.map (fun c => (c, if c == .mixedSize then e.2.1 else e.2.1 / 128 * 128))
             sites := if x.err.isNone then r.sites ++ [(e.1, loc, n)] else r.sites }
  else if reachable r.s (homeOf loc) then
    let s := sendWatch (if sure then giveWay r.s r.s.cur loc n (nowNum r.s r.s.cur) else r.s) r.s.cur asid loc
    let tag := Tab.freshKey s.sent 0
    let m := msg e.1
    let op : FabOp := { kind := 3, flags := 0, key := 0, asid := asid, tag := 0, addr := loc % 2 ^ 40, arg := m.1, data := m.2, src := 0, tc := 1 }
    { r with s := sendOp s (homeOf loc) op (.atomic r.s.cur token e.1 (e.2.1 / 128 * 128))
             tags := r.tags ++ [tag] }
  else { r with loose := r.loose ++ [e.1]
                err := match r.err with | some c => some c | none => some (.fabricUnreachable, e.2.1 / 128 * 128) }

/-- An atomic with return over the lanes: release, the accesses in ascending lane order, acquire; the old values come at
completion. `mk` makes the entry of what was performed (R196, R197, R232). -/
def atomAct (n ord sc : Nat) (sure : Bool) (eas : List (Nat × Nat)) (f : Nat → Nat → Option Nat) (msg : Nat → Nat × List Byte)
    (mk : AtomRun → LAEntry) (s : State) (a : Agent) : Act :=
  if eas.isEmpty then .long s (mk ⟨s, [], none, [], [], []⟩)
  else if !tokenFree s a then .wait s
  else strongCheck s a eas n (fun ls =>
    sideHeld s a eas n (released s ord sc (fun s =>
      let s := drainPosted s s.cur (redTouches (ls.map (fun e => e.2.2.headD 0)))
      let far := (ls.map (fun e => e.2.2.headD 0)).filter (fun x => homeOf x != s.device)
      let s := far.foldl (fun s x => flushLine s s.cur x) s
      if far.any (fun x => lineHeld s x && reachable s (homeOf x)) then .wait s else
      let r := ls.foldl (atomLane n a.asid (freshToken a) sure f msg) ⟨s, [], none, [], [], []⟩
      let s := fillTlbs r.s a.unit a.asid (eas.map (·.2))
      let s := s.setMe { s.me with lastObs := s.strongSeq }
      .long (if ord % 2 = 1 then openPhase (drainAll s s.cur) s.cur sc else s) { mk r with tags := r.tags, err := r.err })))
    (fun m => heldFault s a m.2 m.1 2)

/-- The entry of an atomic that returns each lane its old value. -/
def atomEntry (a : Agent) (i : Instr) (d : Reg) (regs : Nat) (srcs : List Reg) (r : AtomRun) : LAEntry :=
  { mkEntry a i d regs true true srcs (fun l => ((r.vals.find? (fun v => v.1 == l)).map (·.2)).getD 0) with
    taint := lanesMask r.loose, sites := r.sites }

/-- The ARG and data of an atomic operation (R365): 8 octets of operand, or 128 for a wider one or a compare. -/
def atomMsg (ctrl ord sc n : Nat) (x : Nat) : Nat × List Byte :=
  (ctrl * 2 ^ 40 + (4 * ord + sc) * 2 ^ 32, toBytes (if n ≤ 8 then 8 else 128) x)
def casMsg (ctrl ord sc : Nat) (c x : Nat) : Nat × List Byte :=
  (ctrl * 2 ^ 40 + (4 * ord + sc) * 2 ^ 32 + 2 ^ 24, toBytes 64 c ++ toBytes 64 x)

def execAtom (f : FArgs) (s : State) := issue (.atom f) s (fun s a =>
  let op := f.b.toNat / 8
  let sz := f.b.toNat % 8
  let n := atomSzBytes op sz
  let x := fun l => rdN a f.d.toNat (atomSzRegs op sz) l
  atomAct n (modOrd f.mod) (modScope f.mod) (op != 0) (globalEas a (.atom f) f.a 0)
    (fun l m => if op = 0 then none else some (atomNew op sz m (x l)))
    (fun l => atomMsg f.b.toNat (modOrd f.mod) (modScope f.mod) n (x l))
    (atomEntry a (.atom f) f.d (atomSzRegs op sz) (if op = 0 then [] else group f.d (atomSzRegs op sz))) s a)

def execAtomf (f : FArgs) (s : State) := issue (.atomf f) s (fun s a =>
  let op := f.b.toNat / 8
  let sz := f.b.toNat % 8
  let n := atomSzBytes op sz
  let x := fun l => rdN a f.d.toNat (atomSzRegs op sz) l
  atomAct n (modOrd f.mod) (modScope f.mod) true (globalEas a (.atomf f) f.a 0)
    (fun l m => some (atomNew op sz m (x l)))
    (fun l => atomMsg f.b.toNat (modOrd f.mod) (modScope f.mod) n (x l))
    (atomEntry a (.atomf f) f.d (atomSzRegs op sz) (group f.d (atomSzRegs op sz))) s a)

def execAtomc (f : FArgs) (s : State) := issue (.atomc f) s (fun s a =>
  let regs := 2 ^ (f.mod.toNat % 4)
  let x := fun l => rdN a f.d.toNat regs l
  let c := fun l => rdN a f.b.toNat regs l
  atomAct (4 * regs) (modOrd f.mod) (modScope f.mod) false (globalEas a (.atomc f) f.a 0)
    (fun l m => if m = c l then some (x l) else none)
    (fun l => casMsg (2 + f.mod.toNat % 4) (modOrd f.mod) (modScope f.mod) (c l) (x l))
    (atomEntry a (.atomc f) f.d regs (group f.d regs ++ group f.b regs)) s a)

/-- The sum of a register group over lanes, mod 2^N. -/
def laneSum (a : Agent) (d : Reg) (regs : Nat) (ls : List Nat) : Nat :=
  (ls.map (fun l => rdN a d.toNat regs l)).sum % 2 ^ (32 * regs)

/-- The entry of ATOMAG: to each lane the old value, when it is known, and the sum of the lanes below it (R201). -/
def agEntry (a : Agent) (f : FArgs) (regs : Nat) (ls : List Nat) (r : AtomRun) : LAEntry :=
  let old := ((r.vals.head?).map (·.2)).getD 0
  { mkEntry a (.atomag f) f.d regs true true (group f.d regs)
      (fun l => (old + laneSum a f.d regs (ls.filter (· < l))) % 2 ^ (32 * regs)) with
    taint := if r.loose.isEmpty then 0 else lanesMask ls
    sites := (r.sites.map (fun x => ls.map (fun l => (l, x.2)))).flatten }

/-- An unanswered atomic of a team's sum answers all its lanes. -/
def sumAnswer (k token regs : Nat) (e : Nat × Sent) : Nat × Sent :=
  match e.2.why with
  | .atomic j t _ va => if j == k && t == token then (e.1, { e.2 with why := .atomicSum k token regs va }) else e
  | _ => e

/-- ATOMAG: one atomic of the team's total, and the exclusive prefix to each lane (R201). -/
def execAtomag (f : FArgs) (s : State) := issue (.atomag f) s (fun s a =>
  let regs := if f.mod.toNat % 4 = 1 then 2 else 1
  let ls := actLanes a (.atomag f)
  let total := laneSum a f.d regs ls
  if ls.isEmpty then .go s
  else match atomAct (4 * regs) (modOrd f.mod) (modScope f.mod) true [(0, rdN a f.a.toNat 2 0)]
      (fun _ m => some (addN (32 * regs) m total))
      (fun _ => atomMsg (16 + 1 + regs) (modOrd f.mod) (modScope f.mod) (4 * regs) total)
      (agEntry a f regs ls) s a with
    | .long t e => .long { t with sent := t.sent.map (sumAnswer s.cur e.token regs) } e
    | r => r)

/-- The side-log entry of one lane of a RED (R324). -/
def redEntry (s : State) (a : Agent) (ctrl ord : Nat) (x : Nat → Nat) (e : Nat × Nat) : SideEntry :=
  { agent := s.cur, va := e.2, mask := 0, red := true, ctrl := ctrl, ord := ord, slot := a.slot, seq := 0, data := x e.1
    user := !a.priv, num := a.order + 1, code := s.codeSeq + 1 }

/-- RED: posted to the homes, in ascending lane order; one that faults is side-logged (R199, R320, R324). -/
def execRed (f : FArgs) (s : State) := issue (.red f) s (fun s a =>
  let op := f.b.toNat / 8
  let sz := f.b.toNat % 8
  let n := atomSzBytes op sz
  let ord := 4 * modOrd f.mod + modScope f.mod
  let eas := globalEas a (.red f) f.a 0
  let x := fun l => rdN a f.d.toNat (atomSzRegs op sz) l
  let entries := fun (es : List (Nat × Nat)) => es.map (redEntry s a f.b.toNat ord x)
  let post := fun (s : State) (ls : List (Nat × Nat × List Nat)) =>
    ls.foldl (fun s e => postJob s a (.red f.b.toNat ord (e.2.2.headD 0) e.2.1 (x e.1))) s
  let held := if (sideEntries s s.cur).isEmpty then none else sidePage s a (eas.map (·.2))
  if eas.isEmpty then .go s
  else strongCheck s a eas n (fun ls => released s (modOrd f.mod) (modScope f.mod) (fun s =>
      if held.isSome then sideAct s s.me 3 [] held (entries eas) s
      else .go (post (fillTlbs s a.unit a.asid (eas.map (·.2))) ls)))
    (fun m =>
      if a.priv || a.kind == .forester then .trap m.2.cause m.1
      else released s (modOrd f.mod) (modScope f.mod) (fun s =>
        let fails := failingPages s a (eas.map (·.2)) .update
        let whole := held.isSome
        let isLog := fun (e : Nat × Nat) => whole || fails.any (fun g => g.1 == pageBase s a e.2)
        match xlateLanes s a (eas.filter (fun e => !isLog e)) n .update with
        | .ok ls => sideAct s s.me 3 fails held (entries (eas.filter isLog)) (post s ls)
        | .error _ => sideAct s s.me 3 fails held (entries eas) s)))

/-! ### FIFO banks (R202) -/

/-- A FIFO bank that the agent may not use. -/
def fifoBad (s : State) (a : Agent) (b : Nat) : Bool := (s.core a.core).mode b != 2 || !bitN (recordField s a.grid 40 4) b

def execFpush (f : FArgs) (s : State) := issue (.fpush f) s (fun s a =>
  let b := f.mod.toNat
  let ls := actLanes a (.fpush f)
  let c := s.core a.core
  let q := Tab.get c.fifos b []
  if fifoBad s a b then .trap .bankMode 0
  else if 16384 < q.length + ls.length then .wait s
  else .go (s.setCore a.core { c with fifos := Tab.put c.fifos b (q ++ ls.map (fun l => regGet a f.a.toNat l)) }))

def execFpop (f : FArgs) (s : State) := issue (.fpop f) s (fun s a =>
  let b := f.mod.toNat
  let ls := actLanes a (.fpop f)
  let c := s.core a.core
  let q := Tab.get c.fifos b []
  if fifoBad s a b then .trap .bankMode 0
  else if q.length < ls.length then .wait s
  else
    let s := s.setCore a.core { c with fifos := Tab.put c.fifos b (q.drop ls.length) }
    .go (s.setMe (wrLanes a (.fpop f) f.d 1 (fun l => ((q[ls.idxOf l]?).getD 0).toNat))))

/-! ### Prefetch, write-back and invalidation: placement only (R203, R204) -/

def execPref (f : FArgs) (s : State) := issue (.pref f) s (fun s _ => .go s)
def execCwb (f : FArgs) (s : State) := issue (.cwb f) s (fun s _ => .go s)
def execCinv (f : FArgs) (s : State) := issue (.cinv f) s (fun s _ => .go s)

end Sys2Proof.Machine
end

