-- ==== Sys2Proof/Machine/Engine.lean ====
section
/-! DEFINITION. What engines and the front end share: writes at homes, the completion of a command (R296), the abort of a grid
(R326), and the ring table of the copy units (R213, R214). -/

namespace Sys2Proof.Machine

/-! ### Engine accesses -/

/-- Bytes written by an engine at their homes in an address space; none when the translation fails. -/
def engineWrite (s : State) (asid va : Nat) (bytes : List Byte) : Option State :=
  match xlateRange s 640 asid va bytes.length .write false with
  | .error _ => none
  | .ok locs =>
    let s := locs.foldl (fun s x => flushAll s asid x) s
    let s := noteWhole (fillTlbs (softwareWrote s 0xFFFFFFFF locs) 640 asid [va]) locs
    some (placeHome s 0xFFFFFFFF asid ((locs.zip bytes).foldl (fun t e => Tab.put t e.1 e.2) []))

/-- A strong access by the device itself at a virtual address: its old value (R297, R305, R322, R384). -/
def engineStrong (s : State) (asid va n : Nat) (f : Nat → Option Nat) : Except Cause (State × Nat) :=
  match xlate s 640 asid va .update false with
  | .error m => .error m.cause
  | .ok loc =>
    if homeOf loc == s.device then
      let r := strongAt (flushAll s asid loc) 0xFFFFFFFF asid loc n f
      match r.err with
      | some c => .error c
      | none => .ok (fillTlb r.s 640 asid va, r.old)
    else .error .fabricUnreachable

/-! ### Completion of a command (R296, R306) -/

/-- The function that owns a queue, and its place in that function's BAR0 (R389). -/
def Queue.func (x : Queue) : Nat := fieldN x.qown.toNat 0 6
def Queue.vslot (x : Queue) : Nat := fieldN x.qown.toNat 8 6

/-- A command completes: STATUS at its slot, and its interrupt, where the vector belongs to its queue's function (R388). -/
def completeCmd (s : State) (c status : Nat) : State :=
  match Tab.find s.cmds c with
  | none => s
  | some x =>
    if x.done then s
    else
      let s := { s with cmds := Tab.put s.cmds c { x with done := true } }
      let word := toBytes 4 status
      let s := if x.loc then (engineWrite s x.asid (x.slotAddr + 4) word).getD s
        else { s with hostMem := s.hostMem.writeBytes (x.slotAddr + 4) word }
      let v := sliceN x.bytes 2 2
      if bitN (sliceN x.bytes 1 1) 1 && decide (v < 2048) && Tab.get s.vectors v 0 == (Tab.get s.queues x.queue Queue.reset).func then raiseMsix s v else s

/-! ### The device clearing table (R259, R276, R277) -/

def State.clearing (s : State) (i : Nat) : Clearing := Tab.get s.clearings i Clearing.reset
def State.setClearing (s : State) (i : Nat) (c : Clearing) : State := { s with clearings := Tab.put s.clearings i c }

/-- The handle of a table entry (R259). -/
def handleOf (c : Clearing) (i : Nat) : Nat := 16 * (c.gen % 65536) + i

/-- Mat commands of a handle that have not completed, and the agents in FAULT-HOLD at a transfer of it, which validated before
(R277, R320). -/
def openCmds (s : State) (h : Nat) : List Nat := (s.matCmds.filter (fun e => e.2.handle.toNat == h && !e.2.slices.isEmpty)).map (·.1)
def heldTransfer (s : State) (h : Nat) : Bool := s.agents.any (fun e => e.2.hold == .matFault h)

/-- The ways return to cache mode; statuses recorded against the handle go with it. -/
def freeClearing (s : State) (i : Nat) : State :=
  let c := s.clearing i
  let h := handleOf c i
  { s.setClearing i { c with live := false, freeing := false, ranks := 0, ways := [], poison := false, mats := [], unset := none } with
    matCmds := s.matCmds.filter (fun e => e.2.handle.toNat != h) }

/-- A clearing that is being freed is free once its commands have completed; an agent aborted while it waited for that, or for its claim
to drain, leaves nothing behind (R259, R277, R326). -/
def freesNow (s : State) (i : Nat) : Bool :=
  (openCmds s (handleOf (s.clearing i) i)).isEmpty && !heldTransfer s (handleOf (s.clearing i) i)
def settleFrees (s : State) : State :=
  (s.clearings.map (·.1)).foldl (fun s i =>
    if (s.clearing i).freeing && freesNow s i && !s.agents.any (fun e => e.2.hold == .freeing i) then freeClearing s i else s) s

/-! ### Saved banks (R182) -/

/-- A saved bank stands in a core's scratchpad and FIFOs. -/
def standBank (c : Core) (b : BankSave) : Core :=
  { c with
    scratch := Memory.writeCells (c.scratch.filter (fun e => e.1 / 65536 != b.bank)) b.cells
    fifos := Tab.put c.fifos b.bank b.fifo
    poison := c.poison.filter (fun ln => ln / 512 != b.bank) ++ b.poison
    unset := match b.unset with | none => Tab.erase c.unset b.bank | some u => Tab.put c.unset b.bank u }

/-- A core's scratchpad as a saved workgroup has it, by the core's number in the grove; and a saved bank with what a core's
scratchpad then holds. -/
def savedCore (bs : List BankSave) (j : Nat) : Core := (bs.filter (fun b => b.core == j)).foldl standBank Core.reset
def keepBank (x : Core) (j : Nat) (b : BankSave) : BankSave :=
  if b.core == j then { b with cells := x.scratch.filter (fun e => e.1 / 65536 == b.bank), poison := x.poison.filter (fun ln => ln / 512 == b.bank) }
  else b

/-! ### The ring table (R213, R214). An entry's key is 256·workgroup + handle. -/

def ringKey (wg h : Nat) : Nat := 256 * wg + h % 256

/-- A ring of a workgroup, in a grove's table or saved with the workgroup. -/
def findRing (s : State) (wg h : Nat) : Option Ring :=
  match s.groves.findSome? (fun e => Tab.find e.2.rings (ringKey wg h)) with
  | some r => some r
  | none => (Tab.find s.wgs wg).bind (fun w => Tab.find w.rings (ringKey wg h))

/-- Replace a ring where it stands. -/
def putRing (s : State) (wg h : Nat) (r : Ring) : State :=
  let k := ringKey wg h
  { s with groves := s.groves.map (fun e => (e.1, if (Tab.find e.2.rings k).isSome then { e.2 with rings := Tab.put e.2.rings k r } else e.2))
           wgs := s.wgs.map (fun e => (e.1, if (Tab.find e.2.rings k).isSome then { e.2 with rings := Tab.put e.2.rings k r } else e.2)) }

/-- The slot a sequence number names. -/
def Ring.at_ (r : Ring) (seq : Nat) : RingSlot := Tab.get r.slots (seq % r.scount) RingSlot.empty
def Ring.setAt (r : Ring) (seq : Nat) (x : RingSlot) : Ring := { r with slots := Tab.put r.slots (seq % r.scount) x }

/-- WSEQ advances over filled slots: armed, with every credited byte arrived (R214). -/
def advanceWith (fuel : Nat) (r : Ring) : Ring :=
  match fuel with
  | 0 => r
  | fuel + 1 =>
    if r.wseq < r.aseq && (r.at_ r.wseq).armed && (r.at_ r.wseq).arrived == (r.at_ r.wseq).expect
    then advanceWith fuel { r with wseq := r.wseq + 1 } else r

/-- What a wait on a ring finds: an error status to report, the result word, or nothing yet (R216). -/
inductive RingSeen where
  | none
  | report (c : Cause) (addr : Nat) (r : Ring)
  | result (w : Nat)

def Ring.word (r : Ring) : Nat := r.rseq % r.scount + 256 * (r.at_ r.rseq).status

def ringSeen (r : Ring) : RingSeen :=
  if r.wseq ≤ r.rseq then .none
  else
    let x := r.at_ r.rseq
    if x.status != 0 && !x.reported then .report (causeOfCode x.status) x.addr (r.setAt r.rseq { x with reported := true })
    else .result r.word

/-- The agents that wait on a ring and have got nothing yet. -/
def ringWaiters (s : State) (wg h : Nat) : List Nat :=
  s.agentsWhere (fun _ a => a.wg == wg && a.ringOn == some h && a.ringGot.isNone)

/-- An agent that waited on a ring has its slot filled: a parked one is awake (R22, R41, R216, R217). -/
def Agent.gotRing (a : Agent) (seq w : Nat) (report : Option (Cause × Nat)) : Agent :=
  let a := { a with ringGot := some (seq, w, report) }
  if a.state == .parked then { a with state := .ready }
  else if a.state == .saved && a.savedFrom == .parked then { a with savedFrom := .ready }
  else a

/-- A ring after a change; when a slot has filled, the agents that wait on it get what it holds, the first of them its report
(R214, R216, R217). -/
def settleRing (s : State) (wg h : Nat) (r : Ring) : State :=
  let r' := advanceWith 256 r
  let ks := ringWaiters s wg h
  if r'.wseq = r.wseq || ks.isEmpty then putRing s wg h r'
  else match ringSeen r' with
    | .none => putRing s wg h r'
    | .result w => ks.foldl (fun s k => s.setAgent k ((s.agent k).gotRing r'.rseq w none)) (putRing s wg h r')
    | .report c addr r'' => ks.zipIdx.foldl (fun s e =>
        s.setAgent e.1 ((s.agent e.1).gotRing r'.rseq r'.word (if e.2 = 0 then some (c, addr) else none))) (putRing s wg h r'')

/-- A slot takes a credit at the issue of a copy (R214). -/
def creditRing (s : State) (wg h count : Nat) (arm : Bool) : State :=
  match findRing s wg h with
  | none => s
  | some r =>
    let x := r.at_ r.aseq
    let r' := r.setAt r.aseq { x with expect := x.expect + count, armed := x.armed || arm }
    settleRing s wg h (if arm then { r' with aseq := r.aseq + 1 } else r')

/-- Bytes of a slot have arrived; the first error against it is kept (R214). -/
def arriveRing (s : State) (wg h seq count : Nat) : State :=
  match findRing s wg h with
  | none => s
  | some r =>
    let x := r.at_ seq
    settleRing s wg h (r.setAt seq { x with arrived := x.arrived + count })

def failRing (s : State) (wg h seq code addr : Nat) : State :=
  match findRing s wg h with
  | none => s
  | some r =>
    let x := r.at_ seq
    if x.status = 0 then putRing s wg h (r.setAt seq { x with status := code, addr := addr }) else s

/-! ### Room in the side logs (R245, R324) -/

/-- What holds an agent on its side log is gone: the bytes it reads, the page's entries, or the want of room. -/
def sideFree (s : State) (k : Nat) (a : Agent) : Bool :=
  match a.hold with
  | .sideLoad vas => !vas.any (sideCovers s k)
  | .sidePage p => !((sideEntries s k).any (fun e => pageBase s a e.va == p))
  | .sideRoom n => decide ((s.core a.core).sideLog.length + n ≤ 512)
  | _ => false

/-- An agent in FAULT-HOLD issues its instruction again: it is READY, or will be on its restore. The handle of a mat transfer that has
validated stays noted until then (R277). -/
def reissue (a : Agent) : Agent :=
  let hold := match a.hold with | .matFault h => .matFault h | _ => .none
  if a.state == .faultHold then { a with state := .ready, hold := hold }
  else if a.state == .saved && a.savedFrom == .faultHold then { a with savedFrom := .ready, hold := hold }
  else a

def releaseSide (s : State) : State :=
  { s with agents := s.agents.map (fun e => (e.1, if sideFree s e.1 e.2 then reissue e.2 else e.2)) }

/-! ### Abort of a grid (R326) -/

/-- Of an agent that is gone, what its requests and posted accesses on their way still name: the unit that translated them (R319). -/
def leaveUnit (s : State) (k : Nat) : State := { s with goneUnits := Tab.put s.goneUnits k (s.agent k).unit }

/-- A claim whose agent is gone before it has drained is none (R276, R326; log entry 50). -/
def undoClaim (s : State) (a : Agent) : State :=
  match a.hold with
  | .claimDrain i _ => freeClearing s i
  | _ => s

/-- The end of an agent without the close of EXIT: its unclosed stores, side-log entries and tile accesses go with it; what it has
posted, and the closes that it has issued, still take their places (R326). -/
def killAgent (s : State) (k : Nat) : State :=
  let s := leaveUnit (drainAll s k) k
  let a := s.agent k
  let s := if a.closes.isEmpty then s
    else { s with orphans := Tab.put s.orphans k { Agent.blank with grove := a.grove, asid := a.asid, grid := a.grid, closes := a.closes } }
  let s := if a.kind == .forester then s else
    s.setCore a.core { (s.core a.core) with sideLog := (s.core a.core).sideLog.filter (fun e => e.agent != k)
                                            tileQueue := (s.core a.core).tileQueue.filter (fun e => e.agent != k) }
  releaseSide (settleFrees (settleOrphans (undoClaim { s with agents := Tab.erase s.agents k } a)))

/-- Whether a fault record waits for a killed agent or a copy that has ended. -/
def orphan (agents copies : List Nat) : FaultOf → Bool
  | .hold a => agents.contains a
  | .side _ a _ => agents.contains a
  | .copy c => copies.contains c
  | _ => false

/-- A grid is aborted: its teams and contexts end, its copies end, its ring entries are freed, its command completes with
STATUS 4, or it counts as refused for its parent. -/
def abortOne (s : State) (g : Nat) : State :=
  match Tab.find s.grids g with
  | none => s
  | some x =>
    let team := s.agentsWhere (fun _ a => a.grid == g)
    let mine := (s.copies.filter (fun e => e.2.grid == g && e.2.cmd.isNone)).map (·.1)
    let wgs := (s.wgs.filter (fun e => e.2.grid == g)).map (·.1)
    let s := team.foldl killAgent s
    let s := { s with
      copies := s.copies.filter (fun e => !mine.contains e.1)
      traces := s.traces.filter (fun e => !wgs.contains e.2.wg)
      faults := (s.faults.filter (fun f => f.posted.isSome || !orphan team mine f.whom)).map
        (fun f => if orphan team mine f.whom then { f with whom := .info } else f)
      groves := s.groves.map (fun e => (e.1, { e.2 with rings := e.2.rings.filter (fun r => !wgs.contains r.2.wg) }))
      wgs := s.wgs.filter (fun e => e.2.grid != g)
      grids := Tab.erase s.grids g }
    match x.cmd, x.parent with
    | some c, _ => completeCmd s c 4
    | none, some (k, w, _) => match Tab.find s.agents k with
      | none => s
      | some a => if a.wg == w then s.setAgent k { a with refused := a.refused + 1 } else s
    | none, none => s

/-- The grids that descend from a grid by child launches, itself first (R326); depth is at most ten. -/
def descend (s : State) : Nat → List Nat → List Nat
  | 0, gs => gs
  | n + 1, gs =>
    let kids := (s.grids.filter (fun e => match e.2.parent with | some (_, _, p) => gs.contains p | none => false)).map (·.1)
    gs ++ descend s n kids

def abortGrid (s : State) (g : Nat) : State := (descend s 11 [g]).foldl abortOne s

end Sys2Proof.Machine
end

