-- ==== Sys2Proof/Machine/Copy.lean ====
section
/-! DEFINITION. The asynchronous-copy block, 0x180 to 0x186, and the copy unit's line operation (R205 to R219, R236, R327). -/

namespace Sys2Proof.Machine

/-! ### Issue of a copy -/

/-- The ring a handle names for an agent: one of its workgroup's, live on its grove (R213). -/
def ringOf (s : State) (a : Agent) (h : Nat) : Option Ring :=
  if h < 256 then Tab.find (s.grove a.grove).rings (ringKey a.wg h) else none

/-- The ring is full: the slot to take credits is still held (R214). -/
def ringFull (r : Ring) : Bool := r.scount ≤ r.aseq - r.rseq

/-- The outstanding copies of a grove's unit (R205). -/
def unitFull (s : State) (g : Nat) : Bool :=
  decide (256 ≤ (s.copies.filter (fun e => e.2.grove == g && e.2.cmd.isNone)).length)

/-- A number that no copy has, running or unjoined. -/
def freshCopy (s : State) : Nat := max (nextKey s.copies) (nextKey s.traces)

/-- A copy of an agent enters the unit, crediting its slot; it is to be joined. The agent's posted stores to scratchpads come before it
(R205, R214, R236). -/
def startCopy (s : State) (a : Agent) (h count : Nat) (arm : Bool) (job : CopyJob) : State :=
  let s := drainScratch s s.cur
  let seq := ((ringOf s a h).map Ring.aseq).getD 0
  let c : Copy :=
    { agent := s.cur, grid := a.grid, wg := a.wg, grove := a.grove, core := a.core, asid := a.asid, user := !a.priv
      ring := some (h, seq), cmd := none, job := job, cursor := 0, suspended := false, view := privateView s a, mark := a.sideSeq
      lost := [], num := nowNum s s.cur, crc := (0xFFFFFFFF, 0xFFFFFFFF), crcBack := (0xFFFFFFFF, 0xFFFFFFFF), crcFree := false }
  let t : Trace :=
    { agent := s.cur, wg := a.wg, grove := a.grove, asid := a.asid, user := !a.priv, handle := h, slot := seq, job := job
      since := s.codeSeq, foreign := [] }
  let id := freshCopy s
  creditRing { s with copies := Tab.put s.copies id c, traces := Tab.put s.traces id { t with foreign := foreignSource s s.cur t } }
    a.wg h count arm

/-- The ring checks common to the copies: a live handle of the workgroup, room in the unit and in the ring. A choice of the model
(log entry 71): an instruction that finds no room takes the traps of its own addresses and descriptor first; R205 and R214 say
only that it does not issue. -/
def withRing (s : State) (a : Agent) (h : Nat) (go : Act) : Act :=
  match ringOf s a h with
  | none => .trap .privilege 0
  | some r => if unitFull s a.grove || ringFull r then (match go with | .trap c x => .trap c x | _ => .wait s) else go

/-! ### CPY (R206) -/

def cpyElem (f : FArgs) : Nat := 4 * 2 ^ (f.mod.toNat % 4)

/-- The pairs of destination and source of the active lanes. -/
def cpyPairs (a : Agent) (f : FArgs) : List (Nat × Nat) :=
  (actLanes a (.cpy f)).map (fun l =>
    (rdN a f.a.toNat (if mb f.mod 2 then 1 else 2) l, rdN a f.b.toNat (if mb f.mod 3 then 1 else 2) l))

/-- A global address whose n bytes reach beyond the 50 bits. -/
def beyond (sp : Bool) (x n : Nat) : Bool := !sp && decide (2 ^ 50 < x + n)

/-- The first of a lane's two addresses that offends. -/
def firstOffender (ps : List (Nat × Nat)) (p q : Nat → Bool) : Option Nat :=
  ps.findSome? (fun e => if p e.1 then some e.1 else if q e.2 then some e.2 else none)

def execCpy (f : FArgs) (s : State) := issue (.cpy f) s (fun s a =>
  let n := cpyElem f
  let ps := cpyPairs a f
  let dsp := mb f.mod 2
  let ssp := mb f.mod 3
  withRing s a (rd1 a f.d 0) (
    match firstOffender ps (fun x => beyond dsp x n) (fun x => beyond ssp x n) with
    | some x => .trap .pageNotPresent x
    | none => match firstOffender ps (fun x => x % n != 0) (fun x => x % n != 0) with
      | some x => .trap .misaligned x
      | none => match ps.findSome? (fun e => match (if dsp then scratchFault s a e.1 n else none) with
          | some x => some x
          | none => if ssp then scratchFault s a e.2 n else none) with
        | some x => .trap .bankMode x
        | none => .go (startCopy s a (rd1 a f.d 0) (n * ps.length) (mb f.mod 4) (.lanes n dsp ssp ps))))

/-! ### Tensor copies (R207 to R210) -/

/-- The first twelve bytes of the trailer that a TRL copy takes at issue, and the agent with its registers reset (R136). -/
def takeTrailer (s : State) (a : Agent) (d : List Byte) : List Byte × Agent :=
  if tdTrl d then
    (trailerHead (slotOf s a.grid (tdSlot d)) ⟨a.qmax.toNat, a.qsatn.toNat, a.qnfn.toNat⟩, { a with qmax := 0, qsatn := 0, qnfn := 0 })
  else ([], a)

/-- CPYT once its descriptor is read: its checks in order, then the copy (R208 to R210). -/
def cpytGo (l : LArgs) (s : State) (a : Agent) (d : List Byte) : Act :=
  let sp := mb l.mod 1
  let box := rdN a l.a.toNat (if sp then 1 else 2) 0
  let x := (List.range 5).map (fun k => signedN 32 (regGet a (l.c.toNat + k) 0).toNat)
  let slot := slotOf s a.grid (tdSlot d)
  if tdBad d then .trap .reservedField 0
  else if !sp && decide (2 ^ 50 ≤ box) then .trap .pageNotPresent box
  else match (tensorTop d x).filter (fun t => decide (2 ^ 50 ≤ t)) with
    | some t => .trap .pageNotPresent t
    | none =>
      if tdFlagsBad d then .trap .reservedField 0
      else if tdTrl d && slotBad slot then .trap .formatSlot 0
      else if imageBad d x then .trap .reservedField 0
      else match (if sp then scratchFault s a box (tdExtent d) else none) with
        | some y => .trap .bankMode y
        | none =>
          let tr := takeTrailer s a d
          let count := tdBytes d + (if tdTrailer d then 16 else 0)
          .go (startCopy (s.setMe tr.2) tr.2 (rd1 a l.d 0) count (mb l.mod 2) (.tensor d x box sp (mb l.mod 0) tr.1))

/-- A read as a load of the team reports the address of a line that did not come, or came poisoned (R195, R208). -/
def lineTrap (r : Except ReadFail (List Byte × List Nat)) : Except ReadFail (List Byte × List Nat) :=
  match r with
  | .error e => .error { e with addr := if e.cause == .memUncorrectable || e.cause == .fabricUnreachable then e.addr / 128 * 128 else e.addr }
  | .ok x => .ok x

def execCpyt (l : LArgs) (s : State) := issue (.cpyt l) s (fun s a =>
  let addr := rdN a l.b.toNat 2 0
  if !guardOn a (.cpyt l) then .go s
  else withRing s a (rd1 a l.d 0) (
    if addr % 64 ≠ 0 then .trap .misaligned addr
    else withRead s a (lineTrap (readAtIssue s a addr 64)) (fun s b d => cpytGo l (s.setMe b) b d)))

/-! ### The copy unit (R205, R209 to R211, R327) -/

/-- The grove whose staging cache a copy reads and writes through; commands have none. -/
def Copy.via (c : Copy) : Nat := if c.cmd.isSome then 64 else c.grove
def Copy.unit (c : Copy) : Nat := if c.cmd.isSome then 640 else 576 + c.grove

/-- What a copy's access to some bytes meets. -/
inductive CopyGot where
  | bytes (bs : List Byte)
  | fault (va : Nat) (m : Miss)
  | poisoned (va : Nat)
  | unreachable (va : Nat)
  | away (loc : Nat)
  /-- A byte that happened before the copy's fork stands in a side log (R236, R245). -/
  | logged

/-- A byte as a copy sees it: what happened before its fork, then what is eligible (R236). -/
def copyByte (s : State) (c : Copy) (loc : Nat) : Option Byte :=
  match Tab.find c.view loc with
  | some b => some b
  | none => sharedByte s c.via loc

/-- Some bytes at a global address are in a side log by a write that happened before the copy's fork: it comes first (R222, R236,
R245). -/
def copyLogged (s : State) (c : Copy) (va n : Nat) : Bool :=
  let log := forkLog s c.agent c.mark ++ chainLog s c.grid
  c.cmd.isNone && (List.range n).any (fun j => log.any (fun e => e.covers (va + j)))

/-- Source bytes at a global address. -/
def copyRead (s : State) (c : Copy) (va n : Nat) : CopyGot :=
  match xlateRange s c.unit c.asid va n .read c.user with
  | .error (x, m) => .fault x m
  | .ok locs =>
    let x := s.grove c.via
    if copyLogged s c va n then .logged
    else match (locs.zipIdx).find? (fun e => (Tab.find c.view e.1).isNone && (x.poison.contains (lineOf e.1)
        || (badAt s (portOfUnit c.via) e.1 && (Tab.find x.staging e.1).isNone))) with
    | some e => .poisoned (va + e.2)
    | none => match (locs.zipIdx).find? (fun e => (copyByte s c e.1).isNone) with
      | none => .bytes (locs.map (fun x => (copyByte s c x).getD 0))
      | some e => match Tab.find c.lost (lineOf e.1) with
        | some code => if code = 0x0C then .poisoned (va + e.2) else .unreachable (va + e.2)
        | none => if reachable s (homeOf e.1) then .away e.1 else .unreachable (va + e.2)

/-- Destination bytes written at a global address: eligible at once (R236). -/
def copyWrite (s : State) (c : Copy) (va : Nat) (bs : List Byte) : Except CopyGot State :=
  match xlateRange s c.unit c.asid va bs.length .write c.user with
  | .error (x, m) => .error (.fault x m)
  | .ok locs =>
    if copyLogged s c va bs.length then .error .logged
    else match (locs.zipIdx).find? (fun e => !reachable s (homeOf e.1)) with
    | some e => .error (.unreachable (va + e.2))
    | none =>
      let cells : Tab Byte := (locs.zip bs).foldl (fun t e => Tab.put t e.1 e.2) []
      let s := noteWhole (fillTlbs (softwareWrote s 0xFFFFFFFF locs) c.unit c.asid [va, va + bs.length - 1]) locs
      if c.cmd.isSome then .ok (placeHome (locs.foldl (fun s x => flushAll s c.asid x) s) c.agent c.asid cells)
      else
        let s := supersede s c.agent c.num cells
        let s := { s with covers := (linesOf (cells.filter (fun e => homeOf e.1 != s.device))).foldl (coverLine c.agent c.asid) s.covers }
        let x := s.grove c.grove
        .ok (s.setGrove c.grove { x with staging := cells.foldl (fun t e => Tab.put t e.1 e.2) x.staging
                                         poison := x.poison.filter (fun ln => !(clearedLines s cells x.poison).contains ln) })

/-- The core whose scratchpad a copy names: of its grove, or as it was saved with its workgroup (R182, R310). -/
def copyCore (s : State) (c : Copy) (addr : Nat) : Core :=
  match Tab.find s.wgs c.wg with
  | some w => if w.saved then savedCore w.banks (scratchCore addr) else s.core (8 * c.grove + scratchCore addr)
  | none => s.core (8 * c.grove + scratchCore addr)

def setCopyCore (s : State) (c : Copy) (addr : Nat) (x : Core) : State :=
  match Tab.find s.wgs c.wg with
  | some w =>
    if w.saved then { s with wgs := Tab.put s.wgs c.wg { w with banks := w.banks.map (keepBank x (scratchCore addr)) } }
    else s.setCore (8 * c.grove + scratchCore addr) x
  | none => s.setCore (8 * c.grove + scratchCore addr) x

/-- A copy's bytes go to a scratchpad (R205). -/
def copyScratch (s : State) (c : Copy) (addr : Nat) (bs : List Byte) : State :=
  let s := setCopyCore s c addr ((copyCore s c addr).store (bs.zipIdx.map (fun e => (addr % 2 ^ 21 + e.2, e.1))))
  if ((Tab.find s.wgs c.wg).map Wg.saved).getD false then s
  else numberWrite s ((List.range bs.length).map (fun j => scratchPosAt c.grove (addr + j)))

/-- The lines of a destination range become poisoned: a scratchpad's, or those of global memory; the bytes written so far are
kept (R211, R394). -/
def poisonRange (s : State) (c : Copy) (sp : Bool) (x n : Nat) : State :=
  if sp then
    let k := copyCore s c x
    let lines := (List.range ((x % 2 ^ 21 + n - 1) / 128 + 1 - x % 2 ^ 21 / 128)).map (x % 2 ^ 21 / 128 + ·)
    setCopyCore s c x { k with poison := k.poison ++ lines.filter (fun ln => !k.poison.contains ln) }
  else match xlateRange s c.unit c.asid x n .write c.user with
    | .error _ => s
    | .ok locs =>
      let lines := (locs.map lineOf).dedup
      let s := lines.foldl (fun s ln => flushAll s c.asid (128 * ln)) s
      let keys := lines.map (fun ln => if homeOf (128 * ln) == s.device then lineOf (128 * ln % 2 ^ 40) else farPoison ln)
      { s with poison := (s.poison ++ keys.filter (fun ln => !s.poison.contains ln)) }

/-- A record of a copy's fault (R321, R327). -/
def copyFault (s : State) (id : Nat) (c : Copy) (va : Nat) (m : Miss) (access cursor : Nat) (info : Bool) : FaultRec :=
  let g := (Tab.find s.grids c.grid)
  let sc := fun (h q : Nat) => h % 256 + 256 * (q % ((findRing s c.wg h).map Ring.scount).getD 256)
  { asid := c.asid, va := va, cause := m.cause, access := if c.cmd.isSome then 7 else access, malf := m.malf, user := c.user
    source := if c.cmd.isSome then 1023 else 512 + c.grove, slot := 0xFF, gridId := (g.map Grid.gridId).getD 0
    wgid := BitVec.ofNat 64 (((Tab.find s.wgs c.wg).map Wg.wgid).getD 0), cursor := cursor
    ring := match c.ring with | some (h, q) => sc h q | none => 0xFFFFFFFF
    whom := if info then .info else .copy id, posted := none, overflowed := false }

/-- A copy ends: its slot's bytes have arrived, or its command completes (R205, R214, R297). -/
def endCopy (s : State) (id : Nat) (c : Copy) (count status : Nat) : State :=
  let s := { s with copies := Tab.erase s.copies id }
  match c.ring, c.cmd with
  | some (h, seq), _ => arriveRing s c.wg h seq count
  | none, some k => completeCmd s k status
  | none, none => s

/-- An error that is recorded against the slot of a copy, or against its command (R211, R296). -/
def copyError (s : State) (c : Copy) (code addr : Nat) : State :=
  match c.ring, c.cmd with
  | some (h, seq), _ => failRing s c.wg h seq code addr
  | none, some k => match Tab.find s.cmds k with
    | none => s
    | some x => if x.phase = 0 then { s with cmds := Tab.put s.cmds k { x with phase := code } } else s
  | none, none => s

/-- A fault suspends a copy, which goes on from its cursor with the CRC as it was there; with no fault queue in force it is answered as by REJECT, which aborts the grid, or completes a
COPY command with STATUS 4 (R314, R322, R323, R327). -/
def suspendCopy (s : State) (id : Nat) (c : Copy) (va : Nat) (m : Miss) (access cursor : Nat) : State :=
  if queueInForce s c.asid then
    addFault { s with copies := Tab.put s.copies id { c with cursor := cursor, suspended := true, crc := c.crcBack } }
      (copyFault s id c va m access (match c.job with | .lanes _ _ _ _ => 0 | _ => cursor) false)
  else match c.cmd with
    | some k => completeCmd { s with copies := Tab.erase s.copies id } k 4
    | none => abortGrid s c.grid

/-- The byte ranges overlap. -/
def overlaps (x n y m : Nat) : Bool := decide (x < y + m) && decide (y < x + n)

/-- Bytes at positions where a test holds become indeterminate (R205). -/
def loosen (s : State) (p : Nat → Bool) (bs : List Byte) : List Byte :=
  bs.zipIdx.map (fun e => if p e.2 then (Config.freeValue (s.freeCtr + e.2)).setWidth 8 else e.1)

/-- Bytes on the global or the scratchpad side of a copy, as a source. -/
def sideGot (s : State) (c : Copy) (sp : Bool) (x n : Nat) : CopyGot :=
  if sp then
    let k := copyCore s c x
    match poisonIn k x n with
    | some y => .poisoned y
    | none => .bytes ((List.range n).map (fun i => k.scratchByte (x % 2 ^ 21 + i)))
  else copyRead s c x n

/-- Source bytes of a copy that are raced when it reads them (R205). -/
def racedAt (s : State) (id : Nat) (src : Option (Bool × Nat)) (i : Nat) : Bool :=
  (Tab.find s.traces id).any (fun t => src.any (fun b => sourceRaced s t (b.1, b.2 + i)))

/-- Where a copy meets an error: the source address its slot records, the box offset it restarts from after a fault at an address, the
ranges of its destination that are poisoned, and what follows when it goes on past what the error takes with it (R211, R216, R327). -/
structure CopyPlace where
  source : Nat
  back : Nat → Nat
  spoil : List (Bool × Nat × Nat)
  past : State → State

/-- The first of some destination ranges' addresses that has no translation, and why. -/
def spoilMiss (s : State) (c : Copy) (rs : List (Bool × Nat × Nat)) : Option (Nat × Miss) :=
  rs.findSome? (fun r => if r.1 then none else match xlateRange s c.unit c.asid r.2.1 r.2.2 .write c.user with
    | .error e => some e
    | .ok _ => none)

/-- An uncorrectable error in a source: recorded, its destination lines poisoned, and the copy goes on. A destination that has no
translation suspends the copy first (R211, R327). -/
def copyPoison (s : State) (id : Nat) (c : Copy) (va : Nat) (w : CopyPlace) : State :=
  match spoilMiss s c w.spoil with
  | some (x, m) => suspendCopy s id c x m 5 (w.back x)
  | none =>
    let s := copyError s c (causeCode .memUncorrectable) w.source
    let cursor := match c.job with | .lanes _ _ _ _ => 0 | _ => w.back va
    let s := if queueInForce s c.asid then addFault s (copyFault s id c va ⟨.memUncorrectable, false⟩ 4 cursor true) else s
    w.past (w.spoil.foldl (fun s r => poisonRange s c r.1 r.2.1 r.2.2) s)

/-- One transfer of a copy: n bytes from a source (zeros when there is none), changed by `put`, to a destination, each global or
scratchpad; then what follows with the bytes read, none where they are indeterminate; or the suspension, request or recorded error that
it meets. -/
def moveBytes (s : State) (id : Nat) (c : Copy) (src : Option (Bool × Nat)) (dst : Bool × Nat) (n : Nat) (put : List Byte → List Byte)
    (w : CopyPlace) (go : List Byte → State → State) : State :=
  let s := match src with
    | some (false, x) => resolveEngine s c.asid ((xlateRange s c.unit c.asid x n .read c.user).toOption.getD [])
    | _ => s
  let got : CopyGot := match src with
    | none => .bytes (List.replicate n 0)
    | some (sp, x) => sideGot s c sp x n
  let lost := fun (s : State) => go [] (copyError s c (causeCode .fabricUnreachable) w.source)
  match got with
  | .fault va m => suspendCopy s id c va m 4 (w.back va)
  | .away loc => fetchLine s c.asid loc (.copyRead id)
  | .logged => s
  | .unreachable _ => lost s
  | .poisoned va => copyPoison s id c va w
  | .bytes bs =>
    let hot := (List.range n).any (racedAt s id src)
    let out := loosen s (racedAt s id src) (put bs)
    let bs := if hot then [] else bs
    let s := if hot then s.used n else s
    let s := match src with
      | some (false, x) => fillTlbs s c.unit c.asid [x, x + n - 1]
      | _ => s
    if dst.1 then go bs (copyScratch s c dst.2 out)
    else match copyWrite s c dst.2 out with
      | .ok s => go bs s
      | .error (.fault va m) => suspendCopy s id c va m 5 (w.back va)
      | .error .logged => s
      | .error _ => lost s

/-- Overlapped destination bytes are indeterminate (R205). -/
def overlapped (s : State) (p : Nat → Bool) (bs : List Byte) : List Byte := loosen { s with freeCtr := s.freeCtr + bs.length } p bs

/-- A copy goes on at a cursor. -/
def stepTo (id : Nat) (cursor : Nat) (s : State) : State :=
  match Tab.find s.copies id with
  | none => s
  | some c => { s with copies := Tab.put s.copies id { c with cursor := cursor } }

/-- The copy of a tile image goes on at a cursor, its CRCs over the bytes that it read and those that it wrote; with none read, its CRC
is lost (R135, R136, R210). -/
def stepImage (id : Nat) (cursor : Nat) (bs out : List Byte) (s : State) : State :=
  match Tab.find s.copies id with
  | none => s
  | some c =>
    let crc := (bs.foldl crcByte c.crc.1, out.foldl crcByte c.crc.2)
    let c := { c with cursor := cursor, crc := crc, crcBack := if cursor % 4096 = 0 then crc else c.crcBack, crcFree := c.crcFree || bs.isEmpty }
    { s with copies := Tab.put s.copies id c }

/-- The first address on the tensor side that an element of a 4 KiB chunk of a box reaches. -/
def chunkStart (d : List Byte) (x : List Int) (back : Nat) : Nat :=
  ((List.range (4096 / tdElem d)).findSome? (fun j => tensorAddr d x (back / tdElem d + j))).getD 0

/-- The destination ranges of a tensor copy from a box offset up to another, its trailer's among them (R210, R211). -/
def tensorSpoil (d : List Byte) (x : List Int) (box : Nat) (sp out : Bool) (back stop : Nat) : List (Bool × Nat × Nat) :=
  if !out then [(sp, box + back, stop - back)]
  else
    let inner := (List.range ((min stop (tdBytes d) - back) / tdElem d)).filterMap (fun j =>
      (tensorAddr d x (back / tdElem d + j)).map (fun t => (false, t, tdElem d)))
    inner ++ (if tdBytes d < stop then [(false, tdBase d + (x.headD 0).toNat + max back (tdBytes d), stop - max back (tdBytes d))] else [])

/-- The place of a tensor copy at a box offset: errors take a whole 4 KiB chunk of the box, up to `stop`, and poison the destination of
the chunk, with what of the trailer lies in it (R211, R327). -/
def tensorPlace (id : Nat) (d : List Byte) (x : List Int) (box : Nat) (sp out : Bool) (cursor stop : Nat) : CopyPlace :=
  let back := cursor / 4096 * 4096
  { source := if out then box + back else chunkStart d x back
    back := fun _ => back
    spoil := tensorSpoil d x box sp out back (min (tdExtent d) (back + 4096))
    past := fun s => stepImage id (min stop (back + 4096)) [] [] s }

/-- The two bytes ranges at the end of a tile image: the gap before its trailer, and the trailer (R133, R210). With CHK they are
read at the source, and the image's CRC is compared; with TRL the gap is zero and the trailer made over what was written, else both are
copied. A choice of the model (log entry 71): without TRL the gap holds at the destination what it holds at the source; R210 names the
trailer only. -/
def finishTile (s : State) (id : Nat) (c : Copy) (d : List Byte) (x : List Int) (box : Nat) (sp out : Bool) (trailer : List Byte) : State :=
  let off := trailerOff (tdBytes d)
  let tens := (false, tdBase d + (x.headD 0).toNat)
  let src := if out then (sp, box) else tens
  let dst := if out then tens else (sp, box)
  let at_ := fun (b : Bool × Nat) (o : Nat) => (b.1, b.2 + o)
  let w := { tensorPlace id d x box sp out c.cursor (off + 16) with source := src.2 + c.cursor / 4096 * 4096 }
  let from_ := if tdChk d then some (at_ src c.cursor) else none
  if c.cursor < off then
    let put := fun (bs : List Byte) => if tdTrl d then List.replicate (off - c.cursor) 0 else bs
    moveBytes s id c from_ (at_ dst c.cursor) (off - c.cursor) put w (fun bs => stepImage id off bs (put bs))
  else
    let made := trailer ++ toBytes 4 (if c.crcFree then s.free 0 % 2 ^ 32 else c.crc.2 ^^^ 0xFFFFFFFF)
    moveBytes (s.used 1) id c from_ (at_ dst off) 16 (fun bs => if tdTrl d then made else bs) w
      (fun bs s =>
        let bad := tdChk d && !c.crcFree && !bs.isEmpty && sliceN bs 12 4 != c.crc.1 ^^^ 0xFFFFFFFF
        stepTo id (off + 16) (if bad then copyError s c (causeCode .tileIntegrity) src.2 else s))

/-- STATUS of a COPY command whose copy has ended: the first recorded error (R296). -/
def copyStatus (s : State) (c : Copy) : Nat :=
  match c.cmd.bind (Tab.find s.cmds) with
  | none => 0
  | some x => if x.phase = causeCode .memUncorrectable then 5 else if x.phase = causeCode .fabricUnreachable then 6 else 0

/-- Bytes that a `COPY` command wrote are still on their way to their homes, at another device or behind an invalidation: the command
completes when every byte is written (R296; log entry 72). -/
def copyHeld (s : State) (c : Copy) : Bool := s.held.any (fun e => coversLine s c.agent (lineOf e.1)) || homeward s c.asid

/-- One line operation of a copy. -/
def copyStep (s : State) (id : Nat) (c : Copy) : State :=
  match c.job with
  | .lanes n dsp ssp ps =>
    (match ps[c.cursor]? with
      | none => endCopy s id c (n * ps.length) 0
      | some (dst, src) =>
        let both := fun i => dsp == ssp && ps.any (fun p => decide (p.2 ≤ dst + i) && decide (dst + i < p.2 + n))
        moveBytes s id c (some (ssp, src)) (dsp, dst) n (overlapped s both)
          { source := src / 128 * 128, back := fun _ => c.cursor, spoil := [(dsp, dst, n)], past := stepTo id (c.cursor + 1) }
          (fun _ s => stepTo id (c.cursor + 1) (s.used (2 * n))))
  | .tensor d x box sp out trailer =>
    let e := tdElem d
    if tdExtent d ≤ c.cursor then endCopy s id c (tdBytes d + (if tdTrailer d then 16 else 0)) 0
    else if tdBytes d ≤ c.cursor then finishTile s id c d x box sp out trailer
    else
      let w := tensorPlace id d x box sp out c.cursor (tdBytes d)
      let t := tensorAddr d x (c.cursor / e)
      let next := fun bs (s : State) => stepImage id (c.cursor + e) bs bs (s.used (2 * e))
      if out then
        (match t with
          | none => stepTo id (c.cursor + e) s
          | some t => moveBytes s id c (some (sp, box + c.cursor)) (false, t) e
              (overlapped s (fun i => !sp && overlaps (t + i) 1 box (tdBytes d))) w next)
      else moveBytes s id c (t.map (fun t => (false, t))) (sp, box + c.cursor) e
        (overlapped s (fun i => !sp && inTensor d x (box + c.cursor + i))) w next
  | .range dst src n =>
    if n ≤ c.cursor then (if copyHeld s c then s else endCopy s id c 0 (copyStatus s c))
    else
      let m := min 128 (n - c.cursor)
      let chunk := c.cursor / 4096 * 4096
      let stop := min n (chunk + 4096)
      moveBytes s id c (some (false, src + c.cursor)) (false, dst + c.cursor) m
        (overlapped s (fun i => overlaps (dst + c.cursor + i) 1 src n))
        { source := src + chunk, spoil := [(false, dst + chunk, stop - chunk)], past := stepTo id stop
          back := fun va => (if dst + c.cursor ≤ va ∧ va < dst + c.cursor + m then va - dst else va - src) / 4096 * 4096 }
        (fun _ s => stepTo id (c.cursor + m) (s.used (2 * m)))

/-- COPY_LINE_OPERATION: the copy unit moves the next bytes of a copy that is not suspended; a saved workgroup's go on, into what
is saved; none while the die's clock stands still (R182, R310, R356). -/
def execCopyLineOperation (id : Nat) (s : State) : Host.Outcome State Fault Refusal :=
  match Tab.find s.copies id with
  | none => .next s
  | some c => if c.suspended || (c.cmd.isNone && dieStopped s (c.grove / 8)) then .next s else .next (copyStep s id c)

/-! ### Rings (R212 to R219) -/

def execRingInit (f : FArgs) (s : State) := issue (.ringInit f) s (fun s a =>
  let addr := rdN a f.a.toNat 2 0
  if !guardOn a (.ringInit f) then .go s
  else if addr % 64 ≠ 0 then .trap .misaligned addr
  else withRead s a (readAtIssue s a addr 16) (fun s a o =>
    let ssize := sliceN o 8 4
    let scount := sliceN o 12 4
    if decide (ssize = 0) || ssize % 16 != 0 || decide (2 ^ 24 < ssize) || decide (scount = 0) || decide (256 < scount) then
      .trap .reservedField addr
    else
      let g := s.grove a.grove
      match (List.range 256).find? (fun h => !(g.rings.any (fun r => r.1 % 256 == h))) with
      | none => .go (s.setMe (wrN a f.d.toNat 1 (fun _ => some 0xFFFFFFFF)))
      | some h =>
        let r : Ring := { wg := a.wg, buf := BitVec.ofNat 64 (sliceN o 0 8), ssize := ssize, scount := scount, wseq := 0, rseq := 0
                          aseq := 0, slots := [] }
        .go ((s.setGrove a.grove { g with rings := Tab.put g.rings (ringKey a.wg h) r }).setMe (wrN a f.d.toNat 1 (fun _ => some h)))))

/-- An agent that waits on a ring. -/
def Agent.onRing (a : Agent) (h : Nat) : Agent := { a with ringOn := some h }

/-- A wait on a ring ends with its result word: it joins the copies credited to that slot and to the earlier ones (R216). -/
def ringEnd (s : State) (a : Agent) (d : Reg) (h seq w : Nat) : State :=
  joinCopies (openJoin (s.setMe { wrN a d.toNat 1 (fun _ => some w) with parkPc := none }) s.cur)
    (fun t => t.wg == a.wg && t.handle == h && decide (t.slot ≤ seq))

def execRingWait (f : FArgs) (s : State) := issue (.ringWait f) s (fun s a =>
  let h := rd1 a f.a 0
  if !guardOn a (.ringWait f) then .go s
  else match ringOf s a h with
    | none => .trap .privilege 0
    | some r => match a.ringGot with
      | some (_, _, some (c, addr)) => .trap c addr
      | some (seq, w, none) => .go (ringEnd s a f.d h seq w)
      | none => match ringSeen r with
        | .none =>
          if a.kind == .forester then .wait (s.setMe (a.onRing h)) else .hold (s.setMe { a.onRing h with state := .parked })
        | .report c addr r' => .trapIn (putRing s a.wg h r') c addr
        | .result w => .go (ringEnd s a f.d h r.rseq w))

/-- RING.PARK. A dead or foreign handle traps PRIVILEGE before a misaligned continuation is looked at: the model's choice (R217; log entry
75). -/
def execRingPark (f : FArgs) (s : State) := issue (.ringPark f) s (fun s a =>
  let h := rd1 a f.a 0
  let cont := rdN a f.b.toNat 2 0
  if !guardOn a (.ringPark f) then .go s
  else match ringOf s a h with
    | none => .trap .privilege 0
    | some r =>
      if cont % 8 ≠ 0 then .trap .misaligned cont
      else match a.ringGot with
        | some (_, _, some (c, addr)) => .trap c addr
        | some (seq, w, none) =>
          let t := ringEnd s a f.d h seq w
          match a.parkPc with
          | none => .go t
          | some pc => .goTo t pc
        | none => match ringSeen r with
          | .none => .hold (s.setMe { a.onRing h with state := .parked, parkPc := some (BitVec.ofNat 64 cont) })
          | .report c addr r' => .trapIn (putRing s a.wg h r') c addr
          | .result w => .go (ringEnd s a f.d h r.rseq w))

/-- RING.REL. A dead or foreign handle traps PRIVILEGE before the wait for outstanding loads: the model's choice (R218; log entry 75). -/
def execRingRel (f : FArgs) (s : State) := issue (.ringRel f) s (fun s a =>
  let h := rd1 a f.a 0
  if !guardOn a (.ringRel f) then .go s
  else match ringOf s a h with
    | none => .trap .privilege 0
    | some r =>
      if a.lahead.any (fun e => e.mem && !e.done) then .wait s
      else if r.wseq ≤ r.rseq then .go s
      else .go (settleRing s a.wg h { r.setAt r.rseq RingSlot.empty with rseq := r.rseq + 1 }))

/-- The value RING.Q selects (R219). -/
def ringValue (r : Ring) (sel : Nat) : Nat :=
  let buf := (r.buf.toNat + r.rseq % r.scount * r.ssize) % 2 ^ 64
  if sel = 0 then r.wseq % 2 ^ 32 else if sel = 1 then r.rseq % 2 ^ 32 else if sel = 2 then r.aseq % 2 ^ 32
  else if sel = 3 then (r.at_ r.rseq).status else if sel = 4 then buf % 2 ^ 32 else buf / 2 ^ 32

def execRingQ (f : FArgs) (s : State) := issue (.ringQ f) s (fun s a =>
  let h := rd1 a f.a 0
  if !guardOn a (.ringQ f) then .go s
  else match ringOf s a h with
    | none => .trap .privilege 0
    | some r =>
      let t := s.setMe (wrN a f.d.toNat 1 (fun _ => some (ringValue r (f.mod.toNat % 8))))
      .go (if f.mod.toNat % 8 = 0 && decide (0 < r.wseq) then
          joinCopies (openJoin t s.cur) (fun x => x.wg == a.wg && x.handle == h && decide (x.slot < r.wseq))
        else t))

end Sys2Proof.Machine
end

