-- ==== Sys2Proof/Machine/Sync.lean ====
section
/-! DEFINITION. The synchronisation block, 0x1C0 to 0x1C9: closes, opens, bundles, fences and barriers (R221 to R254), with
the events that complete a close and notice a barrier. -/

namespace Sys2Proof.Machine

/-- The scope field (R249). -/
def fScope (f : FArgs) : Nat := f.mod.toNat % 4

/-! ### Closes and opens (R224, R226, R229, R250, R399) -/

/-- What stands before a close of a scope: earlier accesses are performed, bundles that were withdrawn are published anew, bytes
must be placeable at `.d` and `.f`, and earlier closes and bundles must be complete (R229, R234, R244, R251, R399). -/
def beforeClose (s : State) (sc : Nat) (go : State → Act) : Act :=
  let s := republish (drainAll s s.cur) s.cur
  match (if 2 ≤ sc then unplaceable s s.cur else none) with
  | some x => .trapIn (if closesPending s s.cur || (openBundle s s.cur).isSome then s else placePart s s.cur) .fabricUnreachable x
  | none => if closesPending s s.cur || (openBundle s s.cur).isSome then .wait s else go s

/-- A close of an agent covers bytes that are bound for other devices (R224, R399). -/
def coversAway (s : State) (k : Nat) : Bool :=
  let a := s.agent k
  let away := fun (e : Nat × Byte) => homeOf e.1 != s.device
  (overlay a.kept a.stores).any away || s.held.any (fun e => away e && coversLine s k (lineOf e.1))
    || s.groves.any (fun g => g.2.staging.any away) || s.sent.any (fun e => match e.2.why with | .red j _ => j == k | _ => false)

/-- PCLOSE and PHASE: the close issues and is posted; at `.d` and `.f`, where it covers bytes bound for other devices, the agent is
held until they are there, for it reports the ones that are not placed in time: the model's choice (R229, R399; log entry 72). It has
issued then (R62). -/
def closeHere (s : State) (a : Agent) (sc : Nat) (go : State → Act) : Act :=
  match a.hold with
  | .placing =>
    if !closesPending s s.cur then go (s.setMe { a with hold := .none })
    else match unplaceable s s.cur with
      | some x => .trapIn s .fabricUnreachable x
      | none => .wait s
  | _ => beforeClose s sc (fun s =>
      let t := issueClose s s.cur sc none
      if decide (sc < 2) || !coversAway s s.cur then go t
      else .hold ((if t.me.closes.all (closeFree t t.cur) then completeClose t t.cur else t).modAgent t.cur (fun b => { b with hold := .placing })))

def execPclose (f : FArgs) (s : State) := issue (.pclose f) s (fun s a =>
  if !guardOn a (.pclose f) then .go s else closeHere s a (fScope f) (fun s => .go s))

def execPopen (f : FArgs) (s : State) := issue (.popen f) s (fun s a =>
  if !guardOn a (.popen f) then .go s else .go (openPhase (drainAll s s.cur) s.cur (fScope f)))

def execPhase (f : FArgs) (s : State) := issue (.phase f) s (fun s a =>
  if !guardOn a (.phase f) then .go s
  else closeHere s a (fScope f) (fun s => .go (openPhase s s.cur (fScope f))))

/-- A close would wake a team on a die whose clock stands still (R356). -/
def wakeStopped (s : State) (grid : Nat) (c : Close) : Bool :=
  c.wake.any (fun wt => s.agents.any (fun e =>
    e.2.grid == grid && e.2.wgid.toNat == wt.1 && e.2.teamId == wt.2 && !e.2.away && dieStopped s e.2.die))

/-- CLOSE_COMPLETION: the oldest close of an agent completes once nothing holds it back (R224, R245, R251); those of an aborted team do so
too (R326). None while the die's clock stands still (R356). -/
def execCloseCompletion (k : Nat) (s : State) : Host.Outcome State Fault Refusal :=
  match Tab.find s.orphans k with
  | some o => if dieStopped s o.die then .next s else .next (settleOrphan s (k, o))
  | none => match (s.agent k).closes with
    | [] => .next s
    | c :: _ =>
      if closeFree s k c && !dieStopped s (s.agent k).die && !wakeStopped s (s.agent k).grid c then .next (completeClose s k) else .next s

/-- FENCE: strong accesses of the agent that have not been performed at their homes: posted, on their way, in the side log, or
behind an invalidation (R253). -/
def unperformed (s : State) (k : Nat) : Bool :=
  s.posted.any (fun e => e.2.agent == k) || (sideEntries s k).any SideEntry.red || s.sent.any (fun e => match e.2.why with
    | .atomic j _ _ _ => j == k
    | .atomicSum j _ _ _ => j == k
    | .red j _ => j == k
    | .object j _ => j == k
    | .recall _ => true
    | _ => false)

def execFence (f : FArgs) (s : State) := issue (.fence f) s (fun s a =>
  if !guardOn a (.fence f) then .go s
  else
    let s := drainAll s s.cur
    if unperformed s s.cur then .wait s else .go s)

/-! ### Bundles (R237 to R244, R251, R252) -/

/-- The distinct lines of an agent's ordinary stores since its previous close, side-logged stores included (R237). -/
def bundleLines (s : State) (a : Agent) : Nat :=
  let stored := linesOf a.stores
  let logged := (((sideEntries s s.cur).filter (fun e => !e.red && decide (a.keptSeq ≤ e.seq))).map (fun e => e.va / 128)).dedup
  stored.length + (logged.filter (fun v => !stored.any (fun ln => Tab.find a.lineVa ln == some (128 * v)))).length

/-- The stores that a bundle's close covers besides the bundle's are placed as by PCLOSE: a close of the agent, before which a later
one does not complete (R229, R237). -/
def closeBeside (s : State) (k sc : Nat) : State :=
  completeClose (s.modAgent k (fun a => { a with kept := [], keptSeq := a.sideSeq, scratchOpen := [], closes := a.closes ++ [⟨sc, a.kept, none, none, a.sideSeq, false⟩] })) k

/-- A bundle is formed and goes to its homes: its identity, its lines, and the agent's stores since its previous close (R237 to R239). -/
def formBundle (s : State) (sc : Nat) (name : Word) : State × Nat :=
  let s := closeBeside s s.cur sc
  let a := s.me
  let c := s.core a.core
  let seq := Tab.get c.bundleSeq a.slot 0
  let lines := linesOf a.stores
  let id := nextKey s.bundles
  let b : Bundle :=
    { ident := bundleIdent s.device a.core a.slot seq, name := name, agent := s.cur, scope := sc, state := .pending, bytes := a.stores
      lines := lines, sig := signature lines, unacked := lines.filter (fun ln => homeOf (128 * ln) != s.device), refusedAt := none }
  let s := s.setCore a.core { c with bundleSeq := Tab.put c.bundleSeq a.slot ((seq + 1) % 2 ^ 24) }
  let s := s.modAgent s.cur (fun a => { a with stores := [], storeAt := [], bundled := overlay a.bundled a.stores })
  (publish { s with bundles := Tab.put s.bundles id b } id, id)

/-- What keeps a BCLOSE from placing bytes outside its bundle, as the address of the first (R237, R399). -/
def unplaceableBeside (s : State) (k : Nat) : Option Nat := unplaceable (s.modAgent k (fun a => { a with stores := [] })) k
def placeBeside (s : State) (k : Nat) : State :=
  (placePart (s.modAgent k (fun a => { a with stores := [] })) k).modAgent k (fun a => { a with stores := (s.agent k).stores })

/-- BCLOSE continues once its bundle is placed, or withdrawn; until then it has issued, and holds its team (R62, R239, R244, R251). -/
def bundleDone (s : State) (f : FArgs) (id : Nat) : Act :=
  match Tab.find s.bundles id with
  | none => .go (s.setMe { s.me with hold := .none })
  | some b =>
    if b.state == .pending then holdOnce s.me (s.setMe { s.me with hold := .bundle id })
    else .go (s.setMe (wrN { s.me with hold := .none } f.d.toNat 2 (fun _ => some b.ident)))

def execBclose (f : FArgs) (s : State) := issue (.bclose f) s (fun s a =>
  if !guardOn a (.bclose f) then .go s
  else match a.hold with
    | .bundle id => bundleDone (placeVersions s id) f id
    | _ =>
      if 4096 < bundleLines s a then .trap .bundleLimit 0
      else
        let s := republish (drainAll s s.cur) s.cur
        let waits := closesPending s s.cur || (openBundle s s.cur).isSome || !(sideEntries s s.cur).isEmpty
        match unplaceableBeside s s.cur with
        | some x => .trapIn (if waits then s else placeBeside s s.cur) .fabricUnreachable x
        | none =>
          if waits then .wait s
          else
            let r := formBundle s (fScope f) (regGet a f.a.toNat 0)
            bundleDone r.1 f r.2)

/-- The state of a bundle as BQUERY reports it (R252). -/
def bundleCode : BundleState → Nat
  | .pending => 0 | .placed => 0 | .committed => 1 | .settled => 2 | .withdrawn => 3

/-- What BQUERY answers for an identity of this device: its state, or its name; one that is held no longer has settled (R252). -/
def bundleAnswer (s : State) (name : Bool) (ident : Nat) : Nat :=
  match (s.bundles.find? (fun e => e.2.ident == ident)).map (·.2) with
  | some b => if name then b.name.toNat else bundleCode b.state
  | none => if name then 0 else 2

/-- BQUERY asks the origin of an identity on another device as an atomic operation, with control bytes that R196 leaves unused: 0xFB
for the state, 0xFC for the name (log entries 32 and 73). -/
def queryOp (asid ident : Nat) (name : Bool) : FabOp :=
  { kind := 3, flags := 0, key := 0, asid := asid, tag := 0, addr := 0, arg := (if name then 0xFC else 0xFB) * 2 ^ 40
    data := toBytes 8 ident, src := 0, tc := 1 }

/-- BQUERY (R252). Where the origin cannot be reached it traps FABRIC_UNREACHABLE with TRAPADDR 0, for no address is in question: the
model's choice (log entry 75). -/
def execBquery (f : FArgs) (s : State) := issue (.bquery f) s (fun s a =>
  let ident := rdN a f.a.toNat 2 0 % 2 ^ 48
  let name := mb f.mod 0
  let e := fun (v : Nat) => mkEntry a (.bquery f) f.d 1 true true [] (fun _ => v)
  if !tokenFree s a then .wait s
  else if !guardOn a (.bquery f) then .long s (e 0)
  else
    let s := republish s s.cur
    if ident / 2 ^ 37 == s.device then .long s (e (bundleAnswer s name ident))
    else if reachable s (ident / 2 ^ 37) then
      .long (sendOp s (ident / 2 ^ 37) (queryOp a.asid ident name) (.query s.cur (freshToken a))) { e 0 with tags := [Tab.freshKey s.sent 0] }
    else .long s { e 0 with taint := 1, err := some (.fabricUnreachable, 0) })

/-! ### Barriers (R246 to R248, R254) -/

/-- The location of the object at an address, or the trap of a barrier instruction (R254, R320). -/
def objectLoc (s : State) (a : Agent) (addr : Nat) : Except Cause Nat :=
  if addr % 64 ≠ 0 then .error .misaligned
  else match xlate s a.unit a.asid addr .update (!a.priv) with
    | .error m => .error m.cause
    | .ok loc => .ok loc

/-- A barrier operation goes to the object's home on another device as an atomic operation, with control bytes that R196 leaves unused
(R231; log entry 73). -/
def askObject (s : State) (k asid loc : Nat) (op : BarOp) : State :=
  let code := match op with | .read => (0xF8, 0) | .init n => (0xF9, n) | .arrive j => (0xFA, j)
  sendOp (s.modAgent k (fun a => { a with objects := Tab.erase a.objects loc })) (homeOf loc)
    { kind := 3, flags := 0, key := 0, asid := asid, tag := 0, addr := loc % 2 ^ 40, arg := code.1 * 2 ^ 40, data := toBytes 8 code.2
      src := 0, tc := 1 } (.object k loc)
def objectAsked (s : State) (k loc : Nat) : Bool := s.sent.any (fun e => e.2.why == .object k loc)

/-- A barrier operation of the current agent, then what follows with the object as it read it. At another device's home it is asked
for once, and the agent holds until the answer has come; its own copies of the object give way when the answer says that it wrote
(R222, R231, R254, R372). A trap here leaves the close of its release performed: the model's choice (R10, R247; log entry 75). -/
def onObject (s : State) (a : Agent) (addr loc : Nat) (op : BarOp) (go : State → List Byte → Act) : Act :=
  let seen := fun (s : State) => s.modAgent s.cur (fun b => { b with lastObs := s.strongSeq, hold := .none })
  if homeOf loc == s.device then
    let r := objectAct s s.cur a.asid loc op
    match r.err with
    | some c => .trapIn r.s c (if c == .mixedSize then addr else addr / 128 * 128)
    | none => go (seen r.s) r.old
  else if a.hold != .object loc then
    if !reachable s (homeOf loc) then .trapIn s .fabricUnreachable addr
    else if lineHeld (flushLine s s.cur loc) loc then .wait (flushLine s s.cur loc)
    else .wait ((askObject (sendWatch (flushLine s s.cur loc) s.cur a.asid loc) s.cur a.asid loc op).modAgent s.cur (fun b => { b with hold := .object loc }))
  else if objectAsked s s.cur loc then .wait s
  else match Tab.find s.me.objects loc with
    | some o => go (seen (if (op.new o).isSome then giveWay s s.cur loc 64 (nowNum s s.cur) else s)) o
    | none =>
      let c := (a.lostLine.map (·.2)).getD .fabricUnreachable
      .trapIn s c (if c == .memUncorrectable then addr / 128 * 128 else addr)

/-- The object of a barrier instruction, once the instruction's checks are past and, where it releases, its close has completed. -/
def withObject (s : State) (a : Agent) (addr : Nat) (rel : Option Nat) (op : BarOp) (go : State → List Byte → Act) : Act :=
  match objectLoc s a addr with
  | .error c => .trap c addr
  | .ok loc => match rel, a.hold with
    | some sc, .none => released s 2 sc (fun s => onObject s s.me addr loc op go)
    | _, _ => onObject s a addr loc op go

def execBarInit (f : FArgs) (s : State) := issue (.barInit f) s (fun s a =>
  let n := rd1 a f.b 0
  let addr := rdN a f.a.toNat 2 0
  if !guardOn a (.barInit f) then .go s
  else match objectLoc s a addr with
    | .error c => .trap c addr
    | .ok _ =>
      if decide (n = 0) || decide (128 < n) then .trap .reservedField 0
      else withObject s a addr (some (fScope f)) (.init n) (fun s _ => .go s))

/-- The participant index of an arrival (R254). -/
def arrivalIndex (a : Agent) (f : FArgs) : Nat := if mb f.mod 2 then rd1 a f.b 0 else a.teamId

/-- The generation of a barrier object at an address of an agent, as far as this device knows it. -/
def genAt (s : State) (a : Agent) (addr : Nat) : Option Nat :=
  match xlate s a.unit a.asid addr .update (!a.priv) with
  | .error _ => none
  | .ok loc => if homeOf loc == s.device then some (homeRead s (loc + 8) 4) else (Tab.find a.objects loc).map (fun o => sliceN o 8 4)

/-- An arrival record entry whose generation has completed. -/
def arrivalOver (s : State) (a : Agent) (e : Nat × Nat) : Bool := (genAt s a e.1).any (fun g => g != e.2)

/-- The objects of other devices in which an agent waits for a generation to end are read anew (R248). -/
def pollObjects (s : State) (k : Nat) : State :=
  let a := s.agent k
  a.arrivals.foldl (fun s e => match xlate s a.unit a.asid e.1 .update (!a.priv) with
    | .error _ => s
    | .ok loc =>
      if homeOf loc == s.device || objectAsked s k loc || !reachable s (homeOf loc) || arrivalOver s (s.agent k) e then s
      else askObject s k a.asid loc .read) s

/-- The record after an arrival: the object's own entry, a free one, or one whose generation has completed; none when no
entry qualifies (R248). -/
def recordArrival (s : State) (a : Agent) (addr g : Nat) : Option (List (Nat × Nat)) :=
  if a.arrivals.any (fun e => e.1 == addr) then some (a.arrivals.map (fun e => if e.1 == addr then (addr, g) else e))
  else if a.arrivals.length < 4 then some (a.arrivals ++ [(addr, g)])
  else (a.arrivals.find? (arrivalOver s a)).map (fun old => a.arrivals.filter (fun e => e != old) ++ [(addr, g)])

/-- An arrival: a completed close at the scope, then the one strong access, and its record (R247, R248, R254). -/
def arrive (f : FArgs) (s : State) (a : Agent) (go : State → Act) : Act :=
  let addr := rdN a f.a.toNat 2 0
  let k := arrivalIndex a f
  if addr % 64 ≠ 0 then .trap .misaligned addr
  else if 128 ≤ k then .trap .reservedField 0
  else if (recordArrival s a addr 0).isNone then .wait (pollObjects s s.cur)
  else withObject s a addr (some (fScope f)) (.arrive k) (fun s o =>
    if expectBad o then .trapIn s .reservedField addr
    else go (s.setMe { s.me with arrivals := (recordArrival s s.me addr (sliceN o 8 4)).getD s.me.arrivals }))

/-- A wait on an object ends: its entry is free, and it opens (R248). -/
def endWait (s : State) (addr sc : Nat) : State :=
  let v := s.setMe { s.me with arrivals := s.me.arrivals.filter (fun e => e.1 != addr), syncWait := false }
  openPhase (drainAll v v.cur) v.cur sc

/-- A wait: open at once, without an access, where no arrival is recorded; or where its generation has completed; else BARRIER
(R248). -/
def barWait (f : FArgs) (s : State) (a : Agent) : Act :=
  let addr := rdN a f.a.toNat 2 0
  match a.arrivals.find? (fun e => e.1 == addr), objectLoc s a addr with
  | _, .error c => .trap c addr
  | none, .ok _ => .go (endWait s addr (fScope f))
  | some e, .ok _ => withObject s a addr none .read (fun s o =>
      if sliceN o 8 4 != e.2 then .go (endWait s addr (fScope f))
      else .hold (s.setMe { s.me with state := .barrier, hold := .barrier addr }))

def execBarArv (f : FArgs) (s : State) := issue (.barArv f) s (fun s a =>
  if !guardOn a (.barArv f) then .go s else arrive f s a (fun s => .go s))

def execBarWait (f : FArgs) (s : State) := issue (.barWait f) s (fun s a =>
  if !guardOn a (.barWait f) then .go s else barWait f s a)

def execBarSync (f : FArgs) (s : State) := issue (.barSync f) s (fun s a =>
  if !guardOn a (.barSync f) then .go s
  else if a.syncWait then barWait f s a
  else arrive f s a (fun s =>
    let t := s.setMe { s.me with syncWait := true }
    barWait f t t.me))

/-- BARRIER_COMPLETION_NOTICE: an agent in BARRIER whose object's generation has changed becomes READY, or will be on restore; an
object of another device is asked for (R22, R23, R248). None while the die's clock stands still (R356). -/
def execBarrierCompletionNotice (k : Nat) (s : State) : Host.Outcome State Fault Refusal :=
  let a := s.agent k
  match a.hold with
  | .barrier addr =>
    let ended := match a.arrivals.find? (fun e => e.1 == addr) with
      | some e => arrivalOver s a e
      | none => true
    if dieStopped s a.die then .next s
    else if !ended then .next (pollObjects s k)
    else if a.state == .barrier then .next (s.setAgent k { a with state := .ready, hold := .none })
    else if a.state == .saved && a.savedFrom == .barrier then .next (s.setAgent k { a with savedFrom := .ready, hold := .none })
    else .next s
  | _ => .next s

end Sys2Proof.Machine
end

