-- ==== Sys2Proof/Machine/CrossLane.lean ====
section
/-! DEFINITION. The cross-lane block, 0x0A0 to 0x0A6 (R108 to R113). -/

namespace Sys2Proof.Machine

/-- A lane is active when its mask bit is 1 and its guard is true (R108), also when every operand is an s register. -/
def crossActive (a : Agent) (i : Instr) (l : Nat) : Bool := a.mask.getLsbD l && guardTrue a (shapeOf i) l

/-- The first lane of a lane's strand (R28). -/
def strandBase (a : Agent) (l : Nat) : Nat := l / a.strand * a.strand

/-- The active lanes of the strand of a lane, ascending. -/
def strandActive (a : Agent) (i : Instr) (l : Nat) : List Nat :=
  ((List.range a.strand).map (fun j => strandBase a l + j)).filter (crossActive a i)

/-- The active lanes of the team; the first of them stands for the one strand when d is an s register. -/
def crossLanes (a : Agent) (i : Instr) : List Nat := (List.range a.nlanes).filter (crossActive a i)

/-- Write n registers in the active lanes; an s destination takes its single strand's result once, if a lane is active. -/
def wrCross (a : Agent) (i : Instr) (d : Reg) (n : Nat) (f : Nat → Nat) : Agent :=
  if isS d then (match crossLanes a i with | [] => a | l :: _ => wrN a d.toNat n (fun _ => some (f l)))
  else wrN a d.toNat n (fun l => if crossActive a i l then some (f l) else none)

/-- The b operand as an unsigned number: the immediate's field or a register (R109). -/
def crossB (a : Agent) (f : FArgs) (l : Nat) : Nat := if f.imm then f.b.toNat else rd1 a f.b l

/-- The source lane of SHFL for lane j of a strand of W (R109). -/
def shflLane (mode W j b : Nat) : Nat :=
  if mode = 0 then b % W
  else if mode = 1 then (if b ≤ j then j - b else j)
  else if mode = 2 then (if j + b < W then j + b else j)
  else j ^^^ (b % W)

def execShfl (f : FArgs) (s : State) := issue (.shfl f) s (onAgent (fun a =>
  wrCross a (.shfl f) f.d 1 (fun l =>
    rd1 a f.a (strandBase a l + shflLane (xMode f.mod) a.strand (l - strandBase a l) (crossB a f l)))))

def execBcast (f : FArgs) (s : State) := issue (.bcast f) s (onAgent (fun a =>
  wrCross a (.bcast f) f.d 1 (fun l => rd1 a f.a (strandBase a l + crossB a f l % a.strand))))

/-- The mask of the lanes of a lane's strand that are active and meet a test, bit j for lane j (R111). -/
def strandMask (a : Agent) (i : Instr) (l : Nat) (p : Nat → Bool) : Nat :=
  ((strandActive a i l).filter p).foldl (fun m x => m + 2 ^ (x - strandBase a l)) 0

/-- The registers a strand's mask fills, and the rule for a mask of 64 lanes: an even d whose pair lies in the allotment
(R111). -/
def maskRegs (a : Agent) : Nat := if a.strand = 64 then 2 else 1
def maskBad (a : Agent) (d : Reg) : Bool :=
  a.strand == 64 && (d.toNat % 2 == 1 || (isV d && decide (a.allot < d.toNat + 2)))

def execBallot (f : FArgs) (s : State) := issue (.ballot f) s (fun s a =>
  if maskBad a f.d then .trap .reservedField 0
  else .go (s.setMe (wrCross a (.ballot f) f.d (maskRegs a) (fun l =>
    strandMask a (.ballot f) l (fun x => bitN (rd1 a f.a x) (crossB a f 0 % 32))))))

def execMatchLanes (f : FArgs) (s : State) := issue (.matchLanes f) s (fun s a =>
  if maskBad a f.d then .trap .reservedField 0
  else .go (s.setMe (wrCross a (.matchLanes f) f.d (maskRegs a) (fun l =>
    strandMask a (.matchLanes f) l (fun x => rd1 a f.a x == rd1 a f.a l)))))

/-- The vote over a strand's tested bits (R112). -/
def voteOf (mode : Nat) (bits : List Bool) : Bool :=
  if mode = 0 then bits.all id else if mode = 1 then bits.any id else bits.all id || bits.all (fun b => !b)

def execVote (f : FArgs) (s : State) := issue (.vote f) s (onAgent (fun a =>
  wrCross a (.vote f) f.d 1 (fun l =>
    shiftIn (rd1 a f.d l) (voteOf (xMode f.mod) ((strandActive a (.vote f) l).map (fun x =>
      bitN (rd1 a f.a x) (crossB a f x % 32)))))))

/-- One reduction step of a mode (R113). -/
def redStep (mode : Nat) (u : Bool) (x y : Nat) : Nat × Word :=
  if mode = 0 then (addN 32 x y, 0) else if mode = 1 then (minN u 32 x y, 0) else if mode = 2 then (maxN u 32 x y, 0)
  else if mode = 3 then (x &&& y, 0) else if mode = 4 then (x ||| y, 0) else if mode = 5 then (x ^^^ y, 0)
  else if mode = 8 then faddC fp32 0 x y else fminmaxC fp32 (decide (mode = 10)) x y

/-- A left fold of the reduction over values in lane order, with the flags it sets; none for no value. -/
def redFold (mode : Nat) (u : Bool) : List Nat → Option (Nat × Word)
  | [] => none
  | x :: xs => some (xs.foldl (fun r y => let z := redStep mode u r.1 y; (z.1, r.2 ||| z.2)) (x, 0))

/-- Two neighbouring nodes of the pairwise tree of FP32 additions (R113). -/
def treeNode : Option (Nat × Word) → Option (Nat × Word) → Option (Nat × Word)
  | some x, some y => let z := faddC fp32 0 x.1 y.1; some (z.1, x.2 ||| y.2 ||| z.2)
  | some x, none => some x
  | none, y => y

/-- One level of the tree. -/
def treeLevel : List (Option (Nat × Word)) → List (Option (Nat × Word))
  | x :: y :: r => treeNode x y :: treeLevel r
  | r => r

/-- The root after the levels that a strand of at most 64 lanes needs. -/
def treeSum (leaves : List (Option (Nat × Word))) : Option (Nat × Word) :=
  ((treeLevel (treeLevel (treeLevel (treeLevel (treeLevel (treeLevel leaves)))))).head?).getD none

/-- The reduction of a strand, and its flags (R113). -/
def sredOf (a : Agent) (f : FArgs) (l : Nat) : Nat × Word :=
  let i := Instr.sred f
  let r := if xMode f.mod = 8 then
      treeSum ((List.range a.strand).map (fun j =>
        let x := strandBase a l + j
        if crossActive a i x then some (rd1 a f.a x, 0) else none))
    else redFold (xMode f.mod) (mb f.mod 0) ((strandActive a i l).map (rd1 a f.a))
  r.getD (0, 0)

/-- The value of an empty exclusive scan (R113). -/
def scanIdentity (mode : Nat) (u : Bool) : Nat :=
  if mode = 1 then (if u then 0xFFFFFFFF else 0x7FFFFFFF) else if mode = 2 then (if u then 0 else 0x80000000)
  else if mode = 3 then 0xFFFFFFFF else if mode = 8 then 0x80000000
  else if mode = 9 then fp32.nanCode else if mode = 10 then fp32.nanCode else 0

/-- The scan of a lane: the reduction in lane order over the active lanes below it, and itself when inclusive (R113). -/
def sscanOf (a : Agent) (f : FArgs) (l : Nat) : Nat × Word :=
  let below := (strandActive a (.sscan f) l).filter (fun x => decide (x < l) || (x == l && !mb f.mod 1))
  (redFold (xMode f.mod) (mb f.mod 0) (below.map (rd1 a f.a))).getD (scanIdentity (xMode f.mod) (mb f.mod 0), 0)

/-- A scan's flags: those of every step the strand's running reduction makes (R113). An exclusive .fmin or .fmax makes its last step
too, so a signalling NaN in the last active lane sets NV though it is in no lane's result: the model's choice, for R113 gives the
running order for .fadd alone (log entry 75). -/
def sscanFlags (a : Agent) (f : FArgs) (l : Nat) : Word :=
  ((redFold (xMode f.mod) (mb f.mod 0) ((strandActive a (.sscan f) l).map (rd1 a f.a))).getD (0, 0)).2

def execSred (f : FArgs) (s : State) := issue (.sred f) s (onAgent (fun a =>
  let a' := wrCross a (.sred f) f.d 1 (fun l => (sredOf a f l).1)
  { a' with fstat := a'.fstat ||| orLanes (crossLanes a (.sred f)) (fun l => (sredOf a f l).2) }))

def execSscan (f : FArgs) (s : State) := issue (.sscan f) s (onAgent (fun a =>
  let a' := wrCross a (.sscan f) f.d 1 (fun l => (sscanOf a f l).1)
  { a' with fstat := a'.fstat ||| orLanes (crossLanes a (.sscan f)) (sscanFlags a f) }))

end Sys2Proof.Machine
end

