-- ==== Sys2Proof/Machine/FloatArith.lean ====
section
/-! DEFINITION. The float and special-function block, 0x040 to 0x054 (R83, R96 to R103). -/

namespace Sys2Proof.Machine

/-! ### The special functions: which results their stated accuracy allows -/

/-- Fixed point with 200 fraction bits, for the bounds of the special functions. -/
def fixBits : Nat := 200
def fixOne : Nat := 2 ^ fixBits
def fixMul (x y : Nat) : Nat := x * y / fixOne

/-- The sum of x^k/k! from a term on, n terms. -/
def expSum (x : Nat) : Nat → Nat → Nat → Nat
  | 0, _, _ => 0
  | n + 1, k, t => t + expSum x n (k + 1) (fixMul t x / (k + 1))

/-- The sum with alternating signs of x²-steps: the terms of sine and cosine. -/
def altSum (x2 : Nat) : Nat → Nat → Int → Int
  | 0, _, _ => 0
  | n + 1, k, t => t + altSum x2 n (k + 2) (-(t * (x2 : Int) / (fixOne : Int)) / (((k + 1) * (k + 2) : Nat) : Int))

/-- The sum of y^(2k+1)/(2k+1). -/
def atanhSum (y2 : Nat) : Nat → Nat → Nat → Nat
  | 0, _, _ => 0
  | n + 1, k, t => t / k + atanhSum y2 n (k + 2) (fixMul t y2)

/-- ln 2, twice the sum of (1/3)^(2k+1)/(2k+1). -/
def fixLn2 : Nat := 2 * atanhSum (fixOne / 9) 70 1 (fixOne / 3)

/-- The sum with alternating signs of y^(2k+1)/(2k+1): an arc tangent of 1/n. -/
def atanInvSum (n2 : Nat) : Nat → Nat → Int → Int
  | 0, _, _ => 0
  | j + 1, k, t => t / (k : Int) + atanInvSum n2 j (k + 2) (-(t / (n2 : Int)))

/-- π by 16·atan(1/5) − 4·atan(1/239). -/
def fixPi : Nat :=
  (16 * atanInvSum 25 60 1 ((fixOne / 5 : Nat) : Int) - 4 * atanInvSum 57121 20 1 ((fixOne / 239 : Nat) : Int)).toNat

/-- A finite magnitude in fixed point. -/
def toFix (mag : Nat) (exp : Int) : Nat := if 0 ≤ exp + fixBits then mag * pow2 (exp + fixBits) else mag / pow2 (-(exp + fixBits))

/-- 2^(x/fixOne) for a signed fixed-point x: a magnitude and its exponent. -/
def exp2Fix (x : Int) : Nat × Int :=
  let n := x / (fixOne : Int)
  let r := (x % (fixOne : Int)).toNat
  (expSum (fixMul r fixLn2) 60 0 fixOne, n - fixBits)

/-- log2 of mag · 2^exp, mag ≠ 0, as signed fixed point. -/
def log2Fix (mag : Nat) (exp : Int) : Int :=
  let lead := leadExp mag exp
  let m := toFix mag (exp - lead)
  let y := (m - fixOne) * fixOne / (m + fixOne)
  lead * fixOne + (((2 * atanhSum (fixMul y y) 130 1 y) * fixOne / fixLn2 : Nat) : Int)

/-- A signed fixed-point number as an exact value. -/
def ofFix (x : Int) : FVal := .fin (decide (x < 0)) x.natAbs (-(fixBits : Int))

/-- sin(π·t) for t in fixed point, 0 ≤ t ≤ 1/2. -/
def sinPi (t : Nat) : Int :=
  let x := fixMul t fixPi
  altSum (fixMul x x) 35 1 (x : Int)

/-- sin(π·a) for |a| = mag · 2^exp, reduced modulo 2. -/
def sinOf (neg : Bool) (mag : Nat) (exp : Int) : Int :=
  let t := toFix mag exp % (2 * fixOne)
  let upper := decide (fixOne ≤ t)
  let u := t % fixOne
  let v := sinPi (if fixOne / 2 < u then fixOne - u else u)
  if xor neg upper then -v else v

/-- Half of a unit in the last place of a result of a given leading exponent, as an exponent of 2 (FP32). -/
def ulpExp (lead : Int) : Int := max (lead - 23) (-149)

/-- The distance of two values is at most k · 2^e. -/
def within (x y : FVal) (k : Nat) (e : Int) : Bool :=
  match x, y with
  | .fin n1 m1 e1, .fin n2 m2 e2 =>
    let q := min (min e1 e2) e
    decide ((scaledInt n1 m1 e1 q - scaledInt n2 m2 e2 q).natAbs ≤ k * pow2 (e - q))
  | _, _ => false

/-- The fixed function's result on an input: the choice it makes, when that lies within the stated bound of the exact value,
else the nearest value (R102, R103; log entry 2). -/
def sfuPick (op x : Nat) (exact : FVal) (k : Nat) (e : Int) : Nat :=
  let c := Config.sfuChoice (BitVec.ofNat 10 op) (BitVec.ofNat 32 x) % 2 ^ 32
  if within (decodeF fp32 c) exact k e then c else (roundV fp32 0 exact).1

/-- k units in the last place of the exact value. -/
def ulpPick (op x k : Nat) (exact : FVal) : Nat :=
  match exact with
  | .fin _ m e => if m = 0 then (roundV fp32 0 exact).1 else sfuPick op x exact k (ulpExp (leadExp m e))
  | _ => (roundV fp32 0 exact).1

/-- A magnitude is a power of two. -/
def isPow2 (m : Nat) : Bool := decide (m = 2 ^ m.log2)

/-- FRCP (R102, R103): a negative input gives the result of its magnitude, negated. -/
def frcpC (x : Nat) : Nat × Word :=
  match decodeF fp32 x with
  | .nan s => (fp32.nanCode, flagIf s flagNV)
  | .inf n => (fp32.signBit n, 0)
  | .fin n m e =>
    if m = 0 then (fp32.infCode n, flagDZ)
    else
      let q := divV fp32 (.fin false 1 0) (.fin false m e)
      let r := roundV fp32 0 q.1
      if r.2 &&& flagOF != 0 then (fp32.infCode n, flagOF)
      else (fp32.signBit n + (if isPow2 m then r.1 else ulpPick 0x04D (x % 2 ^ 31) 1 q.1 % 2 ^ 31), 0)

/-- FRSQ (R102, R103). -/
def frsqC (x : Nat) : Nat × Word :=
  match decodeF fp32 x with
  | .nan s => (fp32.nanCode, flagIf s flagNV)
  | .inf n => if n then (fp32.nanCode, flagNV) else (0, 0)
  | .fin n m e =>
    if m = 0 then (fp32.infCode n, flagDZ)
    else if n then (fp32.nanCode, flagNV)
    else
      let lead := leadExp m e
      if isPow2 m && lead % 2 == 0 then ((roundF fp32 0 false 1 (-(lead / 2))).1, 0)
      else
        let r := sqrtMag 60 m e
        (ulpPick 0x04E x 1 (divV fp64 (.fin false 1 0) (.fin false r.1 r.2)).1, 0)

/-- FEXP2 (R102, R103). Below −200 every result the bound allows is the same as at −200. -/
def fexp2C (x : Nat) : Nat × Word :=
  match decodeF fp32 x with
  | .nan s => (fp32.nanCode, flagIf s flagNV)
  | .inf n => if n then (0, 0) else (fp32.infCode false, 0)
  | .fin n m e =>
    let v := scaledInt n m e (-149)
    if 128 * 2 ^ 149 ≤ v then (fp32.infCode false, flagOF)
    else if v % 2 ^ 149 = 0 && decide (-(149 * 2 ^ 149) ≤ v) then ((roundF fp32 0 false 1 (v / 2 ^ 149)).1, 0)
    else
      let r := exp2Fix (max (-(200 * (fixOne : Int))) (v * 2 ^ (fixBits - 149)))
      (ulpPick 0x04F x 2 (.fin false r.1 r.2), 0)

/-- FLOG2 (R102, R103). -/
def flog2C (x : Nat) : Nat × Word :=
  match decodeF fp32 x with
  | .nan s => (fp32.nanCode, flagIf s flagNV)
  | .inf n => if n then (fp32.nanCode, flagNV) else (fp32.infCode false, 0)
  | .fin n m e =>
    if m = 0 then (fp32.infCode true, flagDZ)
    else if n then (fp32.nanCode, flagNV)
    else if isPow2 m then ((roundV fp32 0 (intV (leadExp m e))).1, 0)
    else
      let v := ofFix (log2Fix m e)
      let near := !ltV (.fin false m e) (.fin false 1 (-1)) && !ltV (.fin false 2 0) (.fin false m e)
      (if near then sfuPick 0x050 x v 1 (-22) else ulpPick 0x050 x 2 v, 0)

/-- A finite magnitude is an integer. -/
def isInt (m : Nat) (e : Int) : Bool := decide (0 ≤ e) || decide (m % pow2 (-e) = 0)

/-- FSIN (R102, R103). -/
def fsinC (x : Nat) : Nat × Word :=
  match decodeF fp32 x with
  | .nan s => (fp32.nanCode, flagIf s flagNV)
  | .inf _ => (fp32.nanCode, flagNV)
  | .fin n m e => if isInt m e then (fp32.signBit n, 0) else (sfuPick 0x051 x (ofFix (sinOf n m e)) 1 (-22), 0)

/-- FCOS (R102, R103): cos(π·a) = sin(π·(a + 1/2)). -/
def fcosC (x : Nat) : Nat × Word :=
  match decodeF fp32 x with
  | .nan s => (fp32.nanCode, flagIf s flagNV)
  | .inf _ => (fp32.nanCode, flagNV)
  | .fin _ m e =>
    if isInt m e then
      let odd := if 0 < e then false else decide (m / pow2 (-e) % 2 = 1)
      ((roundV fp32 0 (.fin odd 1 0)).1, 0)
    else if isInt m (e + 1) then (0, 0)
    else
      let s := addV 0 (.fin false m e) (.fin false 1 (-1))
      match s.1 with
      | .fin n' m' e' => (sfuPick 0x052 x (ofFix (sinOf n' m' e')) 1 (-22), 0)
      | _ => (fp32.nanCode, 0)

/-- The hyperbolic tangent of |a|, as an exact value close enough to its own to tell what 2 ulp allow: of a small one a − a³/3, whose
next term is less than 2^−54 of it. -/
def tanhV (m : Nat) (e : Int) : FVal :=
  if leadExp m e < -13 then .fin false (m * pow2 (60 - 2 * e) - m ^ 3 * 2 ^ 60 / 3) (3 * e - 60)
  else
    let x := toFix m e
    let t := exp2Fix ((2 * x * fixOne / fixLn2 : Nat) : Int)
    let u := toFix t.1 t.2
    .fin false ((u - fixOne) * fixOne / (u + fixOne)) (-(fixBits : Int))

/-- FTANH (R102, R103). -/
def ftanhC (x : Nat) : Nat × Word :=
  match decodeF fp32 x with
  | .nan s => (fp32.nanCode, flagIf s flagNV)
  | .inf n => ((roundV fp32 0 (.fin n 1 0)).1, 0)
  | .fin n m e =>
    if m = 0 then (fp32.signBit n, 0)
    else if !ltV (.fin false m e) (.fin false 9 0) then ((roundV fp32 0 (.fin n 1 0)).1, 0)
    else match tanhV m e with
      | .fin _ m' e' => (ulpPick 0x053 x 2 (.fin n m' e'), 0)
      | _ => (x, 0)

/-! ### Operands of the block (R83) -/

/-- The format of a type field: FP32, FP64, and the elements of FP16×2 and BF16×2. -/
def fmtOf (t : Nat) : Fmt := if t = 1 then fp64 else if t = 2 then fp16 else if t = 3 then bf16 else fp32

/-- An operation on the value, or on both elements of a packed value; flags of either element count (R83, R85). -/
def perElem (t : Nat) (g : Fmt → Nat → Nat × Word) : Nat × Word :=
  if t ≤ 1 then g (fmtOf t) 0
  else
    let lo := g (fmtOf t) 0
    let hi := g (fmtOf t) 1
    (lo.1 + 2 ^ 16 * hi.1, lo.2 ||| hi.2)

/-- Element k of an operand: the whole of it for a scalar type. -/
def elemOf (t x k : Nat) : Nat := if t ≤ 1 then x else fieldN x (16 * k) 16

def fA (a : Agent) (f : FArgs) (l : Nat) : Nat := rdN a f.a.toNat (nT f) l
def fB (a : Agent) (f : FArgs) (l : Nat) : Nat := rdN a f.b.toNat (nT f) l
def fD (a : Agent) (f : FArgs) (l : Nat) : Nat := rdN a f.d.toNat (nT f) l

/-- A two-operand float operation of the type and mode of an F word. -/
def float2 (f : FArgs) (op : Fmt → Nat → Nat → Nat → Nat × Word) (a : Agent) (l : Nat) : Nat × Word :=
  perElem (fT f.mod) (fun fm k => op fm (fOP f.mod) (elemOf (fT f.mod) (fA a f l) k) (elemOf (fT f.mod) (fB a f l) k))

/-- A one-operand float operation. -/
def float1 (f : FArgs) (op : Fmt → Nat → Nat → Nat × Word) (a : Agent) (l : Nat) : Nat × Word :=
  perElem (fT f.mod) (fun fm k => op fm (fOP f.mod) (elemOf (fT f.mod) (fA a f l) k))

def fmaLane (f : FArgs) (a : Agent) (l : Nat) : Nat × Word :=
  let t := fT f.mod
  perElem t (fun fm k => ffmaC fm (fOP f.mod) (elemOf t (fA a f l) k) (elemOf t (fB a f l) k) (elemOf t (fD a f l) k))

/-! ### The instructions -/

def execFadd (f : FArgs) (s : State) := aluFlags (.fadd f) s f.d (nT f) (float2 f faddC)
def execFsub (f : FArgs) (s : State) := aluFlags (.fsub f) s f.d (nT f) (float2 f fsubC)
def execFmul (f : FArgs) (s : State) := aluFlags (.fmul f) s f.d (nT f) (float2 f fmulC)
def execFfma (f : FArgs) (s : State) := aluFlags (.ffma f) s f.d (nT f) (fmaLane f)
def execFmin (f : FArgs) (s : State) := aluFlags (.fmin f) s f.d (nT f) (float2 f (fun fm _ x y => fminmaxC fm false x y))
def execFmax (f : FArgs) (s : State) := aluFlags (.fmax f) s f.d (nT f) (float2 f (fun fm _ x y => fminmaxC fm true x y))
def execFabs (f : FArgs) (s : State) := aluFlags (.fabs f) s f.d (nT f) (float1 f (fun fm _ x => (x % 2 ^ (fm.width - 1), 0)))
def execFneg (f : FArgs) (s : State) := aluFlags (.fneg f) s f.d (nT f) (float1 f (fun fm _ x => (x ^^^ 2 ^ (fm.width - 1), 0)))
def execFcmp (f : FArgs) (s : State) := aluFlags (.fcmp f) s f.d 1 (fun a l =>
  let r := fcmpC (fmtOf (fT f.mod)) (fOP f.mod) (fA a f l) (fB a f l)
  (shiftIn (rd1 a f.d l) r.1, r.2))
def execFclass (f : FArgs) (s : State) := aluFlags (.fclass f) s f.d (nT f) (float1 f (fun fm _ x => (fclassC fm x, 0)))
def execFrnd (f : FArgs) (s : State) := aluFlags (.frnd f) s f.d (nT f) (float1 f frndC)
def execFscale (f : FArgs) (s : State) := aluFlags (.fscale f) s f.d (nT f) (fun a l =>
  fscaleC (fmtOf (fT f.mod)) (fOP f.mod) (fA a f l) (signedN 32 (bVal a f 1 l)))
def execFdiv (f : FArgs) (s : State) := aluLong (.fdiv f) s f.d (nT f) (group f.a (nT f) ++ group f.b (nT f)) (float2 f fdivC)
def execFsqrt (f : FArgs) (s : State) := aluLong (.fsqrt f) s f.d (nT f) (group f.a (nT f)) (float1 f fsqrtC)

/-- A special function of one FP32 register (R102). -/
def sfu (i : Instr) (f : FArgs) (s : State) (g : Nat → Nat × Word) : Host.Outcome State Fault Refusal :=
  aluLong i s f.d 1 [f.a] (fun a l => g (rd1 a f.a l))

def execFrcp (f : FArgs) (s : State) := sfu (.frcp f) f s frcpC
def execFrsq (f : FArgs) (s : State) := sfu (.frsq f) f s frsqC
def execFexp2 (f : FArgs) (s : State) := sfu (.fexp2 f) f s fexp2C
def execFlog2 (f : FArgs) (s : State) := sfu (.flog2 f) f s flog2C
def execFsin (f : FArgs) (s : State) := sfu (.fsin f) f s fsinC
def execFcos (f : FArgs) (s : State) := sfu (.fcos f) f s fcosC
def execFtanh (f : FArgs) (s : State) := sfu (.ftanh f) f s ftanhC

/-! ### The slots of a P pair (R63 to R66) -/

/-- A slot's value and flags from the values of d and a (R64). -/
def slotValue (p : PSlot) (d x : Nat) : Nat × Word :=
  let m := p.mod.toNat
  match p.op with
  | .iadd => (addN 32 d x, 0)
  | .isub => (subN 32 d x, 0)
  | .imin => (minN (m == 1) 32 d x, 0)
  | .imax => (maxN (m == 1) 32 d x, 0)
  | .andB => (d &&& x, 0)
  | .orB => (d ||| x, 0)
  | .xorB => (d ^^^ x, 0)
  | .andn => (andnN 32 d x, 0)
  | .notB => (notN 32 x, 0)
  | .shl => (shlN 32 d (x % 256), 0)
  | .shr => (shrN 32 d (x % 256), 0)
  | .sar => (sarN 32 d (x % 256), 0)
  | .mov => (x, 0)
  | .ineg => negN false 32 x
  | .iabs => absN false 32 x
  | .popc => (popN 32 x, 0)
  | .fadd => faddC fp32 m d x
  | .fsub => fsubC fp32 m d x
  | .fmul => fmulC fp32 m d x
  | .fmin => fminmaxC fp32 false d x
  | .fmax => fminmaxC fp32 true d x
  | .fabs => (x % 2 ^ 31, 0)
  | .fneg => (x ^^^ 2 ^ 31, 0)
  | .movi => (wrapN 32 p.a.toInt, 0)

/-- A slot's result in a lane, from the registers as they stood before the pair. -/
def slotResult (a : Agent) (p : PSlot) (l : Nat) : Nat × Word :=
  slotValue p (rd1 a p.d l) (if p.op == .movi then 0 else rd1 a p.a l)

/-- A slot writes its destination, with values read from the agent before the pair. -/
def slotWrite (old a : Agent) (p : PSlot) : Agent :=
  let a' := regPut a p.d.toNat (fun l => if slotActs old p l then some (BitVec.ofNat 32 (slotResult old p l).1) else none)
  { a' with fstat := a'.fstat ||| orLanes (slotLanes old p) (fun l => (slotResult old p l).2) }

/-- A P pair: both slots read before either writes (R65). -/
def execPPair (p : PArgs) (s : State) := issue (.pPair p) s (onAgent (fun a => slotWrite a (slotWrite a a p.s0) p.s1))

end Sys2Proof.Machine
end

