-- ==== Sys2Proof/Machine/Tiles.lean ====
section
/-! DEFINITION. Accumulator tiles (R143, R144) and the team-side accumulator block, 0x200 to 0x203 (R148, R171 to R174), with
the event that performs a waiting access. -/

namespace Sys2Proof.Machine

/-- Element (i, j) of a tile (R143): 128 rows of 128 words. -/
def tileKey (t i j : Nat) : Nat := 16384 * t + 128 * i + j
def Core.tile (c : Core) (t i j : Nat) : Word := Tab.get c.tiles (tileKey t i j) 0
def Core.setTile (c : Core) (t i j : Nat) (x : Word) : Core := { c with tiles := Tab.put c.tiles (tileKey t i j) x }

/-- Elements of a tile rewritten, in the order given. -/
def setTiles (c : Core) (t : Nat) (es : List (Nat × Nat × Word)) : Core :=
  es.foldl (fun c e => c.setTile t e.1 e.2.1 e.2.2) c

/-- The positions of the first m rows and n columns. -/
def cells2 (m n : Nat) : List (Nat × Nat) := ((List.range m).map (fun i => (List.range n).map (fun j => (i, j)))).flatten

/-- All eight tiles of a core at +0 (R147). -/
def zeroTiles (c : Core) : Core := { c with tiles := [] }

/-- The target tiles of a macro-operation (R160, R167). -/
def mxTiles : Instr → List Nat
  | .mxZero f => (List.range 8).filter (fun t => f.b.getLsbD t)
  | .mxScale f => [f.mod.toNat % 8]
  | .mxMma l => [l.imm33.toNat / 2 ^ 30]
  | .mxSmma l => [l.imm33.toNat / 2 ^ 30]
  | .mxQmma l => [l.imm33.toNat / 2 ^ 30]
  | .mxLdacc l => [l.imm33.toNat / 2 ^ 30]
  | .mxStacc l => [l.imm33.toNat / 2 ^ 30]
  | _ => []

/-- The forester contexts of a grove that are not saved. -/
def contexts (s : State) (g : Nat) : List Nat :=
  s.agentsWhere (fun _ a => a.kind == .forester && a.grove == g && a.state != .saved)

/-- A dispatched macro-operation of either context targets a tile of a core (R144). -/
def tileTaken (s : State) (c t : Nat) : Bool :=
  (contexts s (c / 8)).any (fun k => (s.agent k).mxq.any (fun e => e.running && bitN e.cmask (c % 8) && (mxTiles e.op).contains t))

/-! ### The accesses of the teams (R171) -/

def accTile : Instr → Nat
  | .accrd f => f.mod.toNat % 8
  | .accwr f => f.mod.toNat % 8
  | .rowst f => f.mod.toNat % 8
  | .accsc f => f.mod.toNat % 8
  | _ => 0
def accN (f : FArgs) : Nat := 2 ^ (f.mod.toNat / 8 % 4)
/-- Row and column of ACCRD and ACCWR; row and NC of ROWST and ACCSC. -/
def accRow (x : Nat) : Nat := fieldN x 7 7
def accCol (x : Nat) : Nat := fieldN x 0 7
def rowOfA (x : Nat) : Nat := fieldN x 0 7
def ncOfA (x : Nat) : Nat := fieldN x 8 7 + 1

/-- The reduction of a row (R173): result, and the flags. -/
def rowMax (c : Core) (t i n : Nat) : Nat × Word :=
  (redFold 10 false ((List.range n).map (fun j => (c.tile t i j).toNat))).getD (0, 0)
def rowSum (c : Core) (t i n : Nat) : Nat × Word :=
  (treeSum (treeLevel ((List.range 128).map (fun j => if j < n then some ((c.tile t i j).toNat, 0) else none)))).getD (0, 0)
def rowStat (mode : Nat) (c : Core) (t i n : Nat) : Nat × Word :=
  let m := rowMax c t i n
  let q := rowSum c t i n
  if mode = 0 then m else if mode = 1 then q else (m.1 + 2 ^ 32 * q.1, m.2 ||| q.2)

/-- One element under ACCSC (R174). -/
def accScale (expo : Bool) (x b d : Nat) : Nat × Word :=
  if expo then
    let y := ffmaC fp32 0 x b (d ^^^ 0x80000000)
    let z := fexp2C y.1
    (z.1, y.2 ||| z.2)
  else fmulC fp32 0 x b

/-- One lane of ACCSC: its row's first columns in place. -/
def scaleRow (expo : Bool) (t : Nat) (r : Core × Word) (i n b d : Nat) : Core × Word :=
  (List.range n).foldl (fun r j =>
    let z := accScale expo (r.1.tile t i j).toNat b d
    (r.1.setTile t i j (BitVec.ofNat 32 z.1), r.2 ||| z.2)) r

/-- What an access does at its array: the core after it, the values it reads and their flags by lane, and the flags that a posted one
raises. A row of it is a lane with its a, b and d operands and the words it writes. -/
def tileEffect (c : Core) (x : TileAccess) : Core × List (Nat × Nat × Word) × Word :=
  let t := accTile x.op
  match x.op with
  | .accrd f => (c, x.rows.map (fun r => (r.1, (List.range (accN f)).foldl
      (fun v k => v + 2 ^ (32 * k) * (c.tile t (accRow r.2.1) (accCol r.2.1 + k)).toNat) 0, 0)), 0)
  | .accwr _ => (x.rows.foldl (fun c r =>
      setTiles c t ((r.2.2.2.2.zipIdx).map (fun e => (accRow r.2.1, accCol r.2.1 + e.2, e.1)))) c, [], 0)
  | .rowst f =>
    let one := fun (r : Nat × Nat × Word × Word × List Word) => rowStat (f.mod.toNat / 8) c t (rowOfA r.2.1) (ncOfA r.2.1)
    (c, x.rows.map (fun r => (r.1, one r)), 0)
  | .accsc f =>
    let out := x.rows.foldl (fun q r => scaleRow (mb f.mod 3) t q (rowOfA r.2.1) (ncOfA r.2.1) r.2.2.1.toNat r.2.2.2.1.toNat) (c, (0 : Word))
    (out.1, [], out.2)
  | _ => (c, [], 0)

/-- The accesses of an instruction's active lanes, in pass order. -/
def tileRows (a : Agent) (i : Instr) (f : FArgs) : List (Nat × Nat × Word × Word × List Word) :=
  (actLanes a i).map (fun l => (l, rd1 a f.a l, regGet a f.b.toNat l, regGet a f.d.toNat l,
    (List.range (accN f)).map (fun k => regGet a (f.b.toNat + k) l)))

/-- The array of a team's core is bound to a context that runs its workgroup (R148). -/
def arrayBound (s : State) (a : Agent) : Bool :=
  (contexts s a.grove).any (fun k => (s.agent k).wg == a.wg && (s.agent k).grid == a.grid && bitN (s.agent k).bound (a.core % 8))

/-- An access may not be performed yet: the tile is taken, or an earlier access to it waits (R144). -/
def tileBusy (s : State) (c t : Nat) : Bool :=
  tileTaken s c t || (s.core c).tileQueue.any (fun x => accTile x.op == t)

/-- The entry of ACCRD or ROWST with the values and flags of its lanes. -/
def readEntry (e : LAEntry) (vals : List (Nat × Nat × Word)) : LAEntry :=
  let at_ := fun l => ((vals.find? (fun v => v.1 == l)).map (·.2)).getD (0, 0)
  { e with values := (List.range e.values.length).map (fun l => (at_ l).1), flags := (List.range e.values.length).map (fun l => (at_ l).2) }

/-- The shared course of a team-side access: it is performed at once or waits at the array. `bad` is a misplaced column (R172); `reads`
makes the entry of a long-latency one. A choice of the model (log entry 71): on an array that is not bound it traps with no active
lane as well; R148 has the instruction trap, R25 gives one without lanes no effect. -/
def tileIssue (i : Instr) (f : FArgs) (s : State) (a : Agent) (bad : Bool) (reads : Option LAEntry) : Act :=
  let t := accTile i
  let x : TileAccess := ⟨s.cur, (reads.map LAEntry.token).getD 65536, i, tileRows a i f, s.tileSeq⟩
  if !arrayBound s a then .trap .privilege 0
  else if bad then .trap .misaligned 0
  else if tileBusy s a.core t then
    let s := { s.setCore a.core { (s.core a.core) with tileQueue := (s.core a.core).tileQueue ++ [x] } with tileSeq := s.tileSeq + 1 }
    match reads with
    | some e => .long s e
    | none => .go s
  else
    let r := tileEffect (s.core a.core) x
    let s := s.setCore a.core r.1
    match reads with
    | some e => .long s (readEntry e r.2.1)
    | none => .go (s.setMe { a with fstat := a.fstat ||| r.2.2 })

/-- A column that is no multiple of the element count (R172). -/
def colBad (a : Agent) (i : Instr) (f : FArgs) : Bool :=
  (actLanes a i).any (fun l => accCol (rd1 a f.a l) % accN f != 0)

def execAccrd (f : FArgs) (s : State) := issue (.accrd f) s (fun s a =>
  tileIssue (.accrd f) f s a (colBad a (.accrd f) f) (some (mkEntry a (.accrd f) f.d (accN f) false false [] (fun _ => 0))))

def execAccwr (f : FArgs) (s : State) := issue (.accwr f) s (fun s a =>
  tileIssue (.accwr f) f s a (colBad a (.accwr f) f) none)

def execRowst (f : FArgs) (s : State) := issue (.rowst f) s (fun s a =>
  tileIssue (.rowst f) f s a false
    (some (mkEntry a (.rowst f) f.d (if f.mod.toNat / 8 = 2 then 2 else 1) false false [] (fun _ => 0))))

def execAccsc (f : FArgs) (s : State) := issue (.accsc f) s (fun s a => tileIssue (.accsc f) f s a false none)

/-- A waiting access takes effect: posted flags go to FSTAT, a read's values to its entry (R144, R171). -/
def performTile (s : State) (c : Nat) (x : TileAccess) : State :=
  let k := s.core c
  let r := tileEffect k x
  let s := s.setCore c { r.1 with tileQueue := k.tileQueue.erase x }
  match x.op with
  | .accsc _ => s.modAgent x.agent (fun a => { a with fstat := a.fstat ||| r.2.2 })
  | .accwr _ => s
  | _ => s.modAgent x.agent (fun a => { a with lahead := a.lahead.map (fun e => if e.token == x.token then readEntry e r.2.1 else e) })

/-- The waiting accesses of an array that nothing holds back, in arrival order; those of a team that CTXSV has saved among them
(R144, R338). -/
def tileReady (s : State) (c : Nat) : List TileAccess := (s.core c).tileQueue.filter (fun x => !tileTaken s c (accTile x.op))

/-- All of them take effect: before an array is bound anew, or a macro-operation arrives there. -/
def drainTiles (s : State) (c : Nat) : State := (tileReady s c).foldl (fun s x => performTile s c x) s

/-- TILE_ACCESS_PERFORMED: the first waiting access of a core's array that nothing holds back; none while the die's clock stands
still (R356). -/
def execTileAccessPerformed (c : Nat) (s : State) : Host.Outcome State Fault Refusal :=
  match tileReady s c with
  | [] => .next s
  | x :: _ => if dieStopped s (c / 64) then .next s else .next (performTile s c x)

end Sys2Proof.Machine
end

