-- ==== Sys2Proof/Machine/Matrix.lean ====
section
/-! DEFINITION. The forester's macro-operations, 0x2C0 to 0x2CA (R147, R150 to R170): operand descriptors, the queue, its steps,
and the summation order (R132, R138, R139, R141, R142). -/

namespace Sys2Proof.Machine

/-! ### Operand descriptors (R150 to R152) -/

def dLoc (d : Nat) : Bool := bitN d 63
def dCore (d : Nat) : Nat := fieldN d 60 3
def dOff (d : Nat) : Nat := fieldN d 39 21
def dStride (d : Nat) : Nat := 16 * fieldN d 27 12
def dSlot (d : Nat) : Nat := fieldN d 24 3
def dChk (d : Nat) : Bool := bitN d 23
/-- The number of rows, 1 to 128. -/
def dRows (d : Nat) : Nat := fieldN d 16 7 + 1
def dAux (d : Nat) : Nat := 16 * fieldN d 0 16

/-- The geometry of an image: codes per row along K, bits of a code, bytes of a packed row of codes, the slot that governs
its scales (0 when none do), and the bytes of sparse metadata a row. -/
structure Image where
  desc : Nat
  len : Nat
  width : Nat
  slot : Nat
  codes : Nat
  meta_ : Nat
  deriving DecidableEq, Repr

/-- A dense image of rows of `len` codes under a slot. -/
def Image.dense (desc len slot : Nat) : Image := ⟨desc, len, fmtWidth (slotFmt slot), slot, len, 0⟩
/-- A raw image of words (R165). -/
def Image.raw (desc len : Nat) : Image := ⟨desc, len, 32, 0, len, 0⟩
/-- A sparse image: N codes and N 6-bit indices to a window of 64 (R141, R163). -/
def Image.sparse (desc len slot n : Nat) : Image := ⟨desc, len, fmtWidth (slotFmt slot), slot, len / 64 * n, len / 64 * (6 * n / 8)⟩

/-- Bytes of a packed row of codes (R124); a row that ends inside a byte is filled up to it. -/
def Image.rowBytes (m : Image) : Nat := (m.codes * m.width + 7) / 8
/-- The pitch of its rows (R151). -/
def Image.pitch (m : Image) : Nat := if dStride m.desc = 0 then m.rowBytes else dStride m.desc
def Image.scales (m : Image) : Nat := if slotScale m.slot then m.len / slotBlock m.slot else 0
/-- Offset after the codes, of the scales, and of the trailer (R133, R151). -/
def Image.codesEnd (m : Image) : Nat := dOff m.desc + dRows m.desc * m.rowBytes
def Image.scaleOff (m : Image) : Nat := if dAux m.desc = 0 then alignUp m.codesEnd 4 else dOff m.desc + dAux m.desc
def Image.trailer (m : Image) : Nat :=
  alignUp (if m.scales = 0 then m.codesEnd else m.scaleOff + 4 * dRows m.desc * m.scales) 16

/-- A malformed descriptor (R152). -/
def Image.malformed (m : Image) : Bool :=
  let d := m.desc
  (dLoc d && dCore d != 0) || dOff d % 16 != 0 || (dStride d != 0 && decide (dStride d < m.rowBytes))
    || (dChk d && (dStride d != 0 || dAux d != 0))
    || (slotScale m.slot && dStride d != 0 && dAux d == 0)
    || (slotScale m.slot && m.len % slotBlock m.slot != 0)

/-- The ranges of bytes an image takes up: rows, scales, metadata, and a trailer. -/
def Image.ranges (m : Image) (trl : Bool) : List (Nat × Nat) :=
  let d := m.desc
  let rows : List (Nat × Nat) := if dStride d = 0 then [(dOff d, dRows d * m.rowBytes)]
    else (List.range (dRows d)).map (fun n => (dOff d + n * dStride d, m.rowBytes))
  let sc : List (Nat × Nat) := if m.scales = 0 then [] else [(m.scaleOff, 4 * dRows d * m.scales)]
  let mt : List (Nat × Nat) := if m.meta_ = 0 then [] else [(dOff d + dAux d, dRows d * m.meta_)]
  let tr : List (Nat × Nat) := if trl then [(dOff d, m.trailer + 16 - dOff d)] else []
  [rows, sc, mt, tr].flatten

/-- The cores whose scratchpads an image lies in, for a core mask (R150). -/
def coresOf (mask : Nat) : List Nat := (List.range 8).filter (bitN mask)
def imageCores (d cmask : Nat) : List Nat := if dLoc d then coresOf cmask else [dCore d]

/-- The first byte of a range of a core's scratchpad that an agent may not use, as its offset (R152, R179, R182). -/
def spanFault (s : State) (a : Agent) (core lo len : Nat) : Option Nat :=
  let banks := if len = 0 then [] else (List.range ((lo + len - 1) / 65536 + 1 - lo / 65536)).map (lo / 65536 + ·)
  (banks.find? (fun b => decide (32 ≤ b) || (s.core (8 * a.grove + core)).mode b != 1 || !bitN (recordField s a.grid 36 4) b)).map
    (fun b => max lo (65536 * b))

/-- The first byte of an image that an agent may not use, as its scratchpad address. -/
def tileImageFault (s : State) (a : Agent) (cmask : Nat) (trl : Bool) (m : Image) : Option Nat :=
  (imageCores m.desc cmask).findSome? (fun c => (m.ranges trl).findSome? (fun r => (spanFault s a c r.1 r.2).map (2 ^ 21 * c + ·)))

/-! ### The fields of an L-frame macro-operation (R160) -/

def xTile (l : LArgs) : Nat := fieldN l.imm33.toNat 30 3
def xMask (l : LArgs) : Nat := fieldN l.imm33.toNat 22 8
def xKg (l : LArgs) : Nat := fieldN l.imm33.toNat 8 14
def xCols (l : LArgs) : Nat := fieldN l.imm33.toNat 15 7 + 1
def xSpn (l : LArgs) : Nat := fieldN l.imm33.toNat 5 3
def xAcc (l : LArgs) : Bool := bitN l.imm33.toNat 4
def xInt (l : LArgs) : Bool := bitN l.imm33.toNat 1
def xRaw (l : LArgs) : Bool := bitN l.imm33.toNat 0
/-- The value of operand register pair i of an entry. -/
def MxEntry.pair (e : MxEntry) (i : Nat) : Nat := (pairWord (e.ops.getD (2 * i) 0) (e.ops.getD (2 * i + 1) 0)).toNat

/-- The A and B images of the multiply family: operation, descriptors and the grid's slots. -/
def aImage (s : State) (grid : Nat) (op : Instr) (d : Nat) : Image :=
  let slot := slotOf s grid (dSlot d)
  match op with
  | .mxSmma l => Image.sparse d (32 * xKg l) slot (8 * xSpn l)
  | .mxMma l => Image.dense d (32 * xKg l) slot
  | .mxQmma l => Image.dense d (32 * xKg l) slot
  | .mxLdacc l => if xRaw l then Image.raw d (xCols l) else Image.dense d (xCols l) slot
  | .mxStacc l => if xRaw l then Image.raw d (xCols l) else Image.dense d (xCols l) slot
  | _ => Image.raw d 0
def bImage (s : State) (grid : Nat) (op : Instr) (d : Nat) : Image :=
  let slot := slotOf s grid (dSlot d)
  match op with
  | .mxMma l => Image.dense d (32 * xKg l) slot
  | .mxSmma l => Image.dense d (32 * xKg l) slot
  | .mxQmma l => Image.dense d (32 * xKg l) slot
  | _ => Image.raw d 0

/-! ### Issue checks (R161) -/

/-- Elements to a weight group (R125, R142). -/
def groupLen (slot : Nat) : Nat := 16 * 2 ^ slotGroup slot

/-- Step 1: the core mask (R155). -/
def maskTrap (a : Agent) (m : Nat) : Option Cause :=
  if m = 0 then some .reservedField else if m &&& a.bound = m then none else some .privilege

/-- Step 2: descriptors and the values of immediate fields; unused bits of imm33 are a matter of the word (R73). -/
def mmaFields (op : Instr) (ia ib : Image) : Bool :=
  match op with
  | .mxMma l => xKg l != 0 && !ia.malformed && !ib.malformed
  | .mxSmma l => xKg l != 0 && xKg l % 2 == 0 && xSpn l != 0 && dAux ia.desc != 0
      && !ia.malformed && !ib.malformed
  | .mxQmma l => xKg l != 0 && !ia.malformed && !ib.malformed
      && (slotGroup ib.slot == 0 || 32 * xKg l % groupLen ib.slot == 0)
  | _ => false

/-- Step 3: slots. -/
def mmaSlots (op : Instr) (sa sb : Nat) : Bool :=
  !slotBad sa && !slotBad sb && (match op with
    | .mxMma _ => slotGroup sa == 0 && slotGroup sb == 0
    | .mxSmma _ => slotGroup sa == 0 && slotGroup sb == 0 && !slotScale sa
    | .mxQmma _ => (slotFmt sa == 1 || slotFmt sa == 2) && !slotScale sa && slotFmt sb == 9 && slotGroup sb != 0
    | _ => false)

def accFields (l : LArgs) (store : Bool) (m : Image) : Bool :=
  let d := m.desc
  !m.malformed && (store || !(xRaw l && (xInt l || dSlot d != 0 || dChk d)))
    && (!store || dLoc d || decide ((coresOf (xMask l)).length = 1))
    && (!store || xRaw l || !slotTrl m.slot || (dStride d == 0 && dAux d == 0))
def accSlots (l : LArgs) (store : Bool) (slot : Nat) : Bool :=
  xRaw l || (!slotBad slot
    && (if store then !slotScale slot && slotGroup slot == 0
        else !xInt l || (fmtInt (slotFmt slot) && !slotScale slot)))

/-! ### Enqueuing (R154) -/

/-- An operand image has a trailer that the operation reads or writes (R152, R165, R166). -/
def imageTrl (op : Instr) (m : Image) : Bool :=
  match op with
  | .mxStacc l => !xRaw l && slotTrl m.slot
  | _ => dChk m.desc

/-- The scratchpad bytes that an entry writes, as core within the grove, offset and length (R176). -/
def writeSpans (s : State) (grid : Nat) (op : Instr) (d cmask : Nat) : List (Nat × Nat × Nat) :=
  match op with
  | .mxStacc _ =>
    let m := aImage s grid op d
    ((imageCores d cmask).map (fun c => (m.ranges (imageTrl op m)).map (fun r => (c, r.1, r.2)))).flatten
  | _ => []

/-- The entry takes its ticket and its place in the queue. -/
def enqueue (s : State) (a : Agent) (op : Instr) (d : Reg) (ops : List Word) (cmask : Nat) (table : List Byte) (count : Bool) : Act :=
  let s := drainScratch (s.setMe a) s.cur
  let a := s.me
  let t := a.ticket + 1
  let e : MxEntry :=
    { ticket := t, op := op, ops := ops, cmask := cmask, running := false, next := 0, table := table, since := s.codeSeq
      spans := writeSpans s a.grid op (pairWord (ops.getD 0 0) (ops.getD 1 0)).toNat cmask
      foreign := ((s.agents.filter (fun x => x.1 != s.cur)).map (fun x => x.2.scratchOpen)).flatten }
  let a := sPut a (d.toNat - 192) t
  .go (s.setMe { a with ticket := t, mxq := a.mxq ++ [e], qctr := if count then a.qctr + 1 else a.qctr })

/-- The codebook of a slot, 32 bytes, zeros when it has none. -/
def withBook (s : State) (a : Agent) (slot : Nat) (go : State → Agent → List Byte → Act) : Act :=
  withRead s a (readBook s a slot) (fun s a bs => go s a ((bs ++ List.replicate 32 0).take 32))

/-- The group-table entries of rows of B, row by row (R142, R164). -/
def withTable (addr e per groups : Nat) : Nat → Nat → State → Agent → List Byte → (State → Agent → List Byte → Act) → Act
  | 0, _, s, a, acc, go => go s a acc
  | n + 1, j, s, a, acc, go =>
    withRead s a (readAtIssue s a (addr + 4 * (e + j * per)) (4 * groups)) (fun s a bs =>
      withTable addr e per groups n (j + 1) s a (acc ++ bs) go)

def queueFull (a : Agent) : Bool := decide (16 ≤ a.mxq.length)

/-- The operand values an entry holds. -/
def mxOps (a : Agent) (l : LArgs) : List Word :=
  [regGet a l.a.toNat 0, regGet a (l.a.toNat + 1) 0, regGet a l.b.toNat 0, regGet a (l.b.toNat + 1) 0,
   regGet a l.e.toNat 0, regGet a (l.e.toNat + 1) 0, a.qctr]

/-- The shared course of the multiply family. -/
def mmaIssue (op : Instr) (l : LArgs) (s : State) (a : Agent) : Act :=
  let da := rdN a l.a.toNat 2 0
  let db := rdN a l.b.toNat 2 0
  let ia := aImage s a.grid op da
  let ib := bImage s a.grid op db
  if !guardOn a op then .go s
  else if queueFull a then .wait s
  else match maskTrap a (xMask l) with
    | some c => .trap c 0
    | none =>
      if !mmaFields op ia ib then .trap .reservedField 0
      else if !mmaSlots op ia.slot ib.slot then .trap .formatSlot 0
      else match [ia, ib].findSome? (fun m => tileImageFault s a (xMask l) (imageTrl op m) m) with
      | some x => .trap .bankMode x
      | none => withBook s a ia.slot (fun s a ca => withBook s a ib.slot (fun s a cb =>
        match op with
        | .mxQmma _ =>
          let groups := 32 * xKg l / groupLen ib.slot
          withTable (slotAddr ib.slot) (rd1 a l.e 0) (rd1 a (l.e + 1) 0) groups (dRows db) 0 s a [] (fun s a t =>
            enqueue s a op l.d (mxOps a l) (xMask l) [ca, cb, t].flatten false)
        | _ => enqueue s a op l.d (mxOps a l) (xMask l) (ca ++ cb) false))

def execMxMma (l : LArgs) (s : State) := issue (.mxMma l) s (mmaIssue (.mxMma l) l)
def execMxSmma (l : LArgs) (s : State) := issue (.mxSmma l) s (mmaIssue (.mxSmma l) l)
def execMxQmma (l : LArgs) (s : State) := issue (.mxQmma l) s (mmaIssue (.mxQmma l) l)

/-- The shared course of MX.LDACC and MX.STACC. A choice of the model (log entry 71): a raw MX.STACC whose descriptor names a
stochastic slot leaves QCTR, for it uses no slot; R130 counts each MX.STACC with a stochastic slot. -/
def accIssue (op : Instr) (l : LArgs) (store : Bool) (s : State) (a : Agent) : Act :=
  let d := rdN a l.a.toNat 2 0
  let m := aImage s a.grid op d
  if !guardOn a op then .go s
  else if queueFull a then .wait s
  else match maskTrap a (xMask l) with
    | some c => .trap c 0
    | none =>
      if !accFields l store m then .trap .reservedField 0
      else if !accSlots l store m.slot then .trap .formatSlot 0
      else match tileImageFault s a (xMask l) (imageTrl op m) m with
      | some x => .trap .bankMode x
      | none =>
      if xRaw l then enqueue s a op l.d (mxOps a l) (xMask l) [] false
      else withBook s a m.slot (fun s a cb =>
        enqueue s a op l.d (mxOps a l) (xMask l) cb (store && slotRnd m.slot == 2))

def execMxLdacc (l : LArgs) (s : State) := issue (.mxLdacc l) s (accIssue (.mxLdacc l) l false)
def execMxStacc (l : LArgs) (s : State) := issue (.mxStacc l) s (accIssue (.mxStacc l) l true)

/-- MX.ZERO and MX.SCALE: the core mask in a[7:0] (R167). -/
def tileOpIssue (op : Instr) (f : FArgs) (s : State) (a : Agent) : Act :=
  let m := rd1 a f.a 0 % 256
  if !guardOn a op then .go s
  else if queueFull a then .wait s
  else match maskTrap a m with
    | some c => .trap c 0
    | none => enqueue s a op f.d [regGet a f.a.toNat 0, regGet a f.b.toNat 0] m [] false

def execMxZero (f : FArgs) (s : State) := issue (.mxZero f) s (tileOpIssue (.mxZero f) f)
def execMxScale (f : FArgs) (s : State) := issue (.mxScale f) s (tileOpIssue (.mxScale f) f)

/-! ### Operand elements (R122, R132, R141, R142) -/

/-- Code n of a row of packed codes from an offset on, in a core's scratchpad. -/
def codeAt (s : State) (g core base w n : Nat) : Nat :=
  let k := w * n
  fieldN (scratchRead s g (2 ^ 21 * core + base + k / 8) (if w ≤ 8 then 2 else w / 8)) (k % 8) w

/-- The exact value of element k of row r of a dense image: its code's value times its block's scale. -/
def denseElem (s : State) (g core : Nat) (m : Image) (cb : List Byte) (r k : Nat) : FVal :=
  let v := codeValue cb (slotFmt m.slot) (codeAt s g core (dOff m.desc + r * m.pitch) m.width k)
  if m.scales = 0 then v
  else
    let at_ := m.scaleOff + 4 * (r * m.scales + k / slotBlock m.slot)
    (mulV v (decodeF fp32 (scratchRead s g (2 ^ 21 * core + at_) 4))).1

/-- The kept positions of a window of a sparse row. -/
def windowIdx (s : State) (g core : Nat) (m : Image) (n r w : Nat) : List Nat :=
  (List.range n).map (codeAt s g core (dOff m.desc + dAux m.desc + r * m.meta_ + w * (6 * n / 8)) 6)

/-- A sparse row whose indices do not ascend strictly in every window (R141). -/
def rowLoose (s : State) (g core : Nat) (m : Image) (n r : Nat) : Bool :=
  (List.range (m.len / 64)).any (fun w =>
    let ix := windowIdx s g core m n r w
    (ix.zip (ix.drop 1)).any (fun p => decide (p.2 ≤ p.1)))

/-- Element k of a sparse row: the kept code at its position, or +0. -/
def sparseElem (s : State) (g core : Nat) (m : Image) (cb : List Byte) (n r k : Nat) : FVal :=
  match (windowIdx s g core m n r (k / 64)).findIdx? (fun p => p == k % 64) with
  | none => .fin false 0 0
  | some i => codeValue cb (slotFmt m.slot) (codeAt s g core (dOff m.desc + r * m.pitch) m.width (k / 64 * n + i))

/-- An expanded weight of MX.QMMA (R142): the entry's zero point and scale, rounded to BF16. -/
def quantElem (s : State) (g core : Nat) (m : Image) (table : List Byte) (groups r k : Nat) : FVal :=
  let q := signedN 4 (codeAt s g core (dOff m.desc + r * m.pitch) 4 k)
  let e := sliceN table (4 * (r * groups + k / groupLen m.slot)) 4
  let z := signedN 4 (fieldN e 16 4)
  decodeF bf16 (roundV bf16 0 (mulV (intV (q - z)) (decodeF bf16 (e % 65536))).1).1

/-- The sum of a group of products, rounded once (R138). -/
def exactSum (ps : List FVal) : Int × Int :=
  let e0 := ps.foldl (fun (e : Int) p => match p with | .fin _ m x => if m = 0 then e else min e x | _ => e) 0
  (ps.foldl (fun (t : Int) p => match p with | .fin n m x => if m = 0 then t else t + scaledInt n m x e0 | _ => t) 0, e0)
def groupSum (ps : List FVal) : Nat :=
  let pos := ps.contains (.inf false)
  let neg := ps.contains (.inf true)
  if ps.any FVal.isNan || (pos && neg) then fp32.nanCode
  else if pos then fp32.infCode false
  else if neg then fp32.infCode true
  else
    let t := exactSum ps
    if t.1 = 0 then 0 else (roundF fp32 0 (decide (t.1 < 0)) t.1.natAbs t.2).1

/-- The integer a product is, for the integer sum (R139). -/
def intOfVal (v : FVal) : Int := match v with | .fin n m _ => if n then -(m : Int) else (m : Int) | _ => 0

/-- A sum of integers alone (R139). -/
def integerSum (op : Instr) (sa sb : Nat) : Bool :=
  (match op with | .mxQmma _ => false | _ => true)
    && fmtInt (slotFmt sa) && fmtInt (slotFmt sb) && !slotScale sa && !slotScale sb

/-! ### Steps (R155 to R159, R162 to R167) -/

/-- The number of steps of an entry (R156). -/
def mxSteps : Instr → Nat
  | .mxZero f => (mxTiles (.mxZero f)).length
  | .mxMma l => xKg l
  | .mxSmma l => xKg l
  | .mxQmma l => xKg l
  | _ => 1

/-- The codebooks and group table an entry read at issue. -/
def MxEntry.bookA (e : MxEntry) : List Byte := e.table.take 32
def MxEntry.bookB (e : MxEntry) : List Byte := (e.table.drop 32).take 32
def MxEntry.groups (e : MxEntry) : List Byte := e.table.drop 64

/-- The core an image of an array's operand is read from. -/
def srcCore (d c : Nat) : Nat := if dLoc d then c else dCore d

/-- One K-group of the multiply family on one array: the new elements (R138, R139). -/
def mmaCore (s : State) (g c : Nat) (e : MxEntry) (ia ib : Image) (t step : Nat) (acc : Bool) (n : Nat) : List (Nat × Nat × Word) :=
  let ca := srcCore ia.desc c
  let cb := srcCore ib.desc c
  let ints := integerSum e.op ia.slot ib.slot
  let va := fun r k => if n = 0 then denseElem s g ca ia e.bookA r k else sparseElem s g ca ia e.bookA n r k
  let vb := fun r k => match e.op with
    | .mxQmma _ => quantElem s g cb ib e.groups (ib.len / groupLen ib.slot) r k
    | _ => denseElem s g cb ib e.bookB r k
  (cells2 (dRows ia.desc) (dRows ib.desc)).map (fun ij =>
    let old := if acc || decide (0 < step) then ((s.core (8 * g + c)).tile t ij.1 ij.2).toNat else 0
    let ps := (List.range 32).map (fun k => (mulV (va ij.1 (32 * step + k)) (vb ij.2 (32 * step + k))).1)
    let x := if ints then wrapN 32 ((old : Int) + (ps.map intOfVal).sum) else (faddC fp32 0 old (groupSum ps)).1
    (ij.1, ij.2, BitVec.ofNat 32 x))

/-- Rows of an array whose sparse indices are out of order take free values (R141). -/
def loosenTile (s : State) (g c : Nat) (ia : Image) (cols t n : Nat) : State :=
  let rows := if n = 0 then [] else (List.range (dRows ia.desc)).filter (rowLoose s g (srcCore ia.desc c) ia n)
  rows.foldl (fun s i =>
    (s.setCore (8 * g + c) (setTiles (s.core (8 * g + c)) t
      ((List.range cols).map (fun j => (i, j, BitVec.ofNat 32 (s.free j)))))).used cols) s

/-- One step of the multiply family. -/
def mmaStep (s : State) (a : Agent) (e : MxEntry) (l : LArgs) : State :=
  let ia := aImage s a.grid e.op (e.pair 0)
  let ib := bImage s a.grid e.op (e.pair 1)
  let n := match e.op with | .mxSmma l => 8 * xSpn l | _ => 0
  (coresOf e.cmask).foldl (fun s c =>
    let s := s.setCore (8 * a.grove + c) (setTiles (s.core (8 * a.grove + c)) (xTile l)
      (mmaCore s a.grove c e ia ib (xTile l) e.next (xAcc l) n))
    loosenTile s a.grove c ia (dRows ib.desc) (xTile l) n) s

/-- An element that MX.LDACC loads (R165). -/
def loadElem (s : State) (g core : Nat) (m : Image) (cb : List Byte) (l : LArgs) (i j : Nat) : Word :=
  if xRaw l then BitVec.ofNat 32 (scratchRead s g (2 ^ 21 * core + dOff m.desc + i * m.pitch + 4 * j) 4)
  else
    let v := denseElem s g core m cb i j
    BitVec.ofNat 32 (if xInt l then wrapN 32 (intOfVal v) else (roundV fp32 0 v).1)

def ldaccStep (s : State) (a : Agent) (e : MxEntry) (l : LArgs) : State :=
  let m := aImage s a.grid e.op (e.pair 0)
  (coresOf e.cmask).foldl (fun s c => s.setCore (8 * a.grove + c) (setTiles (s.core (8 * a.grove + c)) (xTile l)
    ((cells2 (dRows m.desc) (xCols l)).map (fun ij =>
      (ij.1, ij.2, loadElem s a.grove (srcCore m.desc c) m e.bookA l ij.1 ij.2))))) s

/-- The generator's output for an element of MX.STACC (R130). -/
def staccRandom (slot : Nat) (a : Agent) (qctr : Word) (i j : Nat) : Nat :=
  generator (slotAddr slot) a.wgid.toNat (qctr.toNat * 2 ^ 32 + i * 128 + j)

/-- The code and the statistics of an element that MX.STACC stores (R166). -/
def storeElem (a : Agent) (e : MxEntry) (m : Image) (l : LArgs) (x : Word) (i j : Nat) : Nat × QStat :=
  if xRaw l then (x.toNat, QStat.zero)
  else encodeSlot e.bookA m.slot (staccRandom m.slot a (e.ops.getD 6 0) i j)
    (if xInt l then intV x.toInt else decodeF fp32 x.toNat)

/-- MX.STACC on one array: rows of packed codes, then the gap and the trailer when the slot asks for one. -/
def staccCore (s : State) (a : Agent) (e : MxEntry) (l : LArgs) (m : Image) (c : Nat) : State :=
  let k := s.core (8 * a.grove + c)
  let row := fun i => (List.range (xCols l)).map (fun j => storeElem a e m l (k.tile (xTile l) i j) i j)
  let rows := (List.range (dRows m.desc)).map row
  let bytes := rows.map (fun r => toBytes m.rowBytes (packCodes m.width (r.map (·.1))))
  let base := 2 ^ 21 * srcCore m.desc c + dOff m.desc
  let s := (bytes.zipIdx).foldl (fun s e => scratchWrite s a.grove (base + e.2 * m.pitch) e.1) s
  if xRaw l || !slotTrl m.slot then s
  else
    let body := bytes.flatten ++ List.replicate (m.trailer - m.codesEnd) 0
    let q := (rows.flatten.map (·.2)).foldl QStat.join QStat.zero
    let head := trailerHead m.slot q
    scratchWrite s a.grove base ([body, head, toBytes 4 (crc32c body)].flatten)

def staccStep (s : State) (a : Agent) (e : MxEntry) (l : LArgs) : State :=
  let m := aImage s a.grid e.op (e.pair 0)
  (coresOf e.cmask).foldl (fun s c => staccCore s a e l m c) s

/-- MX.SCALE of one element (R167). -/
def scaleElem (int : Bool) (x b : Word) : Word :=
  let y := if int then (roundV fp32 0 (intV x.toInt)).1 else x.toNat
  BitVec.ofNat 32 (fmulC fp32 0 y b.toNat).1

/-- One step of an entry on all its arrays. -/
def mxEffect (s : State) (a : Agent) (e : MxEntry) : State :=
  let each := fun (f : Core → Core) => (coresOf e.cmask).foldl (fun s c => s.setCore (8 * a.grove + c) (f (s.core (8 * a.grove + c)))) s
  match e.op with
  | .mxZero f => each (fun c => setTiles c ((mxTiles (.mxZero f)).getD e.next 0) ((cells2 128 128).map (fun ij => (ij.1, ij.2, 0))))
  | .mxScale f => each (fun c => setTiles c (f.mod.toNat % 8) ((cells2 128 128).map (fun ij =>
      (ij.1, ij.2, scaleElem (mb f.mod 5) (c.tile (f.mod.toNat % 8) ij.1 ij.2) (e.ops.getD 1 0)))))
  | .mxMma l => mmaStep s a e l
  | .mxSmma l => mmaStep s a e l
  | .mxQmma l => mmaStep s a e l
  | .mxLdacc l => ldaccStep s a e l
  | .mxStacc l => staccStep s a e l
  | _ => s

/-- The operand images that an entry reads. -/
def readImages (s : State) (a : Agent) (e : MxEntry) : List Image :=
  match e.op with
  | .mxMma _ => [aImage s a.grid e.op (e.pair 0), bImage s a.grid e.op (e.pair 1)]
  | .mxSmma _ => [aImage s a.grid e.op (e.pair 0), bImage s a.grid e.op (e.pair 1)]
  | .mxQmma _ => [aImage s a.grid e.op (e.pair 0), bImage s a.grid e.op (e.pair 1)]
  | .mxLdacc _ => [aImage s a.grid e.op (e.pair 0)]
  | _ => []

/-- An image holds a poisoned line in a core's scratchpad (R159, R394). -/
def imagePoisoned (s : State) (g core : Nat) (m : Image) : Bool :=
  (m.ranges (dChk m.desc)).any (fun r => r.2 != 0 && (scratchPoison s g (2 ^ 21 * core + r.1) r.2).isSome)

/-- The arrays for which an entry reads a poisoned line, with the address of the operand it lies in (R159). -/
def poisonedArrays (s : State) (a : Agent) (e : MxEntry) : List (Nat × Nat) :=
  (coresOf e.cmask).filterMap (fun c =>
    ((readImages s a e).find? (fun m => imagePoisoned s a.grove (srcCore m.desc c) m)).map
      (fun m => (c, 2 ^ 21 * srcCore m.desc c + dOff m.desc)))

/-- Every element of a tile becomes indeterminate (R159). -/
def loosenWhole (t : Nat) (s : State) (core : Nat) : State :=
  (s.setCore core (setTiles (s.core core) t ((cells2 128 128).map (fun ij =>
    (ij.1, ij.2, BitVec.ofNat 32 (s.free (128 * ij.1 + ij.2))))))).used 16384

/-- The address of a checked operand whose CRC does not match, before an entry's first step (R137, R159). -/
def crcFailure (s : State) (a : Agent) (e : MxEntry) : Option Nat :=
  ((readImages s a e).filter (fun m => dChk m.desc)).findSome? (fun m =>
    ((imageCores m.desc e.cmask).find? (fun c =>
      let base := 2 ^ 21 * c + dOff m.desc
      let n := m.trailer - dOff m.desc
      !imagePoisoned s a.grove c m
        && crc32c (scratchBytes s a.grove base n) != scratchRead s a.grove (base + n + 12) 4)).map
      (fun c => 2 ^ 21 * c + dOff m.desc))

def findMx (a : Agent) (t : Word) : Option MxEntry := a.mxq.find? (fun e => e.ticket == t)
def putMx (a : Agent) (e : MxEntry) : Agent := { a with mxq := a.mxq.map (fun x => if x.ticket == e.ticket then e else x) }
/-- An entry ends: it leaves the queue, and is to be joined. -/
def dropMx (a : Agent) (t : Word) : Agent :=
  { a with mxq := a.mxq.filter (fun x => x.ticket != t), mxDone := a.mxDone ++ a.mxq.filter (fun x => x.ticket == t) }

/-- An entry may be dispatched: every earlier one has been, and those on its arrays have left (R144, R155). -/
def mxReady (a : Agent) (e : MxEntry) : Bool :=
  (a.mxq.takeWhile (fun x => x.ticket != e.ticket)).all (fun x => x.running && x.cmask &&& e.cmask == 0)

/-! ### Races with operand images (R176) -/

/-- The bytes that row r of an image takes up, and those that element (r, k) does. -/
def Image.rowSpans (m : Image) (r : Nat) : List (Nat × Nat) :=
  [(dOff m.desc + r * m.pitch, m.rowBytes), (m.scaleOff + 4 * r * m.scales, 4 * m.scales), (dOff m.desc + dAux m.desc + r * m.meta_, m.meta_)]
def Image.elemSpans (m : Image) (r k : Nat) : List (Nat × Nat) :=
  [(dOff m.desc + r * m.pitch + m.width * k / 8, (m.width * k % 8 + m.width + 7) / 8),
   (m.scaleOff + 4 * (r * m.scales + k / slotBlock m.slot), if m.scales = 0 then 0 else 4)]

/-- Software has stored to some bytes of a core's scratchpad after an entry's issue, or another agent had before it and not closed
them. -/
def spansRaced (s : State) (core : Nat) (e : MxEntry) (xs : List (Nat × Nat)) : Bool :=
  xs.any (fun x => (List.range x.2).any (fun i =>
    writtenSince s e.since (scratchPos core (x.1 + i)) || e.foreign.contains (scratchPos core (x.1 + i))))

/-- The elements of an entry's target tile on an array that read a byte of which a store neither happens before the entry's issue nor
after its join. -/
def racedCells (s : State) (a : Agent) (e : MxEntry) (c : Nat) : List (Nat × Nat) :=
  let ia := aImage s a.grid e.op (e.pair 0)
  let ib := bImage s a.grid e.op (e.pair 1)
  let src := fun (m : Image) => 8 * a.grove + srcCore m.desc c
  match e.op with
  | .mxLdacc l => (cells2 (dRows ia.desc) (xCols l)).filter (fun ij => spansRaced s (src ia) e (ia.elemSpans ij.1 ij.2))
  | .mxMma _ | .mxSmma _ | .mxQmma _ =>
    let ra := (List.range (dRows ia.desc)).filter (fun i => spansRaced s (src ia) e (ia.rowSpans i))
    let rb := (List.range (dRows ib.desc)).filter (fun j => spansRaced s (src ib) e (ib.rowSpans j))
    (cells2 (dRows ia.desc) (dRows ib.desc)).filter (fun ij => ra.contains ij.1 || rb.contains ij.2)
  | _ => []

/-- Elements of a tile become indeterminate. -/
def loosenCells (s : State) (core t : Nat) (cells : List (Nat × Nat)) : State :=
  if cells.isEmpty then s
  else (s.setCore core (setTiles (s.core core) t (cells.zipIdx.map (fun e => (e.1.1, e.1.2, BitVec.ofNat 32 (s.free e.2)))))).used cells.length

/-- The raced elements of an entry's tiles on some of its arrays become indeterminate. -/
def loosenRaced (s : State) (a : Agent) (e : MxEntry) (cs : List Nat) : State :=
  cs.foldl (fun s c => (mxTiles e.op).foldl (fun s t => loosenCells s (8 * a.grove + c) t (racedCells s a e c)) s) s

/-- An entry gives an element of its tiles anew, whatever they held. -/
def renews (s : State) (a : Agent) (x : MxEntry) (ij : Nat × Nat) : Bool :=
  let ia := aImage s a.grid x.op (x.pair 0)
  match x.op with
  | .mxZero _ => true
  | .mxLdacc l => decide (ij.1 < dRows ia.desc) && decide (ij.2 < xCols l)
  | .mxMma l | .mxSmma l | .mxQmma l =>
    !xAcc l && decide (ij.1 < dRows ia.desc) && decide (ij.2 < dRows (bImage s a.grid x.op (x.pair 1)).desc)
  | _ => false

/-- An entry was issued after another. -/
def issuedAfter (x e : MxEntry) : Bool := decide (0 < (x.ticket - e.ticket).toNat) && decide ((x.ticket - e.ticket).toNat < 2 ^ 31)

/-- At its join, the raced elements of an entry's tiles become indeterminate where no later entry has given them anew; an entry that
took no step has read nothing (R137, R168, R176). -/
def joinEntry (a : Agent) (s : State) (e : MxEntry) : State :=
  if e.next = 0 then s
  else
    let later := (a.mxDone ++ a.mxq).filter (fun x => issuedAfter x e && x.next != 0)
    (coresOf e.cmask).foldl (fun s c => (mxTiles e.op).foldl (fun s t =>
      loosenCells s (8 * a.grove + c) t ((racedCells s a e c).filter (fun ij =>
        !later.any (fun x => bitN x.cmask c && (mxTiles x.op).contains t && renews s a x ij)))) s) s

/-- The entries that a test names, of those that have ended, are joined (R168, R176). -/
def joinMx (s : State) (k : Nat) (p : MxEntry → Bool) : State :=
  (((s.agent k).mxDone.filter p).foldl (joinEntry (s.agent k)) s).modAgent k (fun a => { a with mxDone := a.mxDone.filter (fun e => !p e) })

/-- MX_DISPATCH: the entry arrives at its arrays, after the accesses that wait there (R144, R155). -/
def execMxDispatch (k : Nat) (t : Word) (s : State) : Host.Outcome State Fault Refusal :=
  let a := s.agent k
  match findMx a t with
  | none => .next s
  | some e =>
    if e.running || !mxReady a e || a.state == .saved || dieStopped s a.die then .next s
    else
      let s := (coresOf e.cmask).foldl (fun s c => drainTiles s (8 * a.grove + c)) s
      .next (s.setAgent k (putMx (s.agent k) { e with running := true }))

/-- MX_STEP: the next step of a dispatched entry on all its arrays; before the first, checked operands are checked. An array
that reads a poisoned line is left with an indeterminate tile (R155, R159). -/
def execMxStep (k : Nat) (t : Word) (s : State) : Host.Outcome State Fault Refusal :=
  let a := s.agent k
  match findMx a t with
  | none => .next s
  | some e =>
    if !e.running || decide (mxSteps e.op ≤ e.next) || a.state == .saved || dieStopped s a.die then .next s
    else match (if e.next = 0 then crcFailure s a e else none) with
      | some addr => .next (s.setAgent k { dropMx a t with mxErrors := a.mxErrors ++ [(t, .tileIntegrity, addr)] })
      | none =>
        let bad := poisonedArrays s a e
        let s := loosenRaced (mxEffect s a e) a e (coresOf e.cmask)
        let s := bad.foldl (fun s x => (mxTiles e.op).foldl (fun s t => loosenWhole t s (8 * a.grove + x.1)) s) s
        let a := putMx (s.agent k) { e with next := e.next + 1 }
        match bad with
        | x :: _ =>
          let known := a.mxErrors.any (fun y => y.1 == t)
          .next (s.setAgent k (if known then a else { a with mxErrors := a.mxErrors ++ [(t, .memUncorrectable, x.2)] }))
        | [] => .next (s.setAgent k a)

/-- MX_ENTRY_COMPLETE: an entry whose last step has ended leaves the queue (R154, R155). -/
def execMxEntryComplete (k : Nat) (t : Word) (s : State) : Host.Outcome State Fault Refusal :=
  let a := s.agent k
  match findMx a t with
  | none => .next s
  | some e =>
    if e.running && decide (mxSteps e.op ≤ e.next) && a.state != .saved && !dieStopped s a.die then .next (s.setAgent k (dropMx a t)) else .next s

/-! ### Waiting, querying, cancelling, binding (R147, R168 to R170) -/

/-- A ticket is at or before another (R168). -/
def upTo (x t : Word) : Bool := decide ((x - t).toNat < 2 ^ 31)

def execMxWait (f : FArgs) (s : State) := issue (.mxWait f) s (fun s a =>
  let x := regGet a f.a.toNat 0
  if !guardOn a (.mxWait f) then .go s
  else if a.mxq.any (fun e => upTo x e.ticket) then .wait s
  else match a.mxErrors.find? (fun e => upTo x e.1) with
    | some e => .trapIn (s.setMe { a with mxErrors := a.mxErrors.filter (· != e) }) e.2.1 e.2.2
    | none => .go (openJoin (joinMx s s.cur (fun e => upTo x e.ticket)) s.cur))

/-- The value of MX.Q (R169). -/
def mxQuery (s : State) (a : Agent) (sel x : Nat) : Nat :=
  if sel = 0 then a.mxq.length
  else if sel = 1 then (match a.mxq with | [] => a.ticket.toNat | e :: _ => (e.ticket - 1).toNat)
  else if sel = 2 then (s.core (8 * a.grove + x % 8)).allow
  else if sel = 3 then a.bound
  else if sel = 4 then
    ((contexts s a.grove).map (fun k => ((s.agent k).mxq.filter (·.running)).foldl (fun m e => m ||| e.cmask) 0)).foldl (· ||| ·) 0
  else
    let ended := a.mxErrors.filter (fun e => !a.mxq.any (fun x => x.ticket == e.1))
    if sel = 5 then (ended.head?.map (fun e => causeCode e.2.1)).getD 0 else (ended.head?.map (fun e => e.1.toNat)).getD 0

def execMxQ (f : FArgs) (s : State) := issue (.mxQ f) s (fun s a =>
  if !guardOn a (.mxQ f) then .go s
  else .go (s.setMe (wrN a f.d.toNat 1 (fun _ => some (mxQuery s a (f.mod.toNat % 8) (rd1 a f.a 0))))))

def execMxCancel (f : FArgs) (s : State) := issue (.mxCancel f) s (fun s a =>
  let x := regGet a f.a.toNat 0
  let hit := fun (e : MxEntry) => upTo e.ticket x
  if !guardOn a (.mxCancel f) then .go s
  else .go (s.setMe { wrN a f.d.toNat 1 (fun _ => some (a.mxq.filter hit).length) with
    mxq := a.mxq.filter (fun e => !hit e)
    mxDone := a.mxDone ++ a.mxq.filter (fun e => hit e && e.running)
    mxErrors := a.mxErrors.filter (fun e => !a.mxq.any (fun x => hit x && x.ticket == e.1)) }))

/-- The arrays that the other context of the grove binds. -/
def otherBound (s : State) (k : Nat) (g : Nat) : Nat :=
  ((contexts s g).filter (fun j => j != k)).foldl (fun m j => m ||| (s.agent j).bound) 0

/-- Arrays bound anew: what waits there takes effect first, then their tiles are +0 (R147). -/
def bindArrays (s : State) (g fresh : Nat) : State :=
  (coresOf fresh).foldl (fun s c =>
    let s := drainTiles s (8 * g + c)
    s.setCore (8 * g + c) (zeroTiles (s.core (8 * g + c)))) s

def execMxBind (f : FArgs) (s : State) := issue (.mxBind f) s (fun s a =>
  if !guardOn a (.mxBind f) then .go s
  else if !a.mxq.isEmpty then .wait s
  else
    let want := rd1 a f.a 0 % 256
    let got := want - (want &&& otherBound s s.cur a.grove)
    let s := (coresOf (a.bound - (a.bound &&& got))).foldl (fun s c => drainTiles s (8 * a.grove + c)) s
    let s := bindArrays s a.grove (got - (got &&& a.bound))
    .go (s.setMe { wrN s.me f.d.toNat 1 (fun _ => some got) with bound := got }))

/-! ### Banks a macro-operation names (R152) -/

/-- The banks of a core that a queued or running macro-operation of its grove names. -/
def mxBanks (s : State) (core : Nat) : List Nat :=
  ((contexts s (core / 8)).map (fun k =>
    let a := s.agent k
    (a.mxq.map (fun e =>
      let imgs : List Image := match e.op with
        | .mxStacc _ => [aImage s a.grid e.op (e.pair 0)]
        | _ => readImages s a e
      ((imgs.filter (fun m => (imageCores m.desc e.cmask).contains (core % 8))).map (fun m =>
        ((m.ranges (imageTrl e.op m)).map (fun r =>
          (List.range ((r.1 + r.2 - 1) / 65536 + 1 - r.1 / 65536)).map (fun i => r.1 / 65536 + i))).flatten)).flatten)).flatten)).flatten

/-! ### The end of an agent (R117, R168) -/

/-- EXIT: in a forester context it first waits for its macro-operations, joins them and reports their errors; then outstanding
instructions and accesses that wait at the tile array, a close at grove scope, and the agent is gone (R117, R168, R171). -/
def execExit (f : FArgs) (s : State) := issue (.exit f) s (fun s a =>
  if !guardOn a (.exit f) then .go s
  else if !a.mxq.isEmpty then .wait s
  else match a.mxErrors with
  | e :: es => .trapIn (s.setMe { a with mxErrors := es }) e.2.1 e.2.2
  | [] =>
    if a.lahead.any (fun e => !e.done) || (s.core a.core).tileQueue.any (fun x => x.agent == s.cur) then .wait s
    else beforeClose (joinMx s s.cur (fun _ => true)) 1 (fun s =>
      if !closeNowFree s s.cur then .wait s
      else
        let s := closeNow s s.cur 1
        if closesPending s s.cur then .wait s else .gone (dropAgent s s.cur)))

end Sys2Proof.Machine
end

