-- ==== Sys2Proof/Machine/Banks.lean ====
section
/-! DEFINITION. Bank modes: BANKSET and the end of its drains (R181 to R184). -/

namespace Sys2Proof.Machine

/-- The banks that resident workgroups of a grove hold (R182). -/
def heldBanks (s : State) (g : Nat) : Nat :=
  (s.wgs.filter (fun e => e.2.grove == g && !e.2.saved && !e.2.retired)).foldl
    (fun m e => m ||| recordField s e.2.grid 36 4 ||| recordField s e.2.grid 40 4) 0

/-- A bank loses what it held as scratchpad or FIFO; entering scratchpad mode it is zero, entering FIFO mode empty (R183). -/
def wipeBank (c : Core) (b : Nat) : Core :=
  { c with scratch := c.scratch.filter (fun e => e.1 / 65536 != b), fifos := Tab.erase c.fifos b, unset := Tab.erase c.unset b
           poison := c.poison.filter (fun ln => ln / 512 != b) }

def setBanks (c : Core) (bs : List Nat) (m : Nat) : Core :=
  bs.foldl (fun c b => { wipeBank c b with modes := Tab.put c.modes b m }) c

/-- How many banks of a core are cache. -/
def cacheBanks (c : Core) : Nat := ((List.range 32).filter (fun b => c.mode b == 0)).length

/-- BANKSET on the banks of a bit mask (R183): refused, untouched, or draining until BANK_DRAIN_END. -/
def bankset (s : State) (a : Agent) (sel m : Nat) : Act :=
  let c := s.core a.core
  let picked := (List.range 32).filter (bitN sel)
  let moved := picked.filter (fun b => c.mode b != m)
  let named := mxBanks s a.core
  if moved.any (bitN (heldBanks s a.grove)) || picked.any named.contains || decide (24 < cacheBanks (setBanks c moved m)) then
    .trap .bankMode 0
  else if moved.isEmpty then .go s
  else
    .hold ((s.setCore a.core (setBanks c moved m)).setMe
      { a with hold := .bankDrain (BitVec.ofNat 32 (moved.foldl (fun x b => x + 2 ^ b) 0)) m })

def execBankset (f : FArgs) (s : State) := issue (.bankset f) s (fun s a =>
  if !guardOn a (.bankset f) then .go s else bankset s a (rd1 a f.a 0) f.b.toNat)

/-- An instruction that an event ends is over: its agent may be chosen again, after it, and results whose windows end with it are written
(R39, R183, R258, R272, R318). -/
def resumeAfter (s : State) (k : Nat) : State :=
  let a := s.agent k
  let la := a.lahead.map tickEntry
  writeEnded (s.setAgent k { a with hold := .none, counted := false, pc := a.pc + 8, lahead := la.filter (fun e => !e.ended || e.err.isSome) }) k la

/-- BANK_DRAIN_END. -/
def execBankDrainEnd (k : Nat) (s : State) : Host.Outcome State Fault Refusal :=
  match (s.agent k).hold with
  | .bankDrain _ _ => .next (resumeAfter s k)
  | _ => .next s

end Sys2Proof.Machine
end

