-- ==== Sys2Proof/Machine/Child.lean ====
section
/-! DEFINITION. Child grids: LAUNCH and CWAIT (R119, R120), whose fork and join reach the accesses that a team has posted. -/

namespace Sys2Proof.Machine

/-- LAUNCH with the address of a leader lane: a fork, before which what the team has posted is performed and every closed byte goes to its
home (R119, R225). -/
def launchAt (f : FArgs) (s : State) (a : Agent) (addr : Nat) : Act :=
  if addr % 256 ≠ 0 then .trap .misaligned addr
  else withRead s a (readAtIssue s a addr 256) (fun s b r =>
    if a.depth = 10 then .trap .nestDepth 0
    else if 4096 ≤ (s.grids.filter (fun e => e.2.parent.isSome && !e.2.done)).length then .wait s
    else
      let h := childHandle s
      let ok := recordOk s r true
      let b := wrN b f.d.toNat 1 (fun _ => some h)
      let s := { s with nextChild := h + 1 }
      if ok then
        let s := drainAll (s.setMe b) s.cur
        let s := pushAll s s.cur a.asid
        .go (addGrid s s.nextOrder r a.asid h (a.depth + 1) (max (recPrio r) a.prio) (some (s.cur, a.wg, a.grid)) none (liveProducer s a.asid r) (privateView s s.me))
      else .go (s.setMe { b with refused := b.refused + 1 }))

/-- LAUNCH: with no lane in the mask nothing happens, whichever the file of its address (R119; log entry 72). -/
def execLaunch (f : FArgs) (s : State) := issue (.launch f) s (fun s a =>
  match actLanes a (.launch f) with
  | [] => .go s
  | l :: _ => if a.mask = 0 then .go s else launchAt f s a (rdN a f.a.toNat 2 l))

/-- CWAIT, which joins the children (R120, R236): the join is an open (log entry 40). It issues at once, and waits (R62). -/
def execCwait (f : FArgs) (s : State) := issue (.cwait f) s (fun s a =>
  if !guardOn a (.cwait f) then .go s
  else if !(childrenOf s s.cur a).isEmpty then holdOnce a s
  else .go (openJoin (s.setMe { wrN a f.d.toNat 1 (fun _ => some a.refused) with refused := 0 }) s.cur))

end Sys2Proof.Machine
end

