-- ==== Sys2Proof/Machine/Mats.lean ====
section
/-! DEFINITION. The mats of a clearing: rows and latches (R261 to R263), micro-words and their sequencing (R265 to R269), and
the entries of the standard image (R273, R274). -/

namespace Sys2Proof.Machine

/-! ### Rows (R261) -/

def Mat.row (m : Mat) (r : Nat) : Row :=
  if r = 509 then BitVec.allOnes 1024 else if 510 ≤ r then 0 else Tab.get m.rows r 0
def Mat.setRow (m : Mat) (r : Nat) (x : Row) : Mat := if 509 ≤ r then m else { m with rows := Tab.put m.rows r x }

/-- The row whose bit at column c is f c. -/
def rowBits (f : Nat → Bool) : Row := BitVec.ofNat 1024 ((List.range 1024).foldr (fun c x => b2n (f c) + 2 * x) 0)

/-- The columns of a row that a mask selects are replaced. -/
def blend (g new old : Row) : Row := (new &&& g) ||| (old &&& ~~~g)

/-- The number that w rows from a base hold in a column (R262). -/
def Mat.elem (m : Mat) (base w c : Nat) : Nat := (List.range w).foldr (fun i x => b2n ((m.row (base + i)).getLsbD c) + 2 * x) 0

/-- A band of w rows written in the columns of a mask. -/
def Mat.setBand (m : Mat) (base w : Nat) (g : Row) (f : Nat → Nat) : Mat :=
  (List.range w).foldl (fun m i => m.setRow (base + i) (blend g (rowBits (fun c => bitN (f c) i)) (m.row (base + i)))) m

/-- Rows lo to lo + n − 1 hold free values. -/
def Mat.scramble (s : State) (m : Mat) (lo n : Nat) : Mat :=
  (List.range n).foldl (fun m i => m.setRow (lo + i) (Config.freeRow (s.freeCtr + i))) m

/-! ### Micro-words (R265 to R269) -/

/-- A call's bases, arguments and predicate gating (R280). -/
structure CallArgs where
  ba : Nat
  bb : Nat
  bd : Nat
  pg : Bool
  args : List Nat
  deriving DecidableEq, Repr

def CallArgs.arg (c : CallArgs) (k : Nat) : Nat := c.args.getD k 0

def mwField (w : BitVec 128) (lo len : Nat) : Nat := fieldN w.toNat lo len

/-- The row a selector names, with counters I and J (R266). -/
def selRow (c : CallArgs) (i j x : Nat) : Nat :=
  let mode := fieldN x 12 3
  let step := (if bitN x 10 then i else 0) + (if bitN x 11 then j else 0)
  if mode = 4 then (if bitN (c.arg (fieldN x 6 3)) ((fieldN x 0 4 + step) % 16) then 509 else 510)
  else ((if mode = 1 then c.ba else if mode = 2 then c.bb else if mode = 3 then c.bd else 0) + fieldN x 0 9 + step) % 512

/-- A selector without a reserved mode or bit. -/
def selOk (x : Nat) : Bool :=
  let mode := fieldN x 12 3
  decide (mode ≤ 4) && !bitN x 9 && (mode != 4 || fieldN x 4 2 == 0)

/-- A micro-word with no reserved field and no code outside R267 and R268. -/
def mwOk (w : BitVec 128) : Bool :=
  mwField w 77 51 == 0 && decide (mwField w 73 4 ≤ 11) && decide (mwField w 69 3 ≤ 6) && decide (mwField w 66 3 ≤ 5)
    && selOk (mwField w 49 15) && selOk (mwField w 34 15) && selOk (mwField w 19 15) && decide (mwField w 16 3 ≤ 4)
    && (if bitN (mwField w 8 8) 7 then fieldN (mwField w 8 8) 3 4 == 0 else !bitN (mwField w 8 8) 6)

/-- The value written, and the latches' updates (R267). -/
def wsrc (k : Nat) (a b c t : Row) : Row :=
  if k = 1 then a &&& b else if k = 2 then ~~~(a ||| b) else if k = 3 then a ||| b else if k = 4 then ~~~(a &&& b)
  else if k = 5 then a ^^^ b else if k = 6 then ~~~(a ^^^ b) else if k = 7 then a ^^^ b ^^^ c else if k = 8 then c
  else if k = 9 then t else if k = 10 then ~~~c else a
def clNext (k : Nat) (a b c t : Row) : Row :=
  if k = 0 then c else if k = 1 then 0 else if k = 2 then BitVec.allOnes 1024
  else if k = 3 then (a &&& b) ||| (a &&& c) ||| (b &&& c) else if k = 4 then a &&& b else if k = 5 then c ||| (a &&& b) else t
def tlNext (k : Nat) (a b c t : Row) : Row :=
  if k = 0 then t else if k = 1 then 0 else if k = 2 then BitVec.allOnes 1024
  else if k = 3 then a &&& b else if k = 4 then c else t ||| (a &&& b)

/-- One micro-word in one mat (R269): every read sees the state before it. -/
def mwMat (p : CallArgs) (i j : Nat) (w : BitVec 128) (m : Mat) : Mat :=
  let rd := selRow p i j (mwField w 19 15)
  let a := m.row (selRow p i j (mwField w 49 15))
  let b0 := m.row (selRow p i j (mwField w 34 15))
  let b := if mwField w 72 1 = 1 then ~~~b0 else b0
  let gate := mwField w 64 2
  let g0 : Row := if gate = 0 then BitVec.allOnes 1024 else if gate = 1 then m.row 508 else if gate = 2 then m.t else ~~~m.t
  let g := if p.pg && decide (rd ≤ 479) then g0 &&& m.row 508 else g0
  let k := mwField w 73 4
  let m' := if k = 0 then m else m.setRow rd (blend g (wsrc k a b m.c m.t) (m.row rd))
  { m' with c := blend g (clNext (mwField w 69 3) a b m.c m.t) m.c
            t := blend g (tlNext (mwField w 66 3) a b m.c m.t) m.t }

/-- How a sequence of micro-words ends. -/
inductive CallEnd where
  | done
  | broken
  | running
  deriving DecidableEq, Repr

/-- The micro-words a call runs, with their counters, the last first, in at most `fuel` row cycles (R268). -/
def callTrace (code : List (BitVec 128)) (p : CallArgs) :
    Nat → Nat → Nat → Nat → List (BitVec 128 × Nat × Nat) → List (BitVec 128 × Nat × Nat) × CallEnd
  | 0, _, _, _, acc => (acc, .running)
  | fuel + 1, pc, i, j, acc =>
    let w := code.getD pc 0
    if !mwOk w then (acc, .broken)
    else
      let acc := (w, i, j) :: acc
      let loop := mwField w 16 3
      let lim := mwField w 8 8
      let limit := if bitN lim 7 then max 1 (p.arg (lim % 8) % 64) else lim % 64 + 1
      let br := mwField w 0 8
      let next := (pc + 1) % 256
      if loop = 4 then (acc, .done)
      else if loop = 3 then callTrace code p fuel br i j acc
      else if loop = 1 then (if i + 1 < limit then callTrace code p fuel br (i + 1) j acc else callTrace code p fuel next 0 j acc)
      else if loop = 2 then (if j + 1 < limit then callTrace code p fuel br i (j + 1) acc else callTrace code p fuel next i 0 acc)
      else callTrace code p fuel next i j acc

/-- The row cycles in the 50 µs of the watchdog (R263, R289). -/
def watchdogCycles : Nat := 25000

/-- A traced call in one mat: both latches are 0 at its start (R269). -/
def runTrace (p : CallArgs) (tr : List (BitVec 128 × Nat × Nat)) (m : Mat) : Mat :=
  tr.reverse.foldl (fun m e => mwMat p e.2.1 e.2.2 e.1 m) { m with c := 0, t := 0 }

/-! ### The standard image (R273, R274) -/

/-- A band lies in rows 0 to 479; two bands overlap. -/
def bandIn (b : Nat × Nat) : Bool := decide (b.1 + b.2 ≤ 480)
def bandsMeet (x y : Nat × Nat) : Bool := decide (x.1 < y.1 + y.2) && decide (y.1 < x.1 + x.2)

/-- How many arguments an entry names. -/
def stdArgs (n : Nat) : Nat := if n = 2 || n = 3 then 3 else if n = 4 then 8 else if n = 6 then 4 else 1

/-- The source bands and the destination band of an entry: base and rows. -/
def stdBands (n : Nat) (p : CallArgs) : List (Nat × Nat) × Option (Nat × Nat) :=
  let w := p.arg 0
  if n ≤ 1 then ([(p.ba, w), (p.bb, w)], some (p.bd, w))
  else if n = 2 then ([(p.ba, p.arg 0), (p.bb, p.arg 1)], some (p.bd, p.arg 2))
  else if n = 3 then ([(p.ba, w % 64)], none)
  else if n = 4 then ([(p.ba, 64)], some (p.bd, 16))
  else if n = 5 then ([(p.ba, w)], some (p.bd, 6))
  else ((List.range (p.arg 1)).map (fun k => (p.ba + k * p.arg 2, w)), some (p.bd, w))

def inRange (x lo hi : Nat) : Bool := decide (lo ≤ x) && decide (x ≤ hi)

/-- A call of a standard entry that keeps R274. -/
def stdOk (n : Nat) (p : CallArgs) : Bool :=
  let ranges :=
    if n = 2 then inRange (p.arg 0) 1 8 && inRange (p.arg 1) 1 8 && inRange (p.arg 2) 1 32
    else if n = 3 then inRange (p.arg 0 % 64) 1 32
    else if n = 4 then true
    else if n = 6 then inRange (p.arg 0) 1 32 && inRange (p.arg 1) 1 16 && inRange (p.arg 2) 1 479
    else inRange (p.arg 0) 1 32
  let bands := stdBands n p
  ranges && (List.range 8).all (fun k => decide (k < stdArgs n) || p.arg k == 0)
    && bands.1.all bandIn
    && (match bands.2 with
      | none => true
      | some d => bandIn d && bands.1.all (fun b => !bandsMeet b d || (decide (n ≤ 1) && b == d)))

/-- The largest of some numbers as signed or unsigned w-bit integers. -/
def maxOf (u : Bool) (w : Nat) (xs : List Nat) : Nat := xs.foldl (fun m x => if intOf u w m < intOf u w x then x else m) (xs.headD 0)

/-- The result of an entry in a column (R273). -/
def stdValue (n : Nat) (p : CallArgs) (m : Mat) (c : Nat) : Nat :=
  let a := m.elem p.ba (p.arg 0) c
  let b := m.elem p.bb (p.arg 0) c
  if n = 0 then a + b
  else if n = 1 then subN (p.arg 0) a b
  else if n = 2 then m.elem p.bd (p.arg 2) c + a * m.elem p.bb (p.arg 1) c
  else if n = 3 then
    let w := p.arg 0 % 64
    let u := !bitN (p.arg 0) 8
    b2n (decide (intOf u 32 (p.arg 1 + 65536 * p.arg 2) ≤ intOf u w (m.elem p.ba w c)))
  else if n = 4 then
    wrapN 16 (((List.range 16).map (fun k =>
      signedN 4 (m.elem (p.ba + 4 * k) 4 c) * signedN 8 (fieldN (p.arg (k / 2)) (8 * (k % 2)) 8))).sum)
  else if n = 5 then popN (p.arg 0) a
  else maxOf (!bitN (p.arg 3) 0) (p.arg 0) ((List.range (p.arg 1)).map (fun k => m.elem (p.ba + k * p.arg 2) (p.arg 0) c))

/-- A standard entry in one mat: its result where PG lets it write; scratch rows are indeterminate after it (R261, R273). -/
def runStandard (s : State) (n : Nat) (p : CallArgs) (m : Mat) : Mat :=
  let all := BitVec.allOnes 1024
  let g : Row := if p.pg then m.row 508 else all
  let m' := if n = 3 then m.setRow 508 (rowBits (fun c => stdValue n p m c == 1))
    else match (stdBands n p).2 with
      | none => m
      | some d => m.setBand d.1 d.2 g (stdValue n p m)
  Mat.scramble s m' 480 28

end Sys2Proof.Machine
end

