-- ==== Sys2Proof/Machine/Clearing.lean ====
section
/-! DEFINITION. Clearings: claims, mat commands, the slice sequencers and their watchdog, 0x240 to 0x249 (R255 to R260, R271,
R272, R275 to R292). -/

namespace Sys2Proof.Machine

/-! ### The device clearing table (R255 to R260) -/

/-- Way-ranks claimed on the device, and by an address space. -/
def claimedRanks (s : State) : Nat := (s.clearings.map (fun e => e.2.ranks)).sum
def asidRanks (s : State) (asid : Nat) : Nat := (s.clearings.map (fun e => if e.2.asid = asid then e.2.ranks else 0)).sum
def quotaOf (s : State) (asid : Nat) : Nat := Tab.get s.quotas asid 0

/-- The table entry of a live handle, if any. All 32 bits of an operand count, so that one whose RSV bits are not zero names no live
clearing: the model's choice (R7, R259; log entry 75). -/
def liveIndex (s : State) (h : Nat) : Option Nat :=
  let i := h % 16
  let c := s.clearing i
  if c.live && handleOf c i == h then some i else none

/-- The slice of a mat (R260). -/
def sliceOf (m : Nat) : Nat := m % 3072 / 8

/-- A handle that validates (R275); `any` for CLR.FREE at privileged level. -/
def validHandle (s : State) (a : Agent) (h : Nat) (any : Bool) : Option Nat :=
  match liveIndex s h with
  | none => none
  | some i => if any || (s.clearing i).asid == a.asid then some i else none

/-! ### CLR.CLAIM and CLR.FREE (R276, R277) -/

def claimRefused (s : State) (a : Agent) (n : Nat) : Bool :=
  let used := claimedRanks s
  decide (n < 1) || decide (12 < n) || decide (12 < used + n) || decide (s.clrLimit < used + n)
    || decide (quotaOf s a.asid < asidRanks s a.asid + n)

/-- The free entries of the table; which of them a claim takes the spec does not say (log entry 1). -/
def freeEntries (s : State) : List Nat := (List.range 12).filter (fun i => (s.clearing i).ranks == 0)

/-- The ways of every slice that a claim of n ranks takes: the highest-numbered free ones of 4 to 15 (R255). -/
def claimWays (s : State) (n : Nat) : List Nat :=
  (((List.range 12).map (15 - ·)).filter (fun w => !s.clearings.any (fun e => e.2.ways.contains w))).take n

def execClrClaim (f : FArgs) (s : State) := issue (.clrClaim f) s (fun s a =>
  let n := rd1 a f.a 0
  if !guardOn a (.clrClaim f) then .go s
  else if claimRefused s a n then .go (s.setMe (wrN a f.d.toNat 1 (fun _ => some 0xFFFFFFFF)))
  else
    let frees := freeEntries s
    let i := frees.getD (s.free 0 % frees.length) 0
    let c := s.clearing i
    let c' : Clearing := { c with gen := (c.gen + 1) % 65536, live := false, freeing := false, asid := a.asid, ranks := n, ways := claimWays s n
                                  poison := false, mats := [], unset := none }
    .hold (((s.setClearing i c').used 1).setMe { a with hold := .claimDrain i f.d }))

/-- CLAIM_DRAIN_END: the ways are drained and their mats zero, and the handle is written (R258, R276). -/
def execClaimDrainEnd (k : Nat) (s : State) : Host.Outcome State Fault Refusal :=
  let a := s.agent k
  match a.hold with
  | .claimDrain i d =>
    let c := s.clearing i
    let s := s.setClearing i { c with live := true, mats := [], unset := none }
    .next (resumeAfter (s.setAgent k (wrN a d.toNat 1 (fun _ => some (handleOf c i)))) k)
  | _ => .next s

/-- A clearing that is being freed: over when the commands that validated earlier have completed. CLR.FREE has issued meanwhile (R62,
R277). -/
def freeStep (s : State) (i : Nat) : Act :=
  if freesNow s i then .go (freeClearing (s.setMe { s.me with hold := .none }) i)
  else holdOnce s.me (s.setMe { s.me with hold := .freeing i })

def execClrFree (f : FArgs) (s : State) := issue (.clrFree f) s (fun s a =>
  if !guardOn a (.clrFree f) then .go s
  else match a.hold with
    | .freeing i => freeStep s i
    | _ => match validHandle s a (rd1 a f.a 0) a.priv with
      | none => .trap .privilege 0
      | some i => freeStep (s.setClearing i { (s.clearing i) with live := false, freeing := true }) i)

/-! ### Mat commands (R275, R278 to R282) -/

/-- Mat commands of an agent that have not completed. -/
def cmdsOf (s : State) (k : Nat) : Nat :=
  ((s.matCmds.filter (fun e => e.2.agent == k && !e.2.slices.isEmpty)).length + (s.agent k).matLoose) % 2 ^ 32

/-- Handle, then poison (R275). A transfer that was held for a fault has validated its handle before (R277, R320). -/
def withClearing (s : State) (a : Agent) (h : Nat) (go : Nat → Clearing → Act) : Act :=
  match (if a.hold == .matFault h then some (h % 16) else validHandle s a h false) with
  | none => .trap .privilege 0
  | some i => if (s.clearing i).poison then .trap .clearingFault 0 else go i (s.clearing i)

/-- The first mat index beyond the clearing (R275). -/
def matBeyond (c : Clearing) (mats : List Nat) : Option Nat := mats.find? (fun m => decide (3072 * c.ranks ≤ m))

/-- The locations of the bytes that a mat command reads (R279). -/
def loadSrc (job : MatJob) : List Nat :=
  match job with
  | .load _ _ e lanes => (lanes.map (fun ln => (List.range (1024 * e)).map (laneLoc ln))).flatten
  | _ => []

/-- Of some locations, those that agents other than one have stored to and not closed (R205). -/
def foreignLocs (s : State) (k : Nat) (locs : List Nat) : List Nat :=
  let fs := foreignBytes s k
  if fs.isEmpty then [] else locs.filter fs.contains

/-- A mat command enters the queues of the slices it names, unless a limit is reached; its issue is a fork, before which what its team has
posted is performed (R234, R236, R275, R291). Commands of different teams enter every queue in the order of their issue, which is the
same at every mat: the model's choice where R288 fixes no order (log entry 75). -/
def queueMats (s : State) (a : Agent) (h : Nat) (mats : List Nat) (job : MatJob) (go : State → Act) : Act :=
  let slices := (mats.map sliceOf).dedup
  if 64 ≤ cmdsOf s s.cur || slices.any (fun x => decide (64 ≤ (Tab.get s.sliceQueue x []).length)) then .wait s
  else
    let s := drainAll s s.cur
    let s := pushAll s s.cur a.asid
    let a := s.me
    let id := s.nextOrder
    let c : MatCmd := { agent := s.cur, wg := a.wg, unit := a.unit, asid := a.asid, user := !a.priv, handle := BitVec.ofNat 32 h, job := job, slices := slices
                        status := 0, addr := 0, stamp := 0, reported := false, view := privateView s a, mark := a.sideSeq, lost := []
                        since := s.codeSeq, foreign := foreignLocs s s.cur (loadSrc job), wrote := []
                        num := nowNum s s.cur }
    go { s with matCmds := Tab.put s.matCmds id c, nextOrder := id + 1
                sliceQueue := slices.foldl (fun q x => Tab.put q x (Tab.get q x [] ++ [id])) s.sliceQueue }

/-- The fields of a mat transfer (R278). -/
def tRow (l : LArgs) : Nat := fieldN l.imm33.toNat 0 9
def tWidth (l : LArgs) : Nat := fieldN l.imm33.toNat 9 5 + 1
def tElem (l : LArgs) : Nat := 2 ^ fieldN l.imm33.toNat 14 2
def transferBad (l : LArgs) : Bool :=
  fieldN l.imm33.toNat 14 2 == 3 || decide (8 * tElem l < tWidth l) || decide (480 < tRow l + tWidth l)

/-- The pages of a lane's 1,024·E bytes: locations of the first byte and of the next 4 KiB page, or the first failure. -/
def transferLane (s : State) (a : Agent) (n va : Nat) (p : Perm) : Except (Nat × Miss) (Nat × Nat) :=
  let next := va / 4096 * 4096 + 4096
  match xlate s a.unit a.asid va p (!a.priv) with
  | .error m => .error (va, m)
  | .ok x =>
    if va + n ≤ next then .ok (x, x)
    else match xlate s a.unit a.asid next p (!a.priv) with
      | .error m => .error (next, m)
      | .ok y => .ok (x, y)

def transferLanes (s : State) (a : Agent) (n : Nat) (p : Perm) (ls : List (Nat × Nat)) :
    Except (Nat × Miss) (List (Nat × Nat × Nat × Nat)) :=
  ls.foldr (fun e r => match transferLane s a n e.2 p with
    | .error m => .error m
    | .ok x => r.map ((e.1, e.2, x.1, x.2) :: ·)) (.ok [])

/-- The shared course of CLR.TLOAD and CLR.TSTORE. -/
def transfer (i : Instr) (l : LArgs) (p : Perm) (job : List (Nat × Nat × Nat × Nat) → MatJob) (s : State) (a : Agent) : Act :=
  let ls := (actLanes a i).map (fun x => (rd1 a l.a x % 65536, rdN a l.b.toNat 2 x))
  let n := 1024 * tElem l
  if ls.isEmpty then .go s
  else withClearing s a (rd1 a l.d 0) (fun _ c =>
    if transferBad l then .trap .reservedField 0
    else match matBeyond c (ls.map (·.1)) with
      | some m => .trap .privilege m
      | none => match ls.find? (fun e => e.2 % tElem l != 0) with
        | some e => .trap .misaligned e.2
        | none => match rangeFault ls n with
          | some x => .trap .pageNotPresent x
          | none => match transferLanes s a n p ls with
            | .error (va, m) => heldFault s { a with hold := .matFault (rd1 a l.d 0) } m va 6
            | .ok lanes => queueMats (fillTlbs s a.unit a.asid (ls.map (·.2))) a (rd1 a l.d 0) (ls.map (·.1)) (job lanes) .go)

def execClrTload (l : LArgs) (s : State) := issue (.clrTload l) s
  (transfer (.clrTload l) l .read (.load (tRow l) (tWidth l) (tElem l)))
def execClrTstore (l : LArgs) (s : State) := issue (.clrTstore l) s
  (transfer (.clrTstore l) l .write (.store (tRow l) (tWidth l) (tElem l) (mb l.mod 0) (l.imm33.getLsbD 16)))

/-- An entry of the control store is valid (R270, R273). -/
def entryValid (s : State) (n : Nat) : Bool := if s.standard then decide (n ≤ 6) else bitN (s.entries.getD n 0).toNat 8

def execClrCall (l : LArgs) (s : State) := issue (.clrCall l) s (fun s a =>
  let mats := ((actLanes a (.clrCall l)).map (fun x => rd1 a l.a x % 65536)).dedup
  let entry := fieldN l.imm33.toNat 0 5
  let args := ((List.range 4).map (fun k => let x := (regGet a (l.c.toNat + k) 0).toNat; [x % 65536, x / 65536])).flatten
  if mats.isEmpty then .go s
  else withClearing s a (rd1 a l.d 0) (fun _ c =>
    if !entryValid s entry then .trap .reservedField 0
    else match matBeyond c mats with
      | some m => .trap .privilege m
      | none => queueMats s a (rd1 a l.d 0) mats
          (.call entry (fieldN l.imm33.toNat 5 9) (fieldN l.imm33.toNat 14 9) (fieldN l.imm33.toNat 23 9) (mb l.mod 0) args mats) .go))

def execClrPred (f : FArgs) (s : State) := issue (.clrPred f) s (fun s a =>
  let ls := (actLanes a (.clrPred f)).map (fun x => (rd1 a f.a x % 65536, fieldN (rd1 a f.a x) 16 5, regGet a f.b.toNat x))
  if ls.isEmpty then .go s
  else withClearing s a (rd1 a f.d 0) (fun _ c => match matBeyond c (ls.map (·.1)) with
    | some m => .trap .privilege m
    | none => queueMats s a (rd1 a f.d 0) (ls.map (·.1)) (.pred (f.mod.toNat % 4) ls) .go))

def execClrRdrow (f : FArgs) (s : State) := issue (.clrRdrow f) s (fun s a =>
  let ls := (actLanes a (.clrRdrow f)).map (fun x => (x, rd1 a f.a x))
  let mats := ls.map (fun e => e.2 % 65536)
  let e := mkEntry a (.clrRdrow f) f.d 1 false false [] (fun _ => 0)
  if ls.isEmpty then .long s e
  else withClearing s a (rd1 a f.b 0) (fun _ c => match matBeyond c mats with
    | some m => .trap .privilege m
    | none => queueMats s a (rd1 a f.b 0) mats (.read e.token ls) (fun s => .long s e)))

/-! ### Mats, and races with CLR.TLOAD (R205, R291) -/

/-- A mat of a clearing; after a watchdog trip its rows and latches hold free values (R289). -/
def matOf (s : State) (i m : Nat) : Mat :=
  let c := s.clearing i
  Tab.get c.mats m (match c.unset with
    | none => Mat.zero
    | some base =>
      let free := fun r => Config.freeRow (base + 512 * m + r)
      { rows := (List.range 509).map (fun r => (r, free r)), c := free 509, t := free 510 })
def setMat (s : State) (i m : Nat) (x : Mat) : State :=
  let c := s.clearing i
  s.setClearing i { c with mats := Tab.put c.mats m x }

/-- A source byte of a mat command that software has stored to since its issue, or that another agent had stored to and not closed
(R205, R291). -/
def matRaced (s : State) (c : MatCmd) (loc : Nat) : Bool := writtenSince s c.since loc || c.foreign.contains loc

/-- The mats that a command names. -/
def jobMats : MatJob → List Nat
  | .load _ _ _ lanes => lanes.map (·.1)
  | .store _ _ _ _ _ lanes => lanes.map (·.1)
  | .call _ _ _ _ _ _ mats => mats
  | .pred _ lanes => lanes.map (·.1)
  | .read _ lanes => lanes.map (fun x => x.2 % 65536)

/-- The elements of a lane's band that a test names take free values. -/
def loosenBand (i row w : Nat) (hit : Nat → Bool) (s : State) (m : Nat) : State :=
  if (List.range 1024).any hit then
    (setMat s i m ((List.range w).foldl (fun x j =>
      x.setRow (row + j) (blend (rowBits hit) (Config.freeRow (s.freeCtr + j)) (x.row (row + j)))) (matOf s i m))).used w
  else s

/-- Mat commands are joined: what CLR.TLOAD loaded from raced bytes is indeterminate, where no later command has named the mat (R205,
R283). -/
def joinMats (s : State) (cs : List (Nat × MatCmd)) : State :=
  cs.foldl (fun s e => match e.2.job with
    | .load row w n lanes =>
      (lanes.filter (fun ln => !cs.any (fun x => decide (e.1 < x.1) && (jobMats x.2.job).contains ln.1))).foldl (fun s ln =>
        loosenBand (e.2.handle.toNat % 16) row w (fun k => (List.range n).any (fun b => matRaced s e.2 (laneLoc ln (k * n + b)))) s ln.1) s
    | _ => s) s

/-! ### CLR.WAIT and CLR.Q (R283, R284) -/

/-- The commands of a team to a handle that no completed CLR.WAIT has covered. -/
def coveredCmds (s : State) (k h : Nat) : List (Nat × MatCmd) := s.matCmds.filter (fun e => e.2.agent == k && e.2.handle.toNat == h)

/-- The earliest recorded of some statuses. -/
def firstStatus (cs : List (Nat × MatCmd)) : Option (Nat × MatCmd) :=
  (cs.filter (fun e => e.2.status != 0)).foldl (fun b e => match b with
    | none => some e
    | some x => if e.2.stamp < x.2.stamp then some e else some x) none

def execClrWait (f : FArgs) (s : State) := issue (.clrWait f) s (fun s a =>
  let h := rd1 a f.a 0
  if !guardOn a (.clrWait f) then .go s
  else match validHandle s a h false with
    | none => .trap .privilege 0
    | some _ =>
      let cs := coveredCmds s s.cur h
      if cs.any (fun e => !e.2.slices.isEmpty) then .wait s
      else match firstStatus (cs.filter (fun e => !e.2.reported)) with
        | some (_, c) => .trapIn { s with matCmds := s.matCmds.map (fun e =>
            if cs.any (fun x => x.1 == e.1) then (e.1, { e.2 with reported := true }) else e) } (causeOfCode c.status) c.addr
        | none =>
          let st := ((firstStatus cs).map (fun e => e.2.status)).getD 0
          let s := joinMats s cs
          let s := { s with matCmds := s.matCmds.filter (fun e => !(e.2.agent == s.cur && e.2.handle.toNat == h)) }
          .go (openJoin (s.setMe (wrN s.me f.d.toNat 1 (fun _ => some st))) s.cur))

/-- The VERSION of the loaded image. -/
def loadedVersion (s : State) : Nat := if s.standard then Config.standardVersion.toNat else s.imageVersion

def execClrQ (f : FArgs) (s : State) := issue (.clrQ f) s (fun s a =>
  let h := rd1 a f.a 0
  let sel := f.mod.toNat % 8
  let put := fun v => Act.go (s.setMe (wrN a f.d.toNat 1 (fun _ => some v)))
  if !guardOn a (.clrQ f) then .go s
  else if sel = 3 then put (min s.clrLimit 12 - claimedRanks s)
  else if sel = 4 then put (quotaOf s a.asid - asidRanks s a.asid)
  else if sel = 5 then put (loadedVersion s)
  else match validHandle s a h false with
    | none => .trap .privilege 0
    | some i =>
      if sel = 0 then put ((coveredCmds s s.cur h).filter (fun e => !e.2.slices.isEmpty)).length
      else if sel = 1 then put (s.clearing i).ranks
      else put (b2n (s.clearing i).poison))

/-! ### CLR.CSLOAD (R271, R272) -/

def imageWords (img : List Byte) : Nat := sliceN img 8 4
/-- The image is malformed: MAGIC, WORDS, a nonzero zero field, or a valid entry that starts beyond the code. -/
def imageMalformed (img : List Byte) : Bool :=
  sliceN img 0 4 != 0x434C4D49 || decide (imageWords img < 1) || decide (256 < imageWords img) || sliceN img 12 4 != 0
    || (List.range 32).any (fun k =>
      let e := sliceN img (16 + 4 * k) 4
      decide (512 ≤ e) || (bitN e 8 && decide (imageWords img ≤ e % 256)))

/-- An image takes the place of the control store and the entry table of every slice. -/
def loadImage (s : State) (img : List Byte) : State :=
  { s with control := (List.range (imageWords img)).map (fun k => BitVec.ofNat 128 (sliceN img (144 + 16 * k) 16))
           entries := (List.range 32).map (fun k => BitVec.ofNat 32 (sliceN img (16 + 4 * k) 4))
           imageVersion := sliceN img 4 4, standard := false }

/-- CLR.CSLOAD (R272). A clearing that is draining for its claim, or being freed, is not live, and whether one is live is asked only as the
instruction issues: the model's choice (log entry 75). -/
def execClrCsload (f : FArgs) (s : State) := issue (.clrCsload f) s (fun s a =>
  let va := rdN a f.a.toNat 2 0
  let put := fun (s : State) (a : Agent) (v : Nat) => Act.go (s.setMe (wrN a f.d.toNat 1 (fun _ => some v)))
  if !guardOn a (.clrCsload f) then .go s
  else if va % 64 ≠ 0 then .trap .misaligned va
  else withRead s a (readAtIssue s a va 144) (fun s a head =>
    if s.clearings.any (fun e => e.2.live) then put s a 3
    else if imageMalformed head then put s a 2
    else withRead s a (readAtIssue s a (va + 144) (16 * imageWords head + 64)) (fun s a rest =>
      .hold (s.setMe { a with hold := .controlStore (head ++ rest) f.d }))))

/-- CONTROL_STORE_LOAD_END, with the verdict of the security processor on the signature (R272). -/
def execControlStoreLoadEnd (k : Nat) (ok : Bool) (s : State) : Host.Outcome State Fault Refusal :=
  let a := s.agent k
  match a.hold with
  | .controlStore img d =>
    let s := if ok then loadImage s img else s
    .next (resumeAfter (s.setAgent k (wrN a d.toNat 1 (fun _ => some (b2n (!ok))))) k)
  | _ => .next s

/-! ### The sequencers (R286 to R291) -/

/-- A status is recorded against a command; the first stays. -/
def recordStatus (s : State) (id code addr : Nat) : State :=
  match Tab.find s.matCmds id with
  | none => s
  | some c =>
    if c.status != 0 then s
    else { s with matCmds := Tab.put s.matCmds id { c with status := code, addr := addr, stamp := s.nextOrder }, nextOrder := s.nextOrder + 1 }

/-- A byte as a mat command reads it: by its fork, else at its home (R291). -/
def matByte (s : State) (c : MatCmd) (loc : Nat) : Option Byte :=
  match Tab.find c.view loc with
  | some b => some b
  | none => sharedByte s 64 loc

/-- A line that a command reads and that has still to come from another device. -/
def matAway (s : State) (c : MatCmd) (n : Nat) (lanes : List (Nat × Nat × Nat × Nat)) : Option Nat :=
  lanes.findSome? (fun ln => ((List.range n).find? (fun o =>
    (matByte s c (laneLoc ln o)).isNone && reachable s (homeOf (laneLoc ln o))
      && (Tab.find c.lost (lineOf (laneLoc ln o))).isNone)).map (laneLoc ln))

/-- Why a byte that is loaded is indeterminate: its line is poisoned, or its home cannot be reached (R279). -/
def byteLoss (s : State) (c : MatCmd) (mat loc : Nat) : Option Nat :=
  if (Tab.find c.view loc).isSome then none
  else if badAt s (8 + sliceOf mat / 48) loc then some 0x0C
  else if (matByte s c loc).isNone then
    (if reachable s (homeOf loc) then Tab.find c.lost (lineOf loc) else some 0x15)
  else none

/-- The same of element k of a lane: the first of its e bytes that does not come. -/
def elemLoss (s : State) (c : MatCmd) (ln : Nat × Nat × Nat × Nat) (e k : Nat) : Option Nat :=
  (List.range e).findSome? (fun b => byteLoss s c ln.1 (laneLoc ln (k * e + b)))

/-- CLR.TLOAD of one lane (R279). -/
def loadLane (i id row w e : Nat) (s : State) (c : MatCmd) (ln : Nat × Nat × Nat × Nat) : State :=
  let lost := (List.range 1024).filter (fun k => (elemLoss s c ln e k).isSome)
  let value := fun k => ofBytes ((List.range e).map (fun b => (matByte s c (laneLoc ln (k * e + b))).getD 0))
  let free := rowBits lost.contains
  let m := (List.range w).foldl (fun m j =>
    m.setRow (row + j) (blend free (Config.freeRow (s.freeCtr + j)) (rowBits (fun k => bitN (value k) j)))) (matOf s i ln.1)
  let s := loosenBand i row w (fun k => (List.range e).any (fun b => matRaced s c (laneLoc ln (k * e + b)))) ((setMat s i ln.1 m).used (if lost.isEmpty then 0 else w)) ln.1
  match lost with
  | [] => s
  | k :: _ => recordStatus s id ((elemLoss s c ln e k).getD 0) ((ln.2.1 + k * e) / 128 * 128)

/-- The bytes that CLR.TSTORE of one lane writes: its number, the address, the location, the byte. -/
def storeLane (s : State) (i row w e : Nat) (pm sx : Bool) (ln : (Nat × Nat × Nat × Nat) × Nat) : List (Nat × Nat × Nat × Byte) :=
  let m := matOf s i ln.1.1
  let cols := (List.range 1024).filter (fun k => !pm || (m.row 508).getLsbD k)
  (cols.map (fun k =>
    let v := m.elem row w k
    let x := if sx then wrapN (8 * e) (signedN w v) else v
    ((toBytes e x).zipIdx).map (fun b => (ln.2, ln.1.2.1 + k * e + b.2, laneLoc ln.1 (k * e + b.2), b.1)))).flatten

/-- CLR.TSTORE in a slice, at the homes: of lanes that write the same byte, in whichever slices, the highest-numbered one's data
remains (R279, R291). -/
def storeLanes (i id row w e : Nat) (pm sx : Bool) (s : State) (c : MatCmd) (slice : Nat) (lanes : List (Nat × Nat × Nat × Nat)) : State :=
  let here := lanes.zipIdx.filter (fun x => sliceOf x.1.1 == slice)
  let elsewhere := (lanes.filter (fun x => sliceOf x.1 != slice)).map (fun ln => (List.range (1024 * e)).map (laneLoc ln))
  let all := ((here.map (storeLane s i row w e pm sx)).flatten).filter (fun x => decide (Tab.get c.wrote x.2.2.1 0 ≤ x.1))
  let ok := all.filter (fun x => reachable s (homeOf x.2.2.1))
  let cells : Tab Byte := ok.foldl (fun t x => Tab.put t x.2.2.1 x.2.2.2) []
  let shared := ok.filter (fun x => elsewhere.any (fun locs => locs.contains x.2.2.1))
  let s := (linesOf cells).foldl (fun s ln => flushAll s c.asid (128 * ln)) s
  let s := noteWhole (softwareWrote (supersede s c.agent c.num cells) 0xFFFFFFFF (cells.map (·.1))) (cells.map (·.1))
  let s := placeHome s c.agent c.asid cells
  let s := match Tab.find s.matCmds id with
    | some x => { s with matCmds := Tab.put s.matCmds id { x with wrote := shared.foldl (fun t y => Tab.put t y.2.2.1 (y.1 + 1)) x.wrote } }
    | none => s
  match all.find? (fun x => !reachable s (homeOf x.2.2.1)) with
  | none => s
  | some x => recordStatus s id 0x15 (x.2.1 / 128 * 128)

/-- The course of a call in the control store: its words, and how it ends. -/
def callCourse (s : State) (entry : Nat) (p : CallArgs) : List (BitVec 128 × Nat × Nat) × CallEnd :=
  callTrace s.control p watchdogCycles ((s.entries.getD entry 0).toNat % 256) 0 0 []

/-- The batches a command of k mats takes in a slice (R264). -/
def batches (s : State) (ranks k : Nat) : Nat := if s.pclass = 2 then 1 else (k + 2 * ranks - 1) / (2 * ranks)

/-- A call occupies a slice's sequencer for 50 µs (R289). -/
def callHangs (s : State) (i entry : Nat) (p : CallArgs) (k : Nat) : Bool :=
  !s.standard && (match callCourse s entry p with
    | (_, .running) => true
    | (tr, _) => decide (watchdogCycles ≤ tr.length * batches s (s.clearing i).ranks k))

/-- One mat under a call (R269, R273, R274). -/
def callMat (i entry : Nat) (p : CallArgs) (s : State) (m : Nat) : State :=
  let x := matOf s i m
  if s.standard then
    if stdOk entry p then (setMat s i m (runStandard s entry p x)).used 28 else (setMat s i m (Mat.scramble s x 0 509)).used 509
  else match callCourse s entry p with
    | (tr, .done) => (setMat s i m (Mat.scramble s (runTrace p tr x) 480 28)).used 28
    | _ => (setMat s i m (Mat.scramble s x 0 509)).used 509

/-- CLR.PRED of one lane (R281). -/
def predMat (mode : Nat) (m : Mat) (k : Nat) (w : Word) : Mat :=
  if mode = 0 then m.setRow 508 0
  else if mode = 1 then m.setRow 508 (BitVec.allOnes 1024)
  else
    let g : Row := BitVec.ofNat 1024 (0xFFFFFFFF * 2 ^ (32 * k))
    m.setRow 508 (blend g (BitVec.ofNat 1024 (w.toNat * 2 ^ (32 * k))) (m.row 508))

/-- The 32 bits of CLR.RDROW (R282). -/
def rowWord (m : Mat) (x : Nat) : Nat := fieldN (m.row (fieldN x 21 9)).toNat (32 * fieldN x 16 5) 32

/-- Values a CLR.RDROW has read enter its window's entry. -/
def fillRead (s : State) (k token : Nat) (vals : List (Nat × Nat)) : State :=
  match Tab.find s.agents k with
  | none => s
  | some a => s.setAgent k { a with lahead := a.lahead.map (fun e =>
      if e.token == token then { e with values := vals.foldl (fun vs v => setAt vs (if isS e.dest then 0 else v.1) v.2) e.values } else e) }

/-- The job of a command in one slice. -/
def matJob (s : State) (i id slice : Nat) (c : MatCmd) : State :=
  match c.job with
  | .load row w e lanes => (lanes.filter (fun x => sliceOf x.1 == slice)).foldl (fun s ln => loadLane i id row w e s c ln) s
  | .store row w e pm sx lanes => storeLanes i id row w e pm sx s c slice lanes
  | .call entry ba bb bd pg args mats =>
    (mats.filter (fun m => sliceOf m == slice)).foldl (callMat i entry ⟨ba, bb, bd, pg, args⟩) s
  | .pred mode lanes => (lanes.filter (fun x => sliceOf x.1 == slice)).foldl (fun s x => setMat s i x.1 (predMat mode (matOf s i x.1) x.2.1 x.2.2)) s
  | .read token lanes => fillRead s c.agent token
      ((lanes.filter (fun x => sliceOf (x.2 % 65536) == slice)).map (fun x => (x.1, rowWord (matOf s i (x.2 % 65536)) x.2)))

/-- No workgroup will join a command any more: its team is gone, and its workgroup has retired or been aborted. -/
def cmdForgotten (s : State) (c : MatCmd) : Bool :=
  (Tab.find s.agents c.agent).isNone && ((Tab.find s.wgs c.wg).map Wg.retired).getD true

/-- A command has ended in a slice; a clearing that waits for it to be freed may be free now (R277). One whose team is gone stays until
its workgroup retires, whose close covers what it wrote (R205, R236). -/
def endInSlice (s : State) (id slice : Nat) : State :=
  let s := { s with sliceQueue := Tab.put s.sliceQueue slice ((Tab.get s.sliceQueue slice []).filter (· != id)) }
  match Tab.find s.matCmds id with
  | none => s
  | some c =>
    let left := c.slices.filter (· != slice)
    settleFrees (if left.isEmpty && cmdForgotten s c then { s with matCmds := Tab.erase s.matCmds id }
      else { s with matCmds := Tab.put s.matCmds id { c with slices := left } })

/-- A line a command still needs before it can run in a slice. -/
def jobAway (s : State) (c : MatCmd) (slice : Nat) : Option Nat :=
  match c.job with
  | .load _ _ e lanes => matAway s c (1024 * e) (lanes.filter (fun x => sliceOf x.1 == slice))
  | _ => none

/-- The head command of a slice hangs there. -/
def jobHangs (s : State) (i slice : Nat) (c : MatCmd) : Bool :=
  match c.job with
  | .call entry ba bb bd pg args mats => callHangs s i entry ⟨ba, bb, bd, pg, args⟩ (mats.filter (fun m => sliceOf m == slice)).length
  | _ => false

/-- The command at the head of a slice's queue. -/
def headCmd (s : State) (slice : Nat) : Option (Nat × MatCmd) :=
  match Tab.get s.sliceQueue slice [] with
  | [] => none
  | id :: _ => (Tab.find s.matCmds id).map (fun c => (id, c))

/-- A byte that a command reads or writes in a slice stands in a side log by a write that happened before its fork: its own team's, or
one that its grid was forked with (R222, R236, R245). -/
def jobLogged (s : State) (c : MatCmd) (slice : Nat) : Bool :=
  let log := forkLog s c.agent c.mark ++ ((Tab.find s.wgs c.wg).map (fun w => chainLog s w.grid)).getD []
  let hit := fun (e : Nat) (ln : Nat × Nat × Nat × Nat) => sliceOf ln.1 == slice
    && log.any (fun x => (List.range 16).any (fun j => x.covers (x.va + j) && decide (ln.2.1 ≤ x.va + j) && decide (x.va + j < ln.2.1 + 1024 * e)))
  match c.job with
  | .load _ _ e lanes => lanes.any (hit e)
  | .store _ _ e _ _ lanes => lanes.any (hit e)
  | _ => false

/-- What a command reads in a slice is made current at its homes (R240, R291). -/
def resolveJob (s : State) (c : MatCmd) (slice : Nat) : State :=
  match c.job with
  | .load row w e lanes => resolveEngine s c.asid (loadSrc (.load row w e (lanes.filter (fun x => sliceOf x.1 == slice))))
  | _ => s

/-- SEQUENCER_COMMAND: the head of a slice's queue, through all its batches; one that hangs does not end, and one that waits
for memory data or for the replay of a store stays (R286, R289, R291). -/
def execSequencerCommand (slice : Nat) (s : State) : Host.Outcome State Fault Refusal :=
  match headCmd s slice with
  | none => .next s
  | some (id, c) =>
    let i := c.handle.toNat % 16
    match jobAway s c slice with
    | some x => .next (fetchLine s c.asid x (.mat id))
    | none =>
      if jobHangs s i slice c || jobLogged s c slice then .next s
      else .next (endInSlice (matJob (resolveJob s c slice) i id slice c) id slice)

/-- The entry of a discarded CLR.RDROW: what it would write is indeterminate. -/
def looseRead (s : State) (c : MatCmd) : State :=
  match c.job, Tab.find s.agents c.agent with
  | .read token _, some a => s.setAgent c.agent { a with lahead := a.lahead.map (fun e =>
      if e.token == token then { e with taint := BitVec.allOnes 1024 } else e) }
  | _, _ => s

/-- A command is taken out of every queue with a status. -/
def discardCmd (s : State) (id code : Nat) : State :=
  match Tab.find s.matCmds id with
  | none => s
  | some c =>
    let s := recordStatus s id code ((jobMats c.job).headD 0)
    c.slices.foldl (fun s x => endInSlice s id x) (looseRead s c)

/-- CLEARING_WATCHDOG_TRIP (R289): the command is abandoned, its clearing poisoned, the rows of all its mats indeterminate, and the
clearing's other commands are discarded. -/
def execClearingWatchdogTrip (slice : Nat) (s : State) : Host.Outcome State Fault Refusal :=
  match headCmd s slice with
  | none => .next s
  | some (id, c) =>
    let i := c.handle.toNat % 16
    if !jobHangs s i slice c then .next s
    else
      let here := ((jobMats c.job).filter (fun m => sliceOf m == slice)).headD 0
      let s := recordStatus s id 0x14 here
      let s := discardCmd s id 0x14
      let s := (openCmds s c.handle.toNat).foldl (fun s j => discardCmd s j 0x0D) s
      let s := (s.setClearing i { (s.clearing i) with poison := true, mats := [], unset := some s.freeCtr }).used (512 * 36864)
      .next (logEvent s 0x40 slice c.asid ([toBytes 4 here, toBytes 4 c.handle.toNat].flatten))

end Sys2Proof.Machine
end

