-- ==== Sys2Proof/Machine/Convert.lean ====
section
/-! DEFINITION. The conversion block, 0x080 to 0x084 (R104 to R107). -/

namespace Sys2Proof.Machine

/-! ### CVT (R104, R105) -/

/-- The format of a float type code, and the width and signedness of an integer one. -/
def cvtFmt (c : Nat) : Fmt := if c = 4 then fp16 else if c = 5 then bf16 else if c = 6 then fp32 else fp64
def cvtIsInt (c : Nat) : Bool := decide (c < 4)
def cvtWidth (c : Nat) : Nat := if c = 2 || c = 3 then 64 else 32
def cvtUns (c : Nat) : Bool := c % 2 == 1

/-- Round to a float type; with S, an overflow gives the largest finite value and SAT. Two choices of the model (log entry 71):
a quiet NaN gives the canonical NaN of the destination in every float to float conversion, a widening or equal one too, where
R105 says "exact" and names only the signalling NaN; and FP16 to BF16 and BF16 to FP16, of equal width but not exact, are
rounded in the mode with the flags and S of a narrowing conversion. And one more (log entry 75): an overflow with S = 0 gives what R97
gives in the mode, which in a directed mode may be the largest finite value, where R105 says infinity. -/
def cvtToFloat (dst rm : Nat) (sat : Bool) (v : FVal) : Nat × Word :=
  let r := roundV (cvtFmt dst) rm v
  if sat && r.2 &&& flagOF != 0 then ((cvtFmt dst).maxCode v.isNeg, r.2 ||| flagSAT) else r

/-- Round to an integer type: out of range the type's end, a NaN zero, both with NV. -/
def cvtToInt (dst rm : Nat) (v : FVal) : Nat × Word :=
  let u := cvtUns dst
  let n := cvtWidth dst
  match v with
  | .nan _ => (0, flagNV)
  | .inf neg => ((clampN u n (if neg then -(2 ^ 70) else 2 ^ 70)).1, flagNV)
  | .fin neg m e =>
    let r := roundAt rm neg m (min e 70) 0
    let x : Int := if neg then -(r.1 : Int) else (r.1 : Int)
    let c := clampN u n (if 70 < e && m != 0 then (if neg then -(2 ^ 70) else 2 ^ 70) else x)
    if c.2 != 0 then (c.1, flagNV) else (c.1, flagIf r.2 flagNX)

/-- A conversion between two types (R105). -/
def cvtC (dst src rm : Nat) (sat : Bool) (x : Nat) : Nat × Word :=
  if cvtIsInt src then
    let v := intOf (cvtUns src) (cvtWidth src) x
    if cvtIsInt dst then (if sat then clampN (cvtUns dst) (cvtWidth dst) v else (wrapN (cvtWidth dst) v, 0))
    else cvtToFloat dst rm sat (intV v)
  else
    let v := decodeF (cvtFmt src) (x % 2 ^ (cvtFmt src).width)
    let nv := flagIf v.isSig flagNV
    let r := if cvtIsInt dst then cvtToInt dst rm v else cvtToFloat dst rm sat v
    (r.1, r.2 ||| nv)

def execCvt (f : FArgs) (s : State) := aluFlags (.cvt f) s f.d (cvtN (f.mod.toNat / 8)) (fun a l =>
  cvtC (f.mod.toNat / 8) (f.mod.toNat % 8) (f.b.toNat % 4) (f.b.getLsbD 2) (rdN a f.a.toNat (cvtN (f.mod.toNat % 8)) l))

/-! ### CVTQ and CVTD (R106) -/

/-- Element i of a lane's input to CVTQ: the exact product with the scale. -/
def quantInput (a : Agent) (f : FArgs) (l i : Nat) : FVal :=
  (mulV (decodeF fp32 (regGet a (f.a.toNat + i) l).toNat) (decodeF fp32 (rd1 a f.b l))).1

/-- The counter of the generator for element i of lane l (R130). -/
def quantCtr (a : Agent) (l i : Nat) : Nat := a.qctr.toNat * 2 ^ 32 + a.teamId * 2 ^ 14 + l * 16 + i

/-- A lane's codes with their statistics. -/
def quantLane (cb : List Byte) (slot : Nat) (a : Agent) (f : FArgs) (l : Nat) : List (Nat × QStat) :=
  (List.range (cvtValues (slotFmt slot))).map (fun i =>
    encodeSlot cb slot (generator (slotAddr slot) a.wgid.toNat (quantCtr a l i)) (quantInput a f l i))

/-- The flags of a lane of CVTQ: SAT for a saturated code, NV for a NaN input. A choice of the model (log entry 71): an infinite
input that is encoded as the code of the range's end sets no SAT, since R128 counts it as non-finite, not as saturated. -/
def quantFlags (cb : List Byte) (slot : Nat) (a : Agent) (f : FArgs) (l : Nat) : Word :=
  let nan := (decodeF fp32 (rd1 a f.b l)).isNan
    || (List.range (cvtValues (slotFmt slot))).any (fun i => (decodeF fp32 (regGet a (f.a.toNat + i) l).toNat).isNan)
  let sat := (quantLane cb slot a f l).any (fun c =>
    decide (0 < c.2.sat) && (slotFmt slot == 10 || c.1 == rangeEnd (slotFmt slot) false || c.1 == rangeEnd (slotFmt slot) true))
  flagIf nan flagNV ||| flagIf sat flagSAT

/-- Fold statistics into QMAX, QSATN and QNFN (R134). -/
def foldStats (a : Agent) (q : QStat) : Agent :=
  { a with qmax := if a.qmax.toNat < q.qmax then BitVec.ofNat 32 q.qmax else a.qmax
           qsatn := BitVec.ofNat 32 (min 0xFFFFFFFF (a.qsatn.toNat + q.sat))
           qnfn := BitVec.ofNat 32 (min 0xFFFF (a.qnfn.toNat + q.nf)) }

/-- The agent after a CVTQ with a known codebook. -/
def quantise (cb : List Byte) (slot : Nat) (f : FArgs) (a : Agent) : Agent :=
  let i := Instr.cvtq f
  let fm := slotFmt slot
  let ls := actLanes a i
  let a' := wrLanes a i f.d (cvtRegs fm) (fun l => packCodes (fmtWidth fm) ((quantLane cb slot a f l).map (·.1)))
  let stat := (ls.map (fun l => ((quantLane cb slot a f l).map (·.2)).foldl QStat.join QStat.zero)).foldl QStat.join QStat.zero
  let a' := { a' with fstat := a'.fstat ||| orLanes ls (quantFlags cb slot a f) }
  let a' := if slotTrl slot then foldStats a' stat else a'
  if slotRnd slot = 2 && !ls.isEmpty then { a' with qctr := a'.qctr + 1 } else a'

/-- The agent after a CVTD with a known codebook. -/
def dequantise (cb : List Byte) (slot : Nat) (f : FArgs) (a : Agent) : Agent :=
  let i := Instr.cvtd f
  let fm := slotFmt slot
  let w := fmtWidth fm
  let one := fun (l k : Nat) =>
    let v := mulV (codeValue cb fm (fieldN (rdN a f.a.toNat (cvtRegs fm) l) (w * k) w)) (decodeF fp32 (rd1 a f.b l))
    fin1 fp32 0 v
  let n := cvtValues fm
  let a' := (List.range n).foldl (fun b k =>
    wrN b (f.d.toNat + k) 1 (fun l => if actsIn a i l then some (one l k).1 else none)) a
  { a' with fstat := a'.fstat ||| orLanes (actLanes a i) (fun l => orLanes (List.range n) (fun k => (one l k).2)) }

/-- The shared course of CVTQ and CVTD: slot, register ranges, codebook, then the effect. A choice of the model (log entry 71): one
that acts in no lane still checks its slot, and with a CB4 slot reads the codebook and can trap on it; R123 has each
instruction that uses the slot read it, R25 gives one without lanes no effect. -/
def slotConvert (f : FArgs) (nd na : Nat → Nat) (go : List Byte → Nat → Agent → Agent) (s : State) (a : Agent) : Act :=
  let slot := slotOf s a.grid (f.mod.toNat % 8)
  if slotBad slot then .trap .formatSlot 0
  else if decide (a.allot < f.d.toNat + nd (slotFmt slot)) || decide (a.allot < f.a.toNat + na (slotFmt slot)) then .trap .reservedField 0
  else withRead s a (readBook s a slot) (fun s a cb => .go (s.setMe (go cb slot a)))

def execCvtq (f : FArgs) (s : State) := issue (.cvtq f) s
  (slotConvert f cvtRegs cvtValues (fun cb slot a => quantise cb slot f a))
def execCvtd (f : FArgs) (s : State) := issue (.cvtd f) s
  (slotConvert f cvtValues cvtRegs (fun cb slot a => dequantise cb slot f a))

/-! ### PACK and UNPK (R107) -/

/-- Narrow a word read as a signed or unsigned integer to w bits. -/
def narrow (u sat : Bool) (w x : Nat) : Nat × Word := if sat then clampN u w (signedN 32 x) else (x % 2 ^ w, 0)

def packC (bytes u sat : Bool) (x y d : Nat) : Nat × Word :=
  if bytes then
    let p := narrow u sat 8 x
    let q := narrow u sat 8 y
    (d % 2 ^ 16 * 2 ^ 16 + q.1 * 2 ^ 8 + p.1, p.2 ||| q.2)
  else
    let p := narrow u sat 16 x
    let q := narrow u sat 16 y
    (q.1 * 2 ^ 16 + p.1, p.2 ||| q.2)

def unpkC (bytes u : Bool) (x b : Nat) : Nat :=
  if bytes then wrapN 32 (intOf u 8 (fieldN x (8 * (b % 4)) 8)) else wrapN 32 (intOf u 16 (fieldN x (16 * (b % 2)) 16))

def execPack (f : FArgs) (s : State) := aluFlags (.pack f) s f.d 1 (fun a l =>
  packC (mb f.mod 1) (mb f.mod 0) (mb f.mod 2) (rd1 a f.a l) (rd1 a f.b l) (rd1 a f.d l))
def execUnpk (f : FArgs) (s : State) := alu (.unpk f) s f.d 1 (fun a l =>
  unpkC (mb f.mod 1) (mb f.mod 0) (rd1 a f.a l) (bVal a f 1 l))

end Sys2Proof.Machine
end

