-- ==== Sys2Proof/Machine/Area.lean ====
section
/-! DEFINITION. The context-save areas of a team and a forester context (R335 to R337), and the save pool (R334). -/

namespace Sys2Proof.Machine

/-! ### Writing an area (R335) -/

/-- The STATE code of a saved agent. -/
def stateCode : TState → Nat
  | .ready => 0 | .run => 0 | .parked => 1 | .barrier => 2 | .sleep => 3 | .faultHold => 4 | .saved => 0

/-- FLAGS of an area: REISSUE, WAKEPEND, PARKCONT, SYNCWAIT. -/
def areaFlags (a : Agent) : Nat :=
  b2n (a.savedFrom == .faultHold) + 2 * b2n a.wakePend + 4 * b2n a.parkPc.isSome + 8 * b2n a.syncWait

/-- Size of a team's area. -/
def areaSize (a : Agent) : Nat := 0x5800 + 4 * a.nlanes * a.allot

/-- The header, 0x000 to 0x08F. -/
def areaHeader (s : State) (k : Nat) (a : Agent) : List Byte :=
  let team := a.kind == .team
  [toBytes 4 0x43545853, toBytes 2 1, toBytes 1 (if team then 0 else 1), toBytes 1 (stateCode a.savedFrom),
   toBytes 4 (if team then areaSize a else 0x401000), toBytes 2 a.asid, toBytes 1 a.slot, toBytes 1 a.coreNum,
   toBytes 4 a.gridId.toNat, toBytes 4 a.teamId, toBytes 8 a.wgid.toNat, toBytes 4 (if team then a.nlanes else 0), toBytes 1 a.strand,
   toBytes 1 (if team then a.allot / 8 else 0), toBytes 1 a.role, toBytes 1 a.depth, toBytes 1 a.prio,
   toBytes 1 (2 * b2n a.ppriv + b2n a.priv), toBytes 2 (areaFlags a), toBytes 4 (cmdsOf s k),
   toBytes 8 a.pc.toNat, toBytes 8 a.trapPc.toNat, toBytes 8 a.trapAddr.toNat, toBytes 4 a.trapCause.toNat, toBytes 4 a.fstat.toNat,
   toBytes 4 a.kscr0.toNat, toBytes 4 a.kscr1.toNat, toBytes 4 a.kscr2.toNat, toBytes 4 a.kscr3.toNat,
   toBytes 4 a.qmax.toNat, toBytes 4 a.qsatn.toNat, toBytes 4 a.qnfn.toNat, toBytes 4 a.qctr.toNat,
   toBytes 8 a.sleepEnd, toBytes 4 a.refused, toBytes 4 0, toBytes 8 (a.parkPc.getD 0).toNat,
   toBytes 4 a.spilled.length, toBytes 4 a.stack.length].flatten

/-- A watch-table entry (R241), an arrival (R336), a side-log entry (R324). -/
def watchBytes (w : WatchEntry) : List Byte :=
  [toBytes 6 w.ident, toBytes 2 (w.count % 4096 + 4096 + 8192 * b2n w.settled), toBytes 8 w.sig.toNat].flatten
def arrivalBytes (e : Nat × Nat) : List Byte := [toBytes 8 e.1, toBytes 4 e.2, toBytes 4 1].flatten
def sideBytesOf (e : SideEntry) : List Byte :=
  [toBytes 8 e.va, toBytes 2 e.mask, toBytes 1 (if e.red then 2 else 1), toBytes 1 e.ctrl, toBytes 1 e.ord, toBytes 1 e.slot,
   toBytes 2 e.seq, toBytes 16 e.data].flatten

/-- A string of bytes filled with zeros to a length. -/
def padTo (n : Nat) (bs : List Byte) : List Byte := bs ++ List.replicate (n - bs.length) 0

/-- The uniform registers, s62 and s63 as they read (R335). -/
def sBytes (a : Agent) : List Byte := ((List.range 64).map (fun n => toBytes 4 (sGet a n).toNat)).flatten

def arrivalArea (a : Agent) : List Byte := padTo 64 ((a.arrivals.map arrivalBytes).flatten)

/-- A lookahead entry, and the lookahead part of an area (R336). -/
def lookBytes (e : LAEntry) : List Byte :=
  [toBytes 2 e.token, toBytes 1 e.dest.toNat, toBytes 1 e.nreg, toBytes 1 e.remain, toBytes 1 (b2n e.done + 2 * b2n e.err.isSome),
   toBytes 2 0, toBytes 8 ((e.err.map (·.2)).getD 0)].flatten
def lookArea (la : List LAEntry) : List Byte := padTo 16 (toBytes 4 la.length) ++ (la.map lookBytes).flatten

/-- The whole area of a team, with the outstanding instructions that it records (R335). -/
def teamArea (s : State) (k : Nat) (a : Agent) (la : List LAEntry) : List Byte :=
  let side := sideEntries s k
  let regs := ((List.range a.allot).map (fun r => ((List.range a.nlanes).map (fun l => toBytes 4 (vGet a r l).toNat)).flatten)).flatten
  let watch := padTo 256 ((a.watch.map watchBytes).flatten)
  [areaHeader s k a, sBytes a, padTo 144 (toBytes 128 a.mask.toNat ++ toBytes 4 (summaryOf a.mask)),
   padTo 4480 ((a.stack.reverse.map entryBytes).flatten), padTo 272 (watch ++ toBytes 8 a.overflow.toNat), arrivalArea a,
   padTo 528 (lookArea la), padTo 16640 (padTo 16 (toBytes 4 side.length) ++ (side.map sideBytesOf).flatten), regs].flatten

/-- A queue entry of a forester context (R337). A choice of the model (log entry 71): where the instruction has no operand in one of
the six registers, the bytes are zero. -/
def queueBytes (e : MxEntry) : List Byte :=
  let ops := match e.op with
    | .mxZero _ | .mxScale _ => [e.ops.getD 0 0, 0, e.ops.getD 1 0, 0, 0, 0]
    | _ => (List.range 6).map (fun j => e.ops.getD j 0)
  let groups := (List.range 8).map (fun c => toBytes 2 (if bitN e.cmask c then e.next else 0))
  [padTo 16 (wordBytes (encode e.op)), (ops.map (fun w => toBytes 4 w.toNat)).flatten, toBytes 4 e.ticket.toNat, toBytes 1 (b2n e.running),
   [0], groups.flatten, [0, 0]].flatten

/-- The area of a forester context up to its tiles (R337). -/
def foresterArea (s : State) (k : Nat) (a : Agent) : List Byte :=
  let head := [toBytes 1 a.bound, [0, 0, 0], toBytes 4 a.ticket.toNat, toBytes 4 a.mxq.length, [0, 0, 0, 0]].flatten
  [areaHeader s k a, sBytes a, head, arrivalArea a, padTo 544 (lookArea a.lahead), padTo 1024 ((a.mxq.map queueBytes).flatten),
   List.replicate 2048 0].flatten

/-- The eight tiles of an array, as an area holds them. -/
def tileBytes (t : Tab Word) : List Byte := ((List.range 131072).map (fun j => toBytes 4 (Tab.get t j 0).toNat)).flatten

/-- What a pre-emption writes into the save pool for an agent that it has saved: the parts of its area, with their offsets (R334,
R335, R337). -/
def savedArea (s : State) (k : Nat) : List (Nat × List Byte) :=
  let a := s.agent k
  let done := (a.lahead.filter (·.done)).foldl (fun s e => writeEntry s k e) s
  let a := { a with sregs := (done.agent k).sregs, vregs := (done.agent k).vregs }
  if a.kind == .team then [(0, teamArea s k a a.lahead)]
  else (0, foresterArea s k a) :: a.heldTiles.map (fun e => (0x1000 + 0x80000 * e.1, tileBytes e.2))

/-- The save pool takes the area of an agent that has been saved away from its core, as it now is (R334). -/
def poolSave (s : State) (k : Nat) : State :=
  if (s.agent k).away then { s with savePool := Tab.put s.savePool k (savedArea s k) } else s

end Sys2Proof.Machine
end

