-- ==== Sys2Proof/Machine/Faults.lean ====
section
/-! DEFINITION. The end of a long-latency instruction (R39, R41, R195), fault records and the answers to them (R320 to R323,
R326, R327), and the replay of the side log (R324, R325). -/

namespace Sys2Proof.Machine

/-! ### Long-latency results (R38 to R43, R71, R195) -/

/-- A result has not come: a request is unanswered, an access waits at its tile, or a mat command runs. -/
def entryOpen (s : State) (k : Nat) (e : LAEntry) : Bool :=
  let tile := fun (x : TileAccess) => x.agent == k && x.token == e.token
  !e.tags.isEmpty || s.cores.any (fun c => c.2.tileQueue.any tile) || (s.agent k).heldAccess.any tile
    || s.matCmds.any (fun m => m.2.agent == k && !m.2.slices.isEmpty
      && (match m.2.job with | .read t _ => t == e.token | _ => false))

/-- A result that a parked agent waited for has come (R22, R41). -/
def unpark (e : LAEntry) (a : Agent) : Agent :=
  if a.counted || !((blocking a).isEmpty || e.atTrap != 0) then a
  else if a.state == .parked then { a with state := .ready }
  else if a.state == .saved && a.savedFrom == .parked then { a with savedFrom := .ready }
  else a

/-- An entry's result has come within its window: it sets its flags, its token is free, and it is written when the window ends (R39, R40,
R42, R85). -/
def earlyResult (s : State) (k : Nat) (e : LAEntry) : State :=
  s.modAgent k (fun a => { a with
    fstat := a.fstat ||| e.flagBits
    lahead := a.lahead.map (fun x => if x.token == e.token then { x with done := true, flags := [] } else x) })

/-- An entry's result has come. Where its window has ended, it is written, and the entry leaves, unless an error of it has still to be
reported (R195), or its agent is saved, which records it as done (R334). -/
def completeEntry (s : State) (k : Nat) (e : LAEntry) : State :=
  if e.remain != 0 then earlyResult s k e else
  let s := writeEntry s k e
  let a := s.agent k
  let left := if e.err.isNone && a.state != .saved then a.lahead.filter (fun x => x.token != e.token)
    else a.lahead.map (fun x => if x.token == e.token then { x with done := true } else x)
  s.setAgent k (unpark e { a with lahead := left })

/-- LONG_LATENCY_COMPLETION of an agent's entry of a token; that of a saved agent enters its image too (R334). None while its die's clock
stands still (R356). -/
def execLongLatencyCompletion (k token : Nat) (s : State) : Host.Outcome State Fault Refusal :=
  match (s.agent k).lahead.find? (fun e => e.token == token && !e.done) with
  | none => .next s
  | some e => if entryOpen s k e || dieStopped s (s.agent k).die then .next s else .next (poolSave (completeEntry s k e) k)

/-! ### Posting (R321, R322) -/

/-- Fields of an ASID entry that the fault queue uses (R314). -/
def fqBase (s : State) (asid : Nat) : Nat := sliceN (asidEntry s asid) 16 8
def fqSem (s : State) (asid : Nat) : Nat := sliceN (asidEntry s asid) 24 8
def fqCtl (s : State) (asid : Nat) : Nat := sliceN (asidEntry s asid) 32 4
/-- FQTAIL stands in memory, where the device writes it. -/
def fqTailAddr (s : State) (asid : Nat) : Nat := s.asidtab.toNat + 64 * asid + 36
def fqTail (s : State) (asid : Nat) : Nat := s.mem.readNat (fqTailAddr s asid) 4
def fqIndex (s : State) (asid : Nat) : Nat := fqTail s asid % 2 ^ fieldN (fqCtl s asid) 11 5

/-- The 64 bytes of a record (R321). -/
def recordBytes (r : FaultRec) (index seq : Nat) : List Byte :=
  let flags := b2n r.malf + 2 * b2n (r.whom == .info) + 4 * b2n r.user
  [toBytes 8 r.va, toBytes 1 (causeCode r.cause), toBytes 1 r.access, toBytes 2 flags, toBytes 2 r.source, toBytes 1 r.slot,
   toBytes 1 0, toBytes 4 r.gridId.toNat, toBytes 2 r.asid, toBytes 2 index, toBytes 8 r.wgid.toNat, toBytes 8 r.cursor,
   toBytes 4 r.ring, toBytes 4 seq, toBytes 16 0].flatten

/-- Replace the first record that meets a test. -/
def mapFirst (p : FaultRec → Bool) (f : FaultRec → FaultRec) : List FaultRec → List FaultRec
  | [] => []
  | r :: rs => if p r then f r :: rs else r :: mapFirst p f rs

/-- The front end writes bytes of the device at local physical addresses, for an address space (R348). -/
def physWrite (s : State) (asid pa : Nat) (bs : List Byte) : State :=
  placeFrom s 16 0xFFFFFFFF asid (bs.zipIdx.map (fun e => (s.device * 2 ^ 40 + pa + e.2, e.1)))

/-- A pending record is written, FQTAIL advances, FQSEM counts, and VECTOR is raised when IRQ is set. -/
def postRecord (s : State) (r : FaultRec) : State :=
  let index := fqIndex s r.asid
  let seq := fqTail s r.asid
  let ctl := fqCtl s r.asid
  let sem := fqSem s r.asid
  let s := { s with faults := mapFirst (· == r) (fun x => { x with posted := some index }) s.faults }
  let s := physWrite s r.asid (fqBase s r.asid + 64 * index) (recordBytes r index seq)
  let s := physWrite s r.asid (fqTailAddr s r.asid) (toBytes 4 (seq + 1))
  let loc := s.device * 2 ^ 40 + sem
  let s := if sem = 0 then s else (strongAt (flushAll s r.asid loc) 0xFFFFFFFF r.asid loc 8 (fun m => some ((m + 1) % 2 ^ 64))).s
  if bitN ctl 30 then raiseMsix s (fieldN ctl 0 11) else s

/-- A fault that has found its position taken is counted, once (R322, R396). -/
def countFull (s : State) (r : FaultRec) : State :=
  let n := min 0xFFFF (s.fqCount + 1)
  let s := { s with faults := mapFirst (· == r) (fun x => { x with overflowed := true }) s.faults, fqSticky := true, fqCount := n }
  logEvent s 0x50 r.source r.asid [toBytes 8 r.va, toBytes 1 (causeCode r.cause), toBytes 1 0, toBytes 2 n].flatten

/-! ### Answers (R323) -/

/-- An address lies on a page of an agent, as the pages now are (R324; log entry 41). -/
def onPage (s : State) (a : Agent) (page va : Nat) : Bool := pageBase s a va == page

/-- A team's access is discarded with the entries of its page; its cause is taken later, or at once by a load that holds on
those bytes (R323). -/
def rejectSide (s : State) (k : Nat) (c : Cause) (va : Nat) : State :=
  let a := s.agent k
  let gone := fun (e : SideEntry) => e.agent == k && onPage s a (pageBase s a va) e.va
  let holds := match a.hold with
    | .sideLoad xs => (sideEntries s k).any (fun e => gone e && xs.any e.covers)
    | _ => false
  let s := s.setCore a.core { (s.core a.core) with sideLog := (s.core a.core).sideLog.filter (fun e => !gone e) }
  let s := s.setAgent k { a with heldLog := a.heldLog.filter (fun e => !gone e) }
  let s := if (Tab.find s.agents k).isNone then s
    else if holds then takeTrap (s.setAgent k (reissue (s.agent k))) k c va
    else s.setAgent k { (s.agent k) with reports := (s.agent k).reports ++ [(c, va)] }
  releaseSide s

/-- A queue loses EN, and with it the commands not yet taken up (R294, R295). -/
def stopQueue (s : State) (q : Nat) : State :=
  let x := Tab.get s.queues q Queue.reset
  { s with queues := Tab.put s.queues q { x with ctl := x.ctl &&& 0x7FFFFFFF, blocked := false } }

/-- A copy whose fault is not served ends: its grid is aborted, or its command completes with STATUS 4. -/
def endCopyFault (s : State) (id : Nat) : State :=
  match Tab.find s.copies id with
  | none => s
  | some c => match c.cmd with
    | some q => completeCmd { s with copies := Tab.erase s.copies id } q 4
    | none => abortGrid s c.grid

def answerRetry (s : State) (r : FaultRec) : State :=
  match r.whom with
  | .hold k => if (Tab.find s.agents k).isSome then s.setAgent k (reissue (s.agent k)) else s
  | .side _ _ _ => s
  | .copy id => match Tab.find s.copies id with
    | none => s
    | some c => { s with copies := Tab.put s.copies id { c with suspended := false } }
  | .queue q => { s with queues := Tab.put s.queues q { (Tab.get s.queues q Queue.reset) with blocked := false } }
  | .info => s

def answerReject (s : State) (r : FaultRec) : State :=
  match r.whom with
  | .hold k => if (Tab.find s.agents k).isSome then settleFrees (takeTrap (s.setAgent k (reissue (s.agent k))) k r.cause r.va) else s
  | .side _ k va => rejectSide s k r.cause va
  | .copy id => endCopyFault s id
  | .queue q => stopQueue s q
  | .info => s

def answerAbort (s : State) (r : FaultRec) : State :=
  match r.whom with
  | .hold k => abortGrid s (s.agent k).grid
  | .side _ k _ => abortGrid s (s.agent k).grid
  | .copy id => endCopyFault s id
  | .queue q => stopQueue s q
  | .info => s

/-- The posted, unanswered record at a position of an address space's queue. -/
def recordAt (s : State) (asid index : Nat) : Option FaultRec :=
  s.faults.find? (fun r => r.asid == asid && r.posted == some index)

/-- An answer frees the record's position and acts (R323). -/
def answered (s : State) (asid index : Nat) (act : State → FaultRec → State) : State :=
  match recordAt s asid index with
  | none => s
  | some r => act { s with faults := s.faults.erase r } r

def execFaultrespRetry (asid index : Nat) (s : State) : Host.Outcome State Fault Refusal := .next (answered s asid index answerRetry)
def execFaultrespReject (asid index : Nat) (s : State) : Host.Outcome State Fault Refusal := .next (answered s asid index answerReject)
def execFaultrespAbort (asid index : Nat) (s : State) : Host.Outcome State Fault Refusal := .next (answered s asid index answerAbort)

/-- A write of FAULTRESP (R323). -/
def writeFaultresp (s : State) (v : Nat) : State :=
  let asid := fieldN v 0 13
  let index := fieldN v 16 14
  match fieldN v 30 2 with
  | 0 => answered s asid index answerRetry
  | 1 => answered s asid index answerReject
  | 2 => answered s asid index answerAbort
  | _ => s

/-- FAULT_RECORD_POST: the oldest pending fault of an address space is posted when its position is free; else one that has
just found it taken is counted. With no fault queue in force it is answered as by REJECT. -/
def execFaultRecordPost (asid : Nat) (s : State) : Host.Outcome State Fault Refusal :=
  let waits := s.faults.filter (fun r => r.asid == asid && r.posted.isNone)
  match waits with
  | [] => .next s
  | r :: _ =>
    if !queueInForce s asid then .next (answerReject { s with faults := s.faults.erase r } r)
    else if (recordAt s asid (fqIndex s asid)).isNone then .next (postRecord s r)
    else match waits.find? (fun x => !x.overflowed) with
      | none => .next s
      | some x => .next (countFull s x)

/-- FQOVF as it reads, and its write (R322). -/
def readFqovf (s : State) : Nat := 2 ^ 31 * b2n s.fqSticky + s.fqCount
def clearFqovf (s : State) : State := { s with fqSticky := false, fqCount := 0 }

def execFqovfClear (s : State) : Host.Outcome State Fault Refusal := .next (clearFqovf s)

/-! ### Replay (R325) -/

/-- Bytes over those of a table. -/
def putCells (t : Tab Byte) (cells : List Host.Cell) : Tab Byte := cells.foldl (fun t x => Tab.put t x.1 x.2) t

/-- Replayed bytes take the place of the store: in the oldest close that covers it and has not completed; where only a close at
`.t` covers it, among those it keeps; else among the unclosed stores. They keep the store's place among its agent's writes (R222, R237,
R245). -/
def replayInto (e : SideEntry) (cells : List Host.Cell) (a : Agent) : Agent :=
  let a := { a with seen := a.seen.filter (fun x => !(cells.any (fun c => c.1 == x.1))) }
  match a.closes.find? (fun c => decide (e.seq < c.mark)) with
  | some c =>
    let c' := { c with bytes := putCells c.bytes cells }
    { a with closes := a.closes.map (fun x => if x == c then c' else x) }
  | none =>
    let mine := cells.filter (fun (c : Host.Cell) => decide (Tab.get a.storeAt c.1 0 ≤ e.num))
    let a := { a with storeAt := mine.foldl (fun t (c : Host.Cell) => Tab.put t c.1 e.num) a.storeAt }
    if e.seq < a.keptSeq then { a with kept := putCells a.kept mine } else { a with stores := putCells a.stores mine }

/-- A grid was forked, by itself or by an ancestor of it, after an agent had made an entry in the side log (R119, R236). -/
def forkedAfter (s : State) (k seq g : Nat) : Bool := (forkChain s 12 g).any (fun e => e.1 == k && decide (seq < e.2))

/-- Copies, mat commands and grids that an agent, or a team of a grid that descends from it, issued after a store see its replayed bytes by
their fork (R119, R236). -/
def replayViews (s : State) (k seq : Nat) (cells : List Host.Cell) : State :=
  let sees := fun (j mark g : Nat) => (j == k && decide (seq < mark)) || forkedAfter s k seq g
  let gridOf := fun (w : Nat) => ((Tab.find s.wgs w).map Wg.grid).getD s.nextOrder
  { s with
    copies := s.copies.map (fun e => (e.1, if sees e.2.agent e.2.mark e.2.grid then { e.2 with view := putCells e.2.view cells } else e.2))
    matCmds := s.matCmds.map (fun e => (e.1, if sees e.2.agent e.2.mark (gridOf e.2.wg) then { e.2 with view := putCells e.2.view cells } else e.2))
    grids := s.grids.map (fun e => (e.1, if forkedAfter s k seq e.1 then { e.2 with view := putCells e.2.view cells } else e.2)) }

/-- The bytes of a side-logged store at addresses and their locations are performed (R325). -/
def replayStore (s : State) (k : Nat) (e : SideEntry) (xs : List (Nat × Nat)) : State :=
  let cells := xs.map (fun x => (x.2, BitVec.ofNat 8 (e.data / 2 ^ (8 * (x.1 - e.va)))))
  let a := spoilOwn (replayInto e cells (s.agent k)) (xs.map (·.1))
  let a := { a with lineVa := xs.foldl (fun t x => Tab.put t (lineOf x.2) (x.1 - x.2 % 128)) a.lineVa }
  softwareWroteAt (replayViews (s.setAgent k a) k e.seq cells) k e.code (xs.map (·.2))

/-- One entry is translated again and performed as its instruction would have been. -/
def replayEntry (s : State) (k : Nat) (e : SideEntry) : Except (Nat × Miss) State :=
  let a := s.agent k
  if e.red then
    match xlate s a.unit a.asid e.va .update e.user with
    | .error m => .error (e.va, m)
    | .ok loc => .ok { s with posted := Tab.put s.posted (nextKey s.posted) ⟨k, a.asid, e.num, .red e.ctrl e.ord loc e.va e.data⟩ }
  else
    let vas := ((List.range 16).filter (bitN e.mask)).map (e.va + ·)
    match vas.foldr (fun va r => match xlate s a.unit a.asid va .write e.user with
        | .error m => .error (va, m)
        | .ok x => r.map ((va, x) :: ·)) (Except.ok []) with
    | .error m => .error m
    | .ok xs => .ok (replayStore s k e xs)

/-- An entry leaves its core's log. -/
def dropEntry (s : State) (k : Nat) (e : SideEntry) : State :=
  let c := (s.agent k).core
  s.setCore c { (s.core c) with sideLog := (s.core c).sideLog.filter (fun x => x != e) }

/-- Entries replay in order until one fails again, which posts a new record or, with no queue in force, is rejected. -/
def replayAll (s : State) (k : Nat) : List SideEntry → State
  | [] => s
  | e :: es =>
    match replayEntry s k e with
    | .ok t => replayAll (dropEntry t k e) k es
    | .error (va, m) =>
      let a := s.agent k
      if queueInForce s a.asid then
        addFault s { faultRec a m va (if e.red then 3 else 1) (.side a.core k va) with user := e.user }
      else rejectSide s k m.cause va

/-- A record of an agent's page still waits for its answer. -/
def pageWaits (s : State) (k page : Nat) : Bool :=
  s.faults.any (fun r => match r.whom with | .side _ j va => j == k && onPage s (s.agent k) page va | _ => false)

/-- SIDE_LOG_REPLAY: after a RETRY, the page's entries of a team that is on its core, in SEQ order. -/
def execSideLogReplay (k page : Nat) (s : State) : Host.Outcome State Fault Refusal :=
  let es := (s.core (s.agent k).core).sideLog.filter (fun e => e.agent == k && onPage s (s.agent k) page e.va)
  if es.isEmpty || pageWaits s k page then .next s else .next (releaseSide (replayAll s k es))

end Sys2Proof.Machine
end

