-- ==== Sys2Proof/Machine/Context.lean ====
section
/-! DEFINITION. The use of a team's context-save area by CTXSV and CTXLD (R338), and how a saved agent takes up its recorded state again (R22, R23, R334). -/

namespace Sys2Proof.Machine

/-! ### Reading an area back (R338) -/

/-- A mask-stack entry from its 280 bytes (R31). A choice of the model (log entry 71): kind 3, which R31 does not list, is a
`LOOP`. -/
def entryOfBytes (a : Agent) (b : List Byte) : MaskEntry :=
  { outer := BitVec.ofNat 1024 (sliceN b 0 128) &&& teamLanes a, alt := BitVec.ofNat 1024 (sliceN b 132 128) &&& teamLanes a
    kind := (match sliceN b 264 4 % 4 with | 0 => .ifArm | 1 => .elseArm | _ => .loop)
    addr := BitVec.ofNat 64 (sliceN b 272 8 % 2 ^ 50), spoilt := false }

/-- The spilled entries a team has after a reload: those it had, fewer, or more that software has written to the stack
area. -/
def spilledAfter (a : Agent) (n : Nat) (extra : Nat → MaskEntry) : List MaskEntry :=
  let had := a.spilled.length
  if n ≤ had then a.spilled.drop (had - n) else ((List.range (n - had)).map (fun i => extra (had + i))).reverse ++ a.spilled

/-- What software may change: the pc, the registers, the mask and its stack, the trap, status and scratch fields. -/
def loadAllowed (t : Agent) (b : List Byte) (extra : Nat → MaskEntry) : Agent :=
  let w := fun o => BitVec.ofNat 32 (sliceN b o 4)
  let hw := min 16 (sliceN b 0x8C 4)
  { t with
    pc := BitVec.ofNat 64 (sliceN b 0x30 8), trapPc := BitVec.ofNat 64 (sliceN b 0x38 8), trapAddr := BitVec.ofNat 64 (sliceN b 0x40 8)
    trapCause := w 0x48 &&& 0xFF, fstat := w 0x4C &&& 0x3F, kscr0 := w 0x50, kscr1 := w 0x54, kscr2 := w 0x58, kscr3 := w 0x5C
    qmax := w 0x60, qsatn := w 0x64, qnfn := w 0x68 &&& 0xFFFF, qctr := w 0x6C
    sregs := (List.range 62).map (fun n => (n, w (0x90 + 4 * n)))
    mask := BitVec.ofNat 1024 (sliceN b 0x190 128) &&& teamLanes t
    stack := ((List.range hw).map (fun i => entryOfBytes t (b.drop (0x220 + 280 * i)))).reverse
    spilled := spilledAfter t (sliceN b 0x88 4) extra
    vregs := (List.range t.allot).map (fun r => (r, (List.range t.nlanes).map (fun l => w (0x5800 + 4 * (t.nlanes * r + l))))) }

/-- Whether n bytes from an offset on differ from those that were written. -/
def moved (t : Agent) (b : List Byte) (o n : Nat) : Bool := sliceN b o n != sliceN t.area o n

/-- An outstanding instruction, and a side-log entry, of indeterminate contents. -/
def freeLook (s : State) (t : Agent) (i : Nat) : LAEntry :=
  let w := fun j => s.free (100 + 8 * i + j)
  { token := w 0 % 2 ^ 16, parks := true, mem := true, dest := BitVec.ofNat 8 (w 1), nreg := w 2 % 5, remain := w 3 % 16
    done := bitN (w 4) 0, lanes := teamLanes t, taint := teamLanes t, values := [], sext := 0, srcs := [], flags := []
    err := if bitN (w 4) 1 then some (.memUncorrectable, w 5) else none, atTrap := 0, phase := t.phase, num := t.order, tags := [], sites := [] }
def freeSide (s : State) (k : Nat) (t : Agent) (i : Nat) : SideEntry :=
  let w := fun j => s.free (512 + 8 * i + j)
  { agent := k, va := w 0 % 2 ^ 50, mask := w 1 % 2 ^ 16, red := bitN (w 2) 0, ctrl := w 2 / 2 % 256, ord := w 2 / 512 % 16, slot := t.slot
    seq := w 3 % 2 ^ 16, data := w 4 + 2 ^ 64 * w 5, user := true, num := t.order, code := s.codeSeq }

/-- What software must not change, in the agent: each such field that differs from what was written is indeterminate. -/
def loadForbidden (s : State) (b : List Byte) (t : Agent) : Agent :=
  let chg := moved t b
  let bit := fun k => bitN (s.free k) 0
  let u := if chg 0x2A 2 then { t with wakePend := bit 0, syncWait := bit 1, parkPc := if bit 2 then some (Config.freeValue (s.freeCtr + 3)) else none } else t
  let u := if chg 0x2C 4 then { u with matLoose := s.free 15 % 2 ^ 32 } else u
  let u := if chg 0x70 8 then { u with sleepEnd := s.free 4 } else u
  let u := if chg 0x78 4 then { u with refused := s.free 5 % 2 ^ 32 } else u
  let u := if chg 0x80 8 && u.parkPc.isSome then { u with parkPc := some (Config.freeValue (s.freeCtr + 6)) } else u
  let u := if chg 0x13A0 256 then
      { u with watch := (List.range (s.free 17 % 17)).map (fun i =>
          ⟨s.free (18 + 3 * i) % 2 ^ 48, s.free (19 + 3 * i) % 4096, bitN (s.free (19 + 3 * i)) 12, Config.freeValue (s.freeCtr + 20 + 3 * i)⟩) }
    else u
  let u := if chg 0x14A0 8 then { u with overflow := Config.freeValue (s.freeCtr + 16) } else u
  let u := if chg 0x14B0 64 then { u with arrivals := (List.range (s.free 70 % 5)).map (fun i => (s.free (7 + 2 * i), s.free (8 + 2 * i) % 2 ^ 32)) } else u
  if chg 0x14F0 528 then { u with lahead := (List.range (s.free 71 % 33)).map (freeLook s t) } else u

/-- The same of its entries in the side log, of which it keeps no more room than it had. -/
def loadSide (s : State) (b : List Byte) (k : Nat) (t : Agent) : State :=
  if !moved t b 0x1700 16640 then s
  else
    let c := s.core t.core
    let mine := c.sideLog.filter (fun e => e.agent == k)
    s.setCore t.core { c with sideLog := c.sideLog.filter (fun e => e.agent != k) ++ (List.range (s.free 72 % (mine.length + 1))).map (freeSide s k t) }

/-- An agent leaves SAVED: a held access is issued again, a sleep whose wake has come or whose limit has passed is over, and
any other state is the recorded one (R22, R23, R334). Its earlier fault record waits for nothing any more. -/
def leaveSaved (s : State) (k : Nat) (ends : Bool) : State :=
  let a := s.agent k
  let back : TState := if a.savedFrom == .faultHold then .ready else a.savedFrom
  let a := { a with state := back, savedFrom := .ready, inPlace := false, away := false, area := []
                    lahead := a.lahead.filter (fun e => e.live || e.err.isSome), hold := if a.savedFrom == .faultHold then .none else a.hold }
  let s := { s.setAgent k a with faults := s.faults.map (fun f => if f.whom == .hold k then { f with whom := .info } else f) }
  if back == .sleep && (a.wakePend || ends) then
    openPhase (s.setAgent k { a with state := .ready, sleepEnd := 0, wakePend := false }) k 2
  else s

/-! ### CTXSV and CTXLD -/

/-- The team in a slot of a core. -/
def teamAt (s : State) (core slot : Nat) : Option Nat :=
  (s.agentsWhere (fun _ a => a.kind == .team && a.core == core && a.slot == slot && !a.away)).head?

/-- An agent is between instructions, or in one that it will issue again (R334). -/
def atBoundary (a : Agent) : Bool :=
  match a.hold with
  | .none | .sideLoad _ | .sideRoom _ | .sidePage _ | .barrier _ => true
  | _ => false

/-- The target of CTXSV may be saved now: a boundary, with every outstanding instruction completed (R338). -/
def mayCtxsv (a : Agent) : Bool := atBoundary a && a.lahead.all (·.done)

/-- What has completed in a window is written, and the window is over: the area has LACOUNT 0 (R338). -/
def writeDone (s : State) (k : Nat) : State :=
  let la := (s.agent k).lahead.filter (fun e => e.done && e.err.isNone)
  la.foldl (fun s e => writeEntry s k e) (s.modAgent k (fun a => { a with lahead := a.lahead.filter (fun e => !la.contains e) }))

/-- The checks of both instructions: the slot, then the address (R338). -/
def withArea (a : Agent) (f : FArgs) (go : Nat → Nat → Act) : Act :=
  let slot := rd1 a f.b 0
  let addr := rdN a f.a.toNat 2 0
  if 15 < slot || slot = a.slot then .trap .reservedField 0
  else if addr % 256 ≠ 0 then .trap .misaligned addr
  else go slot addr

/-- The status register of CTXSV and CTXLD. -/
def ctxStatus (s : State) (f : FArgs) (n : Nat) : Act := .go (s.setMe (wrN { s.me with hold := .none } f.d.toNat 1 (fun _ => some n)))

/-- A CTXSV of another team of the core waits for an agent, which stands at an instruction boundary: it issues nothing more (R338). -/
def awaitedAt (s : State) (a : Agent) : Bool :=
  a.kind == .team && atBoundary a && s.agents.any (fun e => e.2.kind == .team && e.2.core == a.core && !e.2.away && e.2.slot != a.slot
    && e.2.hold == .saveOther a.slot)

def execCtxsv (f : FArgs) (s : State) := issue (.ctxsv f) s (fun s a =>
  if !guardOn a (.ctxsv f) then .go s
  else withArea a f (fun slot addr =>
    match teamAt s a.core slot with
    | none => ctxStatus s f 1
    | some k =>
      let t := s.agent k
      if t.state == .saved then ctxStatus s f 1
      else if !mayCtxsv t then .wait (s.setMe { a with hold := .saveOther slot })
      else
        let s := writeDone s k
        let t : Agent := { s.agent k with state := .saved, savedFrom := t.state, inPlace := true }
        let bytes := teamArea s k t []
        match xlateRange s a.unit a.asid addr bytes.length .write (!a.priv) with
        | .error (x, m) => .trap m.cause x
        | .ok locs =>
          afterReds s locs (fun s =>
            let s := performStore s s.me ((locs.zip bytes).zipIdx.map (fun e => (addr + e.2, e.1.1, e.1.2)))
            ctxStatus (s.setAgent k { t with area := bytes.take 0x5800 }) f 0)))

/-- A spilled entry as the stack area of a team holds it. -/
def spilledEntry (s : State) (a t : Agent) (n : Nat) : MaskEntry :=
  match readAtIssue s a (t.stackBase + 280 * n) 280 with
  | .ok (b, _) => entryOfBytes t b
  | .error _ => { outer := 0, alt := 0, kind := .loop, addr := 0, spoilt := true }

/-- A reload into the team that CTXSV saved. With a changed PC it no longer waits for what the instruction there waited for (log
entry 52). -/
def reloadTeam (s : State) (a : Agent) (k : Nat) (t : Agent) (b : List Byte) : State :=
  let u := loadForbidden s b (loadAllowed t b (spilledEntry s a t))
  let u := if u.pc = t.pc || t.savedFrom == .sleep then u
    else { u with savedFrom := .ready, hold := .none, counted := false, waiting := false, parkPc := none, ringOn := none, ringGot := none }
  leaveSaved (((loadSide s b k t).setAgent k u).used 8192) k (u.sleepEnd != 0 && decide (u.sleepEnd ≤ s.reftime))

def execCtxld (f : FArgs) (s : State) := issue (.ctxld f) s (fun s a =>
  if !guardOn a (.ctxld f) then .go s
  else withArea a f (fun slot addr =>
    match teamAt s a.core slot with
    | none => ctxStatus s f 1
    | some k =>
      let t := s.agent k
      if t.state != .saved then ctxStatus s f 1
      else withRead s a (readAtIssue s a addr (areaSize t)) (fun s a b =>
        let s := s.setMe a
        if b.take 42 != t.area.take 42 then ctxStatus s f 2 else ctxStatus (reloadTeam s a k t b) f 0)))

end Sys2Proof.Machine
end

