-- ==== Sys2Proof/Machine/Queues.lean ====
section
/-! DEFINITION. The command queues and the launch front end (R294 to R297, R300, R301): registers, take-up, and the commands
that are not of the topology. -/

namespace Sys2Proof.Machine

/-! ### Queue registers (R294); before STAGE reads 15 no write of one has an effect (R391) -/

def State.queue (s : State) (q : Nat) : Queue := Tab.get s.queues q Queue.reset
def State.setQueue (s : State) (q : Nat) (x : Queue) : State := { s with queues := Tab.put s.queues q x }

def Queue.en (x : Queue) : Bool := x.ctl.getLsbD 31
def Queue.loc (x : Queue) : Bool := x.ctl.getLsbD 30
def Queue.log2n (x : Queue) : Nat := fieldN x.ctl.toNat 16 5
def Queue.prio (x : Queue) : Nat := fieldN x.ctl.toNat 14 2
def Queue.asid (x : Queue) : Nat := fieldN x.ctl.toNat 0 13
/-- The bits of QCTL that are not reserved. -/
def qctlMask : Word := 0xC01FDFFF

/-- A record of a queue's take-up waits for nothing once the queue is off. -/
def forgetQueue (s : State) (q : Nat) : State :=
  let free := fun (f : FaultRec) => if f.whom == .queue q then { f with whom := .info } else f
  { s with faults := (s.faults.filter (fun f => f.posted.isSome || f.whom != .queue q)).map free }

/-- A write of QCTL that sets EN: HEAD and TAIL are zero; a LOG2N out of range keeps EN at 0; no effect while EN is 1. -/
def enableQueue (s : State) (q : Nat) (v : Word) : State :=
  let x := s.queue q
  let v := (v &&& qctlMask) ||| 0x80000000
  let n := fieldN v.toNat 16 5
  if x.en || decide (256 ≤ q) || s.bootStage != 15 then s
  else if 4 ≤ n && n ≤ 16 then s.setQueue q { x with ctl := v, head := 0, tail := 0, blocked := false }
  else s.setQueue q { x with ctl := v &&& 0x7FFFFFFF }

/-- A write of QCTL that leaves EN clear, dropping the commands not yet taken up. -/
def disableQueue (s : State) (q : Nat) (v : Word) : State :=
  if 256 ≤ q || s.bootStage != 15 then s
  else (forgetQueue s q).setQueue q { (s.queue q) with ctl := v &&& qctlMask &&& 0x7FFFFFFF, blocked := false }

def execQctlEnable (q : Nat) (v : Word) (s : State) : Host.Outcome State Fault Refusal := .next (enableQueue s q v)
def execQctlDisable (q : Nat) (v : Word) (s : State) : Host.Outcome State Fault Refusal := .next (disableQueue s q v)

/-- A write of QTAIL. -/
def writeQtail (s : State) (q : Nat) (v : Nat) : State :=
  let x := s.queue q
  if 256 ≤ q || s.bootStage != 15 || 2 ^ x.log2n ≤ v % 2 ^ 16 then s else s.setQueue q { x with tail := v % 2 ^ 16 }

/-- The owner of a queue reaches another at the same place: a virtual function's two queues of one position (R389). -/
def samePlace (s : State) (q p : Nat) : Bool :=
  p == q || ((s.queue q).func != 0 && (s.queue p).func == (s.queue q).func && (s.queue p).vslot == (s.queue q).vslot)

/-- QTAIL_DOORBELL by the function that owns a queue. -/
def execQtailDoorbell (q : Nat) (v : Word) (s : State) : Host.Outcome State Fault Refusal :=
  .next (((List.range 256).filter (samePlace s q)).foldl (fun t p => writeQtail t p v.toNat) s)

/-! ### The front end's own accesses (R297, R314) -/

/-- The front end as an issuer of accesses in an address space. -/
def frontCopy (asid : Nat) : Copy :=
  { agent := 0xFFFFFFFF, grid := 0xFFFFFFFF, wg := 0xFFFFFFFF, grove := 64, core := 0, asid := asid, user := false, ring := none
    cmd := some 0xFFFFFFFF, job := .range 0 0 0, cursor := 0, suspended := false, view := [], mark := 0, lost := [], num := 0, crc := (0, 0)
    crcBack := (0, 0), crcFree := false }

/-- Bytes the front end reads, once every closed byte this device holds of them is at its home: it observes bundles, and fills its
TLB (R240, R317). -/
def frontRead (s : State) (asid va n : Nat) : State × CopyGot :=
  let s := match xlateRange s 640 asid va n .read false with
    | .ok locs => fillTlbs (resolveEngine (((locs.map lineOf).dedup).foldl (fun s ln => flushAll s asid (128 * ln)) s) asid locs) 640 asid
        [va, va + n - 1]
    | .error _ => s
  (s, copyRead s (frontCopy asid) va n)

/-- The STATUS of a failed access of a command (R296, R314). -/
def statusOf : Cause → Nat
  | .memUncorrectable => 5
  | .fabricUnreachable => 6
  | _ => 4

/-! ### Take-up (R295) -/

def cmdOp (x : Cmd) : Nat := sliceN x.bytes 0 1
def cmdFlags (x : Cmd) : Nat := sliceN x.bytes 1 1
def cmdSerial (x : Cmd) : Bool := bitN (cmdFlags x) 0

/-- A command that holds back the later ones of its queue until it begins. -/
def holdsBack (x : Cmd) : Bool := !x.begun && !x.done && (cmdOp x == 2 || cmdOp x == 3 || cmdSerial x)

/-- Live grids launched from queues, and launches taken up that have not made theirs. -/
def queueGrids (s : State) : Nat :=
  (s.grids.filter (fun e => e.2.cmd.isSome && !e.2.done)).length + (s.cmds.filter (fun e => cmdOp e.2 == 1 && !e.2.begun && !e.2.done)).length

def slotAddrOf (x : Queue) : Nat := x.base.toNat + 64 * x.head

/-- The 64 bytes at HEAD. -/
def readSlot (s : State) (x : Queue) : State × CopyGot :=
  if x.loc then frontRead s x.asid (slotAddrOf x) 64 else (s, .bytes (s.hostMem.readBytes (slotAddrOf x) 64))

/-- A LAUNCH at HEAD finds no free grid, and waits there. -/
def launchWaits (s : State) (x : Queue) : Bool :=
  decide (1024 ≤ queueGrids s) && (match (readSlot s x).2 with | .bytes bs => sliceN bs 0 1 == 1 | _ => false)

/-- A queue has a slot that can be taken up; not while the slot is on its way from another device. -/
def queueReady (s : State) (q : Nat) : Bool :=
  let x := s.queue q
  x.en && x.head != x.tail && !x.blocked && !(s.sent.any (fun e => e.2.why == .slot q)) && !(s.cmds.any (fun e => e.2.queue == q && holdsBack e.2)) && !launchWaits s x

/-- The queue taken up next: the lowest class, round-robin within it. -/
def nextQueue (s : State) : Option Nat :=
  (List.range 4).findSome? (fun p =>
    let last := Tab.get s.lastQueue p 255
    ((List.range 256).map (fun i => (last + 1 + i) % 256)).find? (fun q => (s.queue q).prio == p && queueReady s q))

/-- The record of a failed take-up (R295). -/
def takeUpFault (x : Queue) (q va : Nat) (m : Miss) : FaultRec :=
  { asid := x.asid, va := va, cause := m.cause, access := 7, malf := m.malf, user := false, source := 1023, slot := 0xFF, gridId := 0, wgid := 0
    cursor := 0, ring := 0xFFFFFFFF, whom := .queue q, posted := none, overflowed := false }

/-- A command that has been taken up and has not completed. -/
def openCmd (s : State) (c : Nat) : Option Cmd := (Tab.find s.cmds c).bind (fun x => if x.done then none else some x)

/-- Every earlier command of its queue has completed. -/
def earlierDone (s : State) (x : Cmd) : Bool := s.cmds.all (fun e => e.2.queue != x.queue || decide (x.order ≤ e.2.order) || e.2.done)

/-- A command may begin: it has not, and SERIAL or its kind holds it back no longer. -/
def mayBegin (s : State) (x : Cmd) (last : Bool) : Bool := !x.begun && (!(cmdSerial x || last) || earlierDone s x)

def State.setCmd (s : State) (c : Nat) (x : Cmd) : State := { s with cmds := Tab.put s.cmds c x }
def beginCmd (s : State) (c : Nat) (x : Cmd) : State := s.setCmd c { x with begun := true }

/-- FLAGS and the bytes from an offset on are zero where they must be (R296). -/
def cmdClean (x : Cmd) (o : Nat) : Bool := decide (cmdFlags x < 4) && sliceN x.bytes o (64 - o) == 0

/-- The launch record is read and checked, which is part of the take-up of a LAUNCH: the STATUS it earns, and the producer live then
(R300, R302). A record that lies at another device is asked for. -/
def readRecord (s : State) (c : Nat) (x : Cmd) : State :=
  let addr := sliceN x.bytes 8 8
  let bad := fun (s : State) (n : Nat) => s.setCmd c { x with verdict := some n }
  if !cmdClean x 16 || addr % 256 ≠ 0 || 2 ^ 50 < addr + 256 then bad s 1
  else
    let r := frontRead s x.asid addr 256
    match r.2 with
    | .bytes bs =>
      if !recordOk r.1 bs false || recHandle bs = 0 || 0x80000000 ≤ recHandle bs then bad r.1 2
      else r.1.setCmd c { x with record := bs, verdict := some 0, producer := liveProducer r.1 x.asid bs }
    | .fault _ m => bad r.1 (statusOf m.cause)
    | .poisoned _ => bad r.1 5
    | .unreachable _ => bad r.1 6
    | .away loc => fetchLine r.1 x.asid loc (.cmd c)
    | .logged => r.1

def knownOp (op : Nat) : Bool := [1, 2, 3, 4, 8, 9, 10, 11].contains op

/-- A command of an unknown OP that may begin completes with STATUS 1 (R296). -/
def endUnknown (s : State) (q : Nat) : State :=
  match s.cmds.find? (fun e => e.2.queue == q && !e.2.done && !knownOp (cmdOp e.2) && mayBegin s e.2 false) with
  | none => s
  | some e => completeCmd (beginCmd s e.1 e.2) e.1 1

/-- A command is taken up; of a LAUNCH, the record too (R296, R300). -/
def takeUp (s : State) (q : Nat) (x : Queue) (bytes : List Byte) : State :=
  let id := s.nextOrder
  let c : Cmd := { queue := q, loc := x.loc, asid := x.asid, prio := x.prio, slotAddr := slotAddrOf x, bytes := bytes, order := id
                   begun := false, done := false, deadline := 0, phase := 0, record := [], verdict := none, producer := none }
  let s := { s with cmds := Tab.put s.cmds id c, nextOrder := id + 1, lastQueue := Tab.put s.lastQueue x.prio q }
  let s := s.setQueue q { x with head := (x.head + 1) % 2 ^ x.log2n }
  if cmdOp c = 1 then readRecord s id c else endUnknown s q

/-- COMMAND_TAKE_UP of the queue whose turn it is; one of its commands that is held back and unknown completes when it may begin. -/
def execCommandTakeUp (q : Nat) (s : State) : Host.Outcome State Fault Refusal :=
  let s := endUnknown s q
  let x := s.queue q
  if nextQueue s != some q then .next s
  else
    let r := readSlot s x
    match r.2 with
    | .bytes bs => .next (takeUp r.1 q x bs)
    | .fault va m =>
      if queueInForce s x.asid then .next (addFault (r.1.setQueue q { x with blocked := true }) (takeUpFault x q va m))
      else .next (stopQueue r.1 q)
    | .poisoned _ => .next (stopQueue r.1 q)
    | .unreachable _ => .next (r.1.setQueue q { x with blocked := true })
    | .away loc => .next (fetchLine r.1 x.asid loc (.slot q))
    | .logged => .next r.1

/-! ### Commands -/

/-- A command of an OP that begins now; `go` has it begun. -/
def onCmd (s : State) (c op : Nat) (last : Bool) (go : Cmd → State → State) : Host.Outcome State Fault Refusal :=
  match openCmd s c with
  | none => .next s
  | some x => if cmdOp x == op && mayBegin s x last then .next (go x (beginCmd s c x)) else .next s

/-- A launch begins: a grid of an accepted record, under the number of its command's take-up (R300, R301). The model's reading (log
entry 54): whether its handle is live is asked now, not at its take-up. -/
def launchGrid (s : State) (c : Nat) (x : Cmd) : State :=
  let r := x.record
  match x.verdict with
  | some 0 =>
    if (liveGrid s x.asid (recHandle r)).isSome then completeCmd s c 3
    else addGrid s c r x.asid (recHandle r) (sliceN r 13 1) (max (recPrio r) x.prio) none (some c) x.producer []
  | v => completeCmd s c (v.getD 0)

/-- LAUNCH_COMMAND: the record is at hand, and its grid enters the distributor. -/
def execLaunchCommand (c : Nat) (s : State) : Host.Outcome State Fault Refusal :=
  match openCmd s c with
  | none => .next s
  | some x =>
    if cmdOp x != 1 then .next s
    else if x.verdict.isNone then .next (readRecord s c x)
    else onCmd s c 1 false (fun x t => launchGrid t c x)

/-- A strong 8-byte access of the front end at a semaphore: the value there before, what stopped it, or that a request is on
its way to the home (R297, R383). -/
inductive SemGot where
  | value (s : State) (old : Nat)
  | fail (s : State) (c : Cause)
  | sent (s : State)

/-- The operation code of a strong access, and its operand: 0 read, 1 exchange, 2 add (R196). -/
def semAccess (s : State) (c asid va op v ord : Nat) : SemGot :=
  match xlate s 640 asid va (if op = 0 then .read else .update) false with
  | .error m => .fail s m.cause
  | .ok loc =>
    let s := fillTlb s 640 asid va
    if homeOf loc == s.device then
      let r := strongAt (flushAll s asid loc) 0xFFFFFFFF asid loc 8 (fun m => if op = 0 then none else some (atomNew op 3 m v))
      match r.err with
      | some e => .fail r.s e
      | none => .value r.s r.old
    else if reachable s (homeOf loc) then
      let s := flushAll s asid loc
      let m := atomMsg (8 * op + 3) ord 3 8 v
      .sent (sendOp s (homeOf loc) { kind := 3, flags := 0, key := 0, asid := asid, tag := 0, addr := loc % 2 ^ 40, arg := m.1, data := m.2, src := 0, tc := 1 } (.cmd c))
    else .fail s .fabricUnreachable

/-- The semaphore address of a command is acceptable. -/
def semOk (x : Cmd) : Bool := sliceN x.bytes 8 8 % 8 == 0 && decide (sliceN x.bytes 8 8 < 2 ^ 50)

/-- The access of a SIGNAL that begins. -/
def signalAccess (c : Nat) (x : Cmd) (t : State) : State :=
  if !semOk x || !cmdClean x 32 || 1 < sliceN x.bytes 24 8 then completeCmd t c 1
  else match semAccess t c x.asid (sliceN x.bytes 8 8) (1 + sliceN x.bytes 24 1) (sliceN x.bytes 16 8) 3 with
    | .value u _ => completeCmd u c 0
    | .fail u e => completeCmd u c (statusOf e)
    | .sent u => u

/-- SIGNAL: one strong access with `.ar` at `.f`. Its close comes first: what is closed goes to its homes, and it waits for what is on its
way there (R232, R297; log entry 72). -/
def execSignal (c : Nat) (s : State) : Host.Outcome State Fault Refusal :=
  match openCmd s c with
  | none => .next s
  | some x =>
    if !(cmdOp x == 2 && mayBegin s x true) then .next s
    else
      let t := carryClosed s 0xFFFFFFFF x.asid
      if homeward t x.asid then .next t else onCmd t c 2 true (signalAccess c)

/-- The condition of a WAITSIG on a value. -/
def condHolds (x : Cmd) (m : Nat) : Bool :=
  let v := sliceN x.bytes 16 8
  match sliceN x.bytes 24 1 % 4 with
  | 0 => decide (v ≤ m)
  | 1 => m == v
  | _ => m != v

/-- One read of a semaphore that a WAITSIG waits on; the next is due in 10 µs. -/
def readSemaphore (s : State) (c : Nat) (x : Cmd) : State :=
  let s := s.setCmd c { x with begun := true, deadline := s.reftime + 10000 }
  match semAccess s c x.asid (sliceN x.bytes 8 8) 0 0 1 with
  | .value u m => if condHolds x m then completeCmd u c 0 else u
  | .fail u e => completeCmd u c (statusOf e)
  | .sent u => u

/-- WAITSIG. COND 3, which R296 does not list, makes it an invalid command: the model's choice (log entry 75). -/
def execWaitsig (c : Nat) (s : State) : Host.Outcome State Fault Refusal :=
  onCmd s c 3 false (fun x t =>
    if !semOk x || !cmdClean x 32 || 2 < sliceN x.bytes 24 8 then completeCmd t c 1 else readSemaphore t c x)

/-- A request of a command is on its way. -/
def cmdSent (s : State) (c : Nat) : Bool := s.sent.any (fun e => e.2.why == .cmd c)

/-- WAITSIG_REREAD. -/
def execWaitsigReread (c : Nat) (s : State) : Host.Outcome State Fault Refusal :=
  match openCmd s c with
  | none => .next s
  | some x => if cmdOp x == 3 && x.begun && !cmdSent s c then .next (readSemaphore s c x) else .next s

/-- COPY: the range becomes a copy of the front end, whose bytes on their way home stand under a key of their own (R296). -/
def copyKey (c : Nat) : Nat := 2 ^ 34 + c

def execCopy (c : Nat) (s : State) : Host.Outcome State Fault Refusal :=
  onCmd s c 4 false (fun x t =>
    let dst := sliceN x.bytes 8 8
    let src := sliceN x.bytes 16 8
    let n := sliceN x.bytes 24 8
    if !cmdClean x 32 || n = 0 || 2 ^ 40 < n || 2 ^ 50 < dst + n || 2 ^ 50 < src + n then completeCmd t c 1
    else { t with copies := Tab.put t.copies (freshCopy t) { frontCopy x.asid with agent := copyKey c, cmd := some c, job := .range dst src n } })

end Sys2Proof.Machine
end

