-- ==== Sys2Proof/Machine/Distributor.lean ====
section
/-! DEFINITION. The distributor (R14 to R18, R20, R21, R33, R302 to R310): dependences, the order of placement, room on a
grove, gangs, pre-emption and restore, and the retirement of workgroups and grids. -/

namespace Sys2Proof.Machine

/-! ### Dependences (R302 to R304) -/

/-- The numbers of consecutive coordinates around x within an extent. -/
def coordsAround (x r ext : Nat) : List Nat := (List.range ext).filter (fun y => decide (y ≤ x + r) && decide (x ≤ y + r))

/-- S(w) by the record's MAP, but for range tables (R303). -/
def depSet (r : List Byte) (w : Nat) : List Nat :=
  let px := sliceN r 232 4
  let py := sliceN r 236 2
  let pz := sliceN r 238 2
  let x := w % recX r
  let y := w / recX r % recY r
  let z := w / (recX r * recY r)
  let num := fun x y => x + px * (y + py * z)
  let xs := match recMap r with
    | 1 => List.range px
    | 3 => coordsAround x (sliceN r 229 1) px
    | _ => coordsAround x 0 px
  let ys := match recMap r with
    | 2 => List.range py
    | 3 => coordsAround y (sliceN r 229 1) py
    | _ => coordsAround y 0 py
  if pz ≤ z then [] else (ys.map (fun y => xs.map (fun x => num x y))).flatten

/-- What a read of the distributor gives. -/
inductive DepGot where
  | met
  | unmet
  | fail (status : Nat)
  | away (loc : Nat)
  deriving DecidableEq, Repr

/-- Bytes in the grid's address space, as a dependence needs them. -/
def depRead (s : State) (asid va n : Nat) (go : List Byte → DepGot) : DepGot :=
  match (frontRead s asid va n).2 with
  | .bytes bs => go bs
  | .fault _ m => .fail (statusOf m.cause)
  | .poisoned _ => .fail 5
  | .unreachable _ => .fail 6
  | .away loc => .away loc
  | .logged => .unmet

/-- Every bit of a set is set in the bitmap. -/
def bitsSet (s : State) (asid bitmap : Nat) : List Nat → DepGot
  | [] => .met
  | p :: ps => depRead s asid (bitmap + p / 8) 1 (fun bs => if bitN (sliceN bs 0 1) (p % 8) then bitsSet s asid bitmap ps else .unmet)

/-- The condition of one workgroup; one of a grid without workgroups takes the producer's whole range (R306). -/
def depOf (s : State) (g : Grid) (w : Nat) : DepGot :=
  let r := g.record
  let bitmap := sliceN r 240 8
  if recCount r = 0 then bitsSet s g.asid bitmap (List.range (sliceN r 232 4 * sliceN r 236 2 * sliceN r 238 2))
  else if recMap r = 4 then
    depRead s g.asid (sliceN r 248 8 + 8 * w) 8 (fun bs =>
      bitsSet s g.asid bitmap (((List.range (sliceN bs 4 4)).map (sliceN bs 0 4 + ·)).filter
        (fun p => decide (p < sliceN r 232 4 * sliceN r 236 2 * sliceN r 238 2))))
  else bitsSet s g.asid bitmap (depSet r w)

/-- The producer, live at take-up, has retired: neither its grid nor its launch is there any more (R302). -/
def producerGone (s : State) (g : Grid) : Bool :=
  match g.producer with
  | none => false
  | some p => (Tab.find s.grids p).elim (!((Tab.find s.cmds p).any launchDue)) Grid.done

def isEligible (s : State) (g : Grid) (w : Nat) : Bool := recProducer g.record == 0 || producerGone s g || g.eligible.contains w

/-- The grid's dependence failed: its command completes, and no further workgroup of it is placed (R303). -/
def failGrid (s : State) (k : Nat) (g : Grid) (status : Nat) : State :=
  let s := { s with grids := Tab.put s.grids k { g with stopped := true, status := status } }
  match g.cmd with
  | none => s
  | some c => completeCmd s c status

/-- One waiting workgroup is evaluated. -/
def evaluateOne (k : Nat) (s : State) (w : Nat) : State :=
  match Tab.find s.grids k with
  | none => s
  | some g =>
    if g.stopped || isEligible s g w then s
    else match depOf s g w with
      | .met => { s with grids := Tab.put s.grids k { g with eligible := g.eligible ++ [w] } }
      | .unmet => s
      | .fail n => failGrid s k g n
      | .away loc => fetchLine s g.asid loc (.dep k)

/-- DEPENDENCE_EVALUATION of the waiting workgroups of a grid. -/
def execDependenceEvaluation (k : Nat) (s : State) : Host.Outcome State Fault Refusal :=
  match Tab.find s.grids k with
  | none => .next s
  | some g =>
    if g.done || recProducer g.record == 0 then .next s
    else .next (((List.range (max 1 (recCount g.record))).filter (fun w => !g.placed.contains w)).foldl (evaluateOne k) s)

/-! ### The order of placement (R308) -/

/-- What comes next in the order: a gang of a grid, as workgroups to place or saved ones to restore. -/
structure Cand where
  grid : Nat
  gang : Nat
  prio : Nat
  saved : List Nat
  wgids : List Nat
  deriving DecidableEq, Repr

/-- The workgroups of a gang (R17). -/
def gangWgids (r : List Byte) (n : Nat) : List Nat :=
  (List.range (min (recGang r) (recCount r - n * recGang r))).map (fun i => n * recGang r + i)

/-- The first gang from number n on, of `fuel`, that is eligible and not placed. -/
def nextGang (s : State) (g : Grid) : Nat → Nat → Option Nat
  | 0, _ => none
  | fuel + 1, n =>
    let ws := gangWgids g.record n
    if ws.all (fun w => !g.placed.contains w && isEligible s g w) then some n else nextGang s g fuel (n + 1)

def gangCount (r : List Byte) : Nat := (recCount r + recGang r - 1) / recGang r

/-- The never-placed candidate of a grid. -/
def freshCand (s : State) (k : Nat) (g : Grid) : Option Cand :=
  if g.stopped || g.done then none
  else (nextGang s g (gangCount g.record) 0).map (fun n => ⟨k, n, g.prio, [], gangWgids g.record n⟩)

/-- The saved candidate that a workgroup stands for. -/
def savedCand (s : State) (w : Wg) (prio : Nat) : Cand :=
  let members := s.wgs.filter (fun e => e.2.grid == w.grid && e.2.gang == w.gang && e.2.saved)
  ⟨w.grid, w.gang, prio, members.map (·.1), members.map (fun e => e.2.wgid)⟩

/-- The earlier of two candidates: by grid in take-up order, then by workgroup. -/
def earlier (s : State) (x y : Cand) : Cand :=
  let ord := fun (c : Cand) => ((Tab.find s.grids c.grid).map Grid.order).getD 0
  if ord y < ord x || (ord y == ord x && decide (y.gang < x.gang)) then y else x

def firstOf (s : State) (cs : List Cand) : Option Cand :=
  cs.foldl (fun b c => match b with | none => some c | some x => some (earlier s x c)) none

/-- The first candidate of a class: saved ones before those never placed. -/
def classCand (s : State) (p : Nat) : Option Cand :=
  let saved := s.wgs.filterMap (fun e => if e.2.saved then
      (Tab.find s.grids e.2.grid).bind (fun g => if g.prio = p then some (savedCand s e.2 p) else none) else none)
  match firstOf s saved with
  | some c => some c
  | none => firstOf s (s.grids.filterMap (fun e => if e.2.prio = p then freshCand s e.1 e.2 else none))

/-! ### Room on a grove (R16, R18, R149, R182, R308) -/

/-- What one agent of a workgroup asks for: forester or team, lane-registers, the core number it is bound to, side-log
entries, and the arrays it had bound. -/
structure Want where
  forester : Bool
  regs : Nat
  fixed : Option Nat
  side : Nat
  bound : Nat
  deriving DecidableEq, Repr

/-- The roles of the teams of a workgroup, in TEAMID order (R15). -/
def teamRoles (r : List Byte) : List Nat := ((List.range 4).map (fun k => List.replicate (roleTeams r k) k)).flatten

def freshWants (r : List Byte) : List Want :=
  (teamRoles r).map (fun k => ⟨roleForester r k, if roleForester r k then 0 else recLanes r * 8 * roleRegs r k, none, 0, 0⟩)

/-- A workgroup keeps its core numbers: it has a forester role or a FIFO mask (R149, R182). -/
def keepsCores (r : List Byte) : Bool := sliceN r 40 4 != 0 || (List.range 4).any (fun k => decide (0 < roleTeams r k) && roleForester r k)

/-- The agents of a workgroup. -/
def wgAgents (s : State) (w : Nat) : List Nat := s.agentsWhere (fun _ a => a.wg == w)

def savedWants (s : State) (r : List Byte) (w : Nat) : List Want :=
  (wgAgents s w).map (fun k =>
    let a := s.agent k
    ⟨a.kind == .forester, if a.kind == .forester then 0 else a.nlanes * a.allot, if keepsCores r then some a.coreNum else none,
     a.heldLog.length, a.bound⟩)

/-- The agents that hold a place, but for those of some workgroups. -/
def residents (s : State) (ignore : List Nat) : List Agent :=
  (s.agents.filter (fun e => !e.2.away && !ignore.contains e.2.wg)).map (·.2)

/-- Lane-registers and slots of a core in use. -/
def regsUsed (ags : List Agent) (taken : List Seat) (c : Nat) : Nat :=
  ((ags.filter (fun a => a.kind == .team && a.core == c)).map (fun a => a.nlanes * a.allot)).sum
    + ((taken.filter (fun t => !t.forester && t.core == c)).map Seat.regs).sum
def slotFree (ags : List Agent) (taken : List Seat) (c n : Nat) : Bool :=
  !(ags.any (fun a => a.kind == .team && a.core == c && a.slot == n)) && !(taken.any (fun t => !t.forester && t.core == c && t.slot == n))
def freeSlot (ags : List Agent) (taken : List Seat) (c : Nat) : Option Nat := (List.range 16).find? (slotFree ags taken c)

/-- Side-log entries of a core in use. -/
def sideUsed (s : State) (taken : List Seat) (c : Nat) : Nat :=
  (s.core c).sideLog.length + ((taken.filter (fun t => !t.forester && t.core == c)).map Seat.side).sum

/-- The seat of a team on a grove: the core with the most free blocks of `blk` lane-registers, ties to the lowest number. -/
def teamSeat (s : State) (ags : List Agent) (taken : List Seat) (g blk : Nat) (w : Want) : Option Seat :=
  let cores := (groveList g).filter (fun c => w.fixed.elim true (fun n => c % 8 == n) && (freeSlot ags taken c).isSome
    && decide (regsUsed ags taken c + w.regs ≤ 196608) && decide (sideUsed s taken c + w.side ≤ 512))
  let free := fun c => (196608 - regsUsed ags taken c) / blk
  let best := cores.foldl (fun b c => match b with | none => some c | some x => if free x < free c then some c else some x) none
  best.map (fun c => ⟨false, c, (freeSlot ags taken c).getD 0, w.regs, w.side, 0⟩)
where
  /-- The cores of a grove, ascending. -/
  groveList (g : Nat) : List Nat := (List.range 8).map (fun j => 8 * g + j)

/-- The seat of a forester-role team: a free context, and no saved array bound to the other one, resident or about to be (R149). -/
def foresterSeat (ags : List Agent) (taken : List Seat) (g : Nat) (w : Want) : Option Seat :=
  let here := ags.filter (fun a => a.kind == .forester && a.grove == g)
  if here.any (fun a => a.bound &&& w.bound != 0) || taken.any (fun t => t.forester && t.core == 8 * g && t.bound &&& w.bound != 0) then none
  else ((List.range 2).find? (fun n => !(here.any (fun a => a.slot == n)) && !(taken.any (fun t => t.forester && t.core == 8 * g && t.slot == n)))).map
    (fun n => ⟨true, 8 * g, n, 0, 0, w.bound⟩)

/-- The seats of all the agents of a workgroup on a grove, in order. -/
def seatAll (s : State) (ags : List Agent) (g blk : Nat) : List Seat → List Want → Option (List Seat)
  | _, [] => some []
  | taken, w :: ws =>
    match (if w.forester then foresterSeat ags taken g w else teamSeat s ags taken g blk w) with
    | none => none
    | some x => (seatAll s ags g blk (taken ++ [x]) ws).map (x :: ·)

/-- The banks a record holds are in the right modes on a grove, and no other holds them (R182). -/
def banksFit (s : State) (r : List Byte) (g : Nat) (ignore : List Nat) (taken : List Reserved) : Bool :=
  let sp := sliceN r 36 4
  let fifo := sliceN r 40 4
  let others := (s.wgs.filter (fun e => e.2.grove == g && !e.2.saved && !e.2.retired && !ignore.contains e.1)).foldl
    (fun m e => m ||| recordField s e.2.grid 36 4 ||| recordField s e.2.grid 40 4) 0
  let held := (taken.filter (fun t => t.grove == g)).foldl (fun m t => m ||| t.banks) others
  held &&& (sp ||| fifo) == 0
    && (List.range 8).all (fun j => (List.range 32).all (fun b =>
      (!bitN sp b || (s.core (8 * g + j)).mode b == 1) && (!bitN fifo b || (s.core (8 * g + j)).mode b == 2)))

/-- The seats of a workgroup on a grove, when it fits. -/
def fitOn (s : State) (r : List Byte) (wants : List Want) (ignore : List Nat) (taken : List Reserved) (g : Nat) : Option (List Seat) :=
  if banksFit s r g ignore taken then
    seatAll s (residents s ignore) g (8 * max 1 (recStrand r)) ((taken.map Reserved.seats).flatten) wants
  else none

/-- Groves in the order they are tried, and whether one may take a workgroup now (R308). -/
def groveOrder (last : Nat) : List Nat := (List.range 64).map (fun i => (last + 1 + i) % 64)
def groveRested (s : State) (g : Nat) : Bool :=
  match (s.grove g).lastPlaced with
  | none => true
  | some t => decide (t + 500 ≤ s.reftime)

/-- What the search for room finds: a place for now, one that is not rested yet, or none. -/
inductive Fit where
  | now (r : Reserved)
  | later (r : Reserved)
  | none
  deriving DecidableEq, Repr

def fitWg (s : State) (r : List Byte) (w : Nat) (wants : List Want) (ignore : List Nat) (taken : List Reserved) (last : Nat) : Fit :=
  let room := (groveOrder last).filterMap (fun g => (fitOn s r wants ignore taken g).map (fun x => (⟨w, g, x, sliceN r 36 4 ||| sliceN r 40 4⟩ : Reserved)))
  match room.find? (fun x => groveRested s x.grove) with
  | some x => .now x
  | none => match room with
    | [] => .none
    | x :: _ => .later x

/-- What a candidate finds: places for now, places that are not all rested yet, or no room. -/
inductive Room where
  | now (xs : List Reserved)
  | later
  | none
  deriving DecidableEq, Repr

/-! ### The next action of the distributor (R308 to R310) -/

/-- The class of the gang under reservation. -/
def reservedClass (s : State) : Nat := (s.reservation.bind (fun x => (Tab.find s.grids x.1).map Grid.prio)).getD 0

/-- What is withheld from a candidate: the room of a gang under reservation of its own class or a smaller one (R309). -/
def withheld (s : State) (c : Cand) : List Reserved := if c.prio < reservedClass s then [] else s.reserved

/-- The next workgroup of a candidate to find room for: a gang under reservation has some (R309). -/
def nextOf (s : State) (c : Cand) : Option Nat :=
  if s.reservation = some (c.grid, c.gang) then c.wgids.find? (fun w => !(s.reserved.any (fun x => x.wgid == w))) else c.wgids.head?

/-- What a workgroup of a candidate asks for: placed anew, or as it was saved. -/
def candWants (s : State) (c : Cand) (w : Nat) : List Want :=
  match (c.saved.zip c.wgids).find? (fun e => e.2 == w) with
  | some (k, _) => savedWants s (recordOf s c.grid) k
  | none => freshWants (recordOf s c.grid)

/-- Room for the next workgroup of a candidate. -/
def fitCand (s : State) (c : Cand) (ignore : List Nat) : Room :=
  match nextOf s c with
  | none => .now []
  | some w => match fitWg s (recordOf s c.grid) w (candWants s c w) ignore (withheld s c) s.lastGrove with
    | .now x => .now [x]
    | .later _ => .later
    | .none => .none

/-- Gangs with the time of their placement, the most recently placed first. -/
def putRecent (x : Nat × List Nat) : List (Nat × List Nat) → List (Nat × List Nat)
  | [] => [x]
  | y :: ys => if x.1 < y.1 then y :: putRecent x ys else x :: y :: ys

/-- Resident gangs that a class may pre-empt, in the order they are taken: the largest class number first, then the most
recently placed (R310). -/
def victims (s : State) (p : Nat) : List (List Nat) :=
  let ofClass := fun q => (s.wgs.filter (fun e => !e.2.saved && !e.2.retired && ((Tab.find s.grids e.2.grid).map Grid.prio).getD 0 == q))
  let gang := fun (w : Wg) => (s.wgs.filter (fun e => e.2.grid == w.grid && e.2.gang == w.gang && !e.2.retired)).map (·.1)
  let sorted := fun (ws : Tab Wg) => (ws.map (fun e => (e.2.placedAt, gang e.2))).foldr putRecent []
  (([3, 2, 1].filter (fun q => decide (p < q))).map (fun q => ((sorted (ofClass q)).map (·.2)).eraseDups)).flatten

/-- The fewest victims, in order, that give a candidate room. -/
def victimsFor (s : State) (c : Cand) : List (List Nat) → List Nat → Option (List Nat)
  | [], _ => none
  | v :: vs, acc =>
    let acc := acc ++ v
    if fitCand s c acc = .none then victimsFor s c vs acc else some acc

inductive Act2 where
  | room (c : Cand) (xs : List Reserved)
  | save (wgs : List Nat)
  | later
  deriving DecidableEq, Repr

/-- Another gang is under reservation: only one is at a time (R309). -/
def otherReserved (s : State) (c : Cand) : Bool :=
  decide (1 < c.wgids.length) && (match s.reservation with | none => false | some x => x != (c.grid, c.gang))

/-- What a class has to do: nothing when its first candidate neither fits nor can make room. -/
def classAct (s : State) (p : Nat) : Option Act2 :=
  (classCand s p).bind (fun c =>
    if otherReserved s c then none
    else match fitCand s c [] with
    | .now xs => some (.room c xs)
    | .later => some .later
    | .none => (victimsFor s c (victims s p) []).map Act2.save)

/-- A gang is the first candidate of a class. -/
def isFirst (s : State) (p : Nat) (x : Nat × Nat) : Bool :=
  match classCand s p with | some c => (c.grid, c.gang) == x | none => false

/-- How many workgroups of a grid have come to be eligible, and are there to restore. -/
def eligibleCount (s : State) (k : Nat) (g : Grid) : Nat :=
  (if recProducer g.record == 0 || producerGone s g then recCount g.record else g.eligible.length)
    + (s.wgs.filter (fun e => e.2.grid == k && e.2.saved)).length
def smallerCounts (s : State) (p : Nat) : List (Nat × Nat) :=
  (s.grids.filter (fun e => decide (e.2.prio < p) && !e.2.stopped && !e.2.done)).map (fun e => (e.1, eligibleCount s e.1 e.2))

/-- A workgroup of a smaller class has become eligible since the reservation began (R309). -/
def overtaken (s : State) (p : Nat) : Bool :=
  (smallerCounts s p).any (fun e => decide (((s.reservedOver.find? (fun x => x.1 == e.1)).map (·.2)).getD 0 < e.2))

/-- No gang is under reservation any more. -/
def freeReservation (s : State) : State := { s with reservation := none, reserved := [], reservedOver := [] }

/-- A workgroup of a smaller class number that becomes eligible ends a reservation (R309); so does one of the gang's class that comes
before it in the order of R308 (log entry 53). -/
def dropReservation (s : State) : State :=
  match s.reservation with
  | none => s
  | some (g, n) =>
    let p := reservedClass s
    if (Tab.find s.grids g).isNone || overtaken s p || !isFirst s p (g, n) then freeReservation s else s

def nextAct (s : State) : Option Act2 := (List.range 4).findSome? (classAct s)

/-! ### Placing (R16, R33, R182, R305) -/

/-- A bank that a workgroup takes: as scratchpad zero after another address space, else indeterminate; as FIFO empty. -/
def takeBank (asid base : Nat) (fifo : Bool) (c : Core) (b : Nat) : Core :=
  let other := match Tab.find c.owner b with | some o => o != asid | none => false
  let c := { c with scratch := c.scratch.filter (fun e => e.1 / 65536 != b), owner := Tab.put c.owner b asid, fifos := Tab.erase c.fifos b
                    poison := c.poison.filter (fun ln => ln / 512 != b) }
  if fifo || other then { c with unset := Tab.erase c.unset b } else { c with unset := Tab.put c.unset b (base + 65536 * b) }

/-- The banks of a record are taken on all the cores of a grove. -/
def takeBanks (s : State) (r : List Byte) (g asid : Nat) : State :=
  let sp := sliceN r 36 4
  let fifo := sliceN r 40 4
  let bs := (List.range 32).filter (bitN (sp ||| fifo))
  ((List.range 8).foldl (fun s j =>
    s.setCore (8 * g + j) (bs.foldl (fun c b => takeBank asid (s.freeCtr + 2097152 * j) (bitN fifo b) c b) (s.core (8 * g + j)))) s).used
    (if bs.isEmpty then 0 else 16777216)

/-- A team or context at its first issue (R33, R145). -/
def newAgent (s : State) (g : Grid) (k wg w teamId role : Nat) (grove : Nat) (x : Seat) : Agent :=
  let r := g.record
  let argp := sliceN r 16 8
  let team := !x.forester
  { Agent.blank with
    kind := if team then .team else .forester, core := if team then x.core else 0, grove := grove, slot := x.slot, coreNum := x.core % 8
    grid := k, wg := wg, gridId := g.gridId, wgid := BitVec.ofNat 64 w, teamId := teamId, role := role, asid := g.asid, depth := g.depth
    prio := g.prio, nlanes := recLanes r, strand := recStrand r, allot := if team then 8 * roleRegs r role else 0
    stackBase := roleStack r role, stackSize := roleStackSize r role, pc := BitVec.ofNat 64 (roleEntry r role)
    sregs := [(0, BitVec.ofNat 32 argp), (1, BitVec.ofNat 32 (argp / 2 ^ 32)), (2, BitVec.ofNat 32 w), (3, BitVec.ofNat 32 teamId)]
    vregs := if team then [(0, (List.range (recLanes r)).map (BitVec.ofNat 32))] else []
    mask := if team then BitVec.ofNat 1024 (2 ^ recLanes r - 1) else 1
    priv := asidKpriv s g.asid, lastObs := s.strongSeq }

/-- One workgroup is placed: its banks, and its teams READY with the open of their first issue (R305). -/
def placeWg (s : State) (k : Nat) (g : Grid) (x : Reserved) : State :=
  let wg := s.nextOrder
  let roles := teamRoles g.record
  let w : Wg := { grid := k, wgid := x.wgid, grove := x.grove, gang := x.wgid / recGang g.record, saved := false, retired := false
                  placedAt := wg, banks := [], rings := [] }
  let ags : List (Nat × Agent) := ((roles.zip x.seats).zipIdx).map (fun e => (wg + 1 + e.2, newAgent s g k wg x.wgid e.2 e.1.1 x.grove e.1.2))
  let s := takeBanks s g.record x.grove g.asid
  let s := { s with wgs := Tab.put s.wgs wg w, nextOrder := wg + 1 + ags.length, lastGrove := x.grove
                    grids := s.grids.map (fun (e : Nat × Grid) => if e.1 == k then (e.1, { e.2 with members := e.2.members ++ ags.map (fun (y : Nat × Agent) => y.1) }) else e)
                    agents := ags.foldl (fun (t : Tab Agent) (e : Nat × Agent) => Tab.put t e.1 e.2) s.agents }
  let s := s.setGrove x.grove { (s.grove x.grove) with lastPlaced := some s.reftime }
  ags.foldl (fun s e => openPhase s e.1 g.openScope) s

/-- Workgroups of a grid are placed together. -/
def placeAll (s : State) (k : Nat) (xs : List Reserved) : State :=
  match Tab.find s.grids k with
  | none => s
  | some g =>
    let s := { s with grids := Tab.put s.grids k { g with placed := g.placed ++ xs.map Reserved.wgid } }
    xs.foldl (fun s x => placeWg s k g x) s

/-- A candidate has room, or its next workgroup: with the last one it is placed or restored, as a whole; until then the room is reserved
(R17, R309). A placement in room that a gang of a larger class had reserved ends that reservation. `commit` places or restores. -/
def reserveStep (s : State) (c : Cand) (xs : List Reserved) (commit : State → List Reserved → State) : State :=
  let own := s.reservation = some (c.grid, c.gang)
  let all := (if own then s.reserved else []) ++ xs
  if c.wgids.all (fun w => all.any (fun x => x.wgid == w)) then
    commit (if own ∨ c.prio < reservedClass s then freeReservation s else s) all
  else
    let counts := if own then s.reservedOver else smallerCounts s c.prio
    let t := { s with reservation := some (c.grid, c.gang), reserved := all, reservedOver := counts
                      lastGrove := (xs.getLast?).elim s.lastGrove Reserved.grove }
    xs.foldl (fun (t : State) (x : Reserved) => t.setGrove x.grove { (t.grove x.grove) with lastPlaced := some t.reftime }) t

/-- PLACEMENT of the next workgroup, where it is a gang of its own. -/
def execPlacement (s : State) : Host.Outcome State Fault Refusal :=
  let s' := dropReservation s
  match nextAct s' with
  | some (.room c xs) =>
    if c.saved.isEmpty && decide (c.wgids.length = 1) then .next (reserveStep s' c xs (fun s => placeAll s c.grid)) else .next s
  | _ => .next s

/-- GANG_RESERVATION: the next workgroup of a gang has room; with the last one the gang is committed (R309). -/
def execGangReservation (s : State) : Host.Outcome State Fault Refusal :=
  let s' := dropReservation s
  match nextAct s' with
  | some (.room c xs) =>
    if c.saved.isEmpty && decide (1 < c.wgids.length) then .next (reserveStep s' c xs (fun s => placeAll s c.grid)) else .next s
  | _ => .next s

/-! ### Pre-emption (R47, R158, R182, R213, R230, R310, R334) -/

/-- An agent may be saved: at a boundary, held in no instruction, with nothing outstanding but memory requests (R334). -/
def maySave (a : Agent) : Bool := atBoundary a && !a.waiting && a.lahead.all (fun e => e.done || e.parks)

/-- An agent is saved away from its core, and the save pool takes its area. -/
def saveAgent (s : State) (k : Nat) : State :=
  let a := s.agent k
  let c := s.core a.core
  let team := a.kind == .team
  let a' : Agent := if a.state == .saved then { a with away := true } else { a with state := .saved, savedFrom := a.state, away := true }
  let bound := (List.range 8).filter (bitN a.bound)
  let a' := { a' with heldLog := if team then c.sideLog.filter (fun e => e.agent == k) else []
                      heldAccess := if team then c.tileQueue.filter (fun e => e.agent == k) else []
                      heldTiles := if team then [] else bound.map (fun j => (j, (s.core (8 * a.grove + j)).tiles)) }
  let s := if team then s.setCore a.core { c with sideLog := c.sideLog.filter (fun e => e.agent != k)
                                                  tileQueue := c.tileQueue.filter (fun e => e.agent != k) }
    else s
  poolSave (s.setAgent k a') k

/-- The numbers of software's writes to a bank, by offset. -/
def bankWrites (s : State) (core bank : Nat) : Tab Nat :=
  let base := scratchPos core (65536 * bank)
  (s.codeWrites.filter (fun e => decide (base ≤ e.1) && decide (e.1 < base + 65536))).map (fun e => (e.1 - scratchPos core 0, e.2))

/-- The contents of the banks a workgroup holds on a grove. -/
def saveBanks (s : State) (r : List Byte) (g : Nat) : List BankSave :=
  let bs := (List.range 32).filter (bitN (sliceN r 36 4 ||| sliceN r 40 4))
  ((List.range 8).map (fun j => bs.map (fun b =>
    let c := s.core (8 * g + j)
    (⟨j, b, c.scratch.filter (fun e => e.1 / 65536 == b), Tab.find c.unset b, Tab.get c.fifos b [],
      c.poison.filter (fun ln => ln / 512 == b), bankWrites s (8 * g + j) b⟩ : BankSave)))).flatten

/-- One workgroup is saved: what its agents have posted is performed, and what they have closed goes home (R182, R230). -/
def saveWg (s : State) (w : Nat) : State :=
  match Tab.find s.wgs w with
  | none => s
  | some x =>
    if x.saved then s
    else
      let r := recordOf s x.grid
      let asid := ((Tab.find s.grids x.grid).map Grid.asid).getD 0
      let s := pushStaging ((wgAgents s w).foldl drainAll s) x.grove 0xFFFFFFFF asid
      let gr := s.grove x.grove
      let mine := gr.rings.filter (fun e => e.2.wg == w)
      let x' : Wg := { x with saved := true, banks := saveBanks s r x.grove, rings := mine }
      let s := s.setGrove x.grove { gr with rings := gr.rings.filter (fun e => e.2.wg != w) }
      releaseSide ((wgAgents s w).foldl saveAgent { s with wgs := Tab.put s.wgs w x' })

/-- PREEMPTION: the victims of the next candidate are saved, once each of their agents may be. -/
def execPreemption (s : State) : Host.Outcome State Fault Refusal :=
  match nextAct (dropReservation s) with
  | some (.save ws) =>
    if ws.all (fun w => (wgAgents s w).all (fun k => maySave (s.agent k))) then .next (ws.foldl saveWg (dropReservation s)) else .next s
  | _ => .next s

/-! ### Restore (R23, R149, R182, R213, R334) -/

/-- A saved bank returns, at the same core and bank numbers. -/
def restoreBank (g asid : Nat) (s : State) (b : BankSave) : State :=
  let i := 8 * g + b.core
  let base := scratchPos i (65536 * b.bank)
  let s := s.setCore i { standBank (s.core i) b with owner := Tab.put (s.core i).owner b.bank asid }
  { s with codeWrites := b.writes.foldl (fun t e => Tab.put t (scratchPos i e.1) e.2)
             (s.codeWrites.filter (fun e => !(decide (base ≤ e.1) && decide (e.1 < base + 65536)))) }

/-- An agent takes a seat again: its tiles or its waiting accesses and side-log entries come with it. -/
def seatAgent (s : State) (g k : Nat) (x : Seat) : State :=
  let a := s.agent k
  let s := if x.forester then a.heldTiles.foldl (fun s e => s.setCore (8 * g + e.1) { (s.core (8 * g + e.1)) with tiles := e.2 }) s
    else s.setCore x.core { (s.core x.core) with sideLog := (s.core x.core).sideLog ++ a.heldLog
                                                 tileQueue := sortBy TileAccess.seq ((s.core x.core).tileQueue ++ a.heldAccess) }
  let a := { a with away := false, grove := g, core := if x.forester then 0 else x.core, slot := x.slot, heldLog := [], heldAccess := [], heldTiles := [] }
  let ends := a.sleepEnd != 0 && decide (a.sleepEnd ≤ s.reftime)
  let s := { s with savePool := Tab.erase s.savePool k }
  if a.inPlace then s.setAgent k a else leaveSaved (s.setAgent k a) k ends

/-- One workgroup is resident again. -/
def restoreWg (s : State) (w : Nat) (x : Reserved) : State :=
  match Tab.find s.wgs w with
  | none => s
  | some y =>
    let asid := ((Tab.find s.grids y.grid).map Grid.asid).getD 0
    let s := y.banks.foldl (restoreBank x.grove asid) (pushAll s 0xFFFFFFFF asid)
    let gr := s.grove x.grove
    let s := s.setGrove x.grove { gr with rings := y.rings.foldl (fun t e => Tab.put t e.1 e.2) gr.rings, lastPlaced := some s.reftime }
    let s := { s with wgs := Tab.put s.wgs w { y with saved := false, grove := x.grove, placedAt := s.nextOrder, banks := [], rings := [] }
                      nextOrder := s.nextOrder + 1, lastGrove := x.grove
                      copies := s.copies.map (fun e => (e.1, if e.2.wg == w then { e.2 with grove := x.grove } else e.2))
                      traces := s.traces.map (fun e => (e.1, if e.2.wg == w then { e.2 with grove := x.grove } else e.2)) }
    ((wgAgents s w).zip x.seats).foldl (fun s e => seatAgent s x.grove e.1 e.2) s

/-- The workgroups of a saved candidate are resident again, each where it has room. -/
def restoreAll (c : Cand) (s : State) (xs : List Reserved) : State :=
  (c.saved.zip c.wgids).foldl (fun s e => match xs.find? (fun x => x.wgid == e.2) with
    | some x => restoreWg s e.1 x
    | none => s) s

/-- RESTORE of the next candidate, where it is saved: its whole gang, for whose workgroups room is reserved one by one (R17, R308,
R309). -/
def execRestore (s : State) : Host.Outcome State Fault Refusal :=
  let s' := dropReservation s
  match nextAct s' with
  | some (.room c xs) => if c.saved.isEmpty then .next s else .next (reserveStep s' c xs (restoreAll c))
  | _ => .next s

/-! ### Retirement (R20, R21, R304 to R306, R399) -/

/-- A workgroup has nothing left: teams, children, copies, mat commands (R21). -/
def wgOver (s : State) (w : Nat) : Bool :=
  (wgAgents s w).isEmpty
    && !(s.grids.any (fun e => !e.2.done && (match e.2.parent with | some (_, v, _) => v == w | none => false)))
    && !(s.copies.any (fun e => e.2.wg == w && e.2.cmd.isNone))
    && !(s.matCmds.any (fun m => m.2.wg == w && !m.2.slices.isEmpty))

/-- The first status that a grid earns is kept. -/
def earnStatus (s : State) (k status : Nat) : State :=
  match Tab.find s.grids k with
  | none => s
  | some g => if g.status = 0 then { s with grids := Tab.put s.grids k { g with status := status } } else s

/-- Bytes that a grid's teams have closed, or REDs of theirs, that this device holds for a home it cannot reach (R399). -/
def stranded (s : State) (k : Nat) : Bool :=
  let mine := ((Tab.find s.grids k).map Grid.members).getD []
  s.held.any (fun e => homeOf e.1 != s.device && !reachable s (homeOf e.1) && mine.any (fun j => coversLine s j (lineOf e.1)))
    || s.posted.any (fun e => mine.contains e.2.agent && (match e.2.job with
      | .red _ _ loc _ _ => homeOf loc != s.device && !reachable s (homeOf loc)
      | .scratch _ _ => false))

/-- The close of a retirement: every closed byte goes home, and what this device holds of the address space; bytes that cannot stay
held, and the grid earns STATUS 6 (R305, R306, R399). -/
def retireClose (s : State) (k asid : Nat) : State :=
  let s := pushAll s 0xFFFFFFFF asid
  let s := ((linesOf s.held).filter (fun ln => lineAsid s ln asid == asid)).foldl (fun s ln => pushHeld s 0xFFFFFFFF asid ln) s
  if stranded s k && !homeward s asid then earnStatus s k 6 else s

/-- The workgroup's bit is set in the completion bitmap by a strong OR with release at RSCOPE (R304, R305). -/
def setDoneBit (s : State) (k asid scope cbmap w : Nat) : State :=
  let va := cbmap + 4 * (w / 32)
  let f := fun m => m ||| 2 ^ (w % 32)
  match xlate s 640 asid va .update false with
  | .error m => earnStatus s k (statusOf m.cause)
  | .ok loc =>
    if homeOf loc == s.device then
      let r := strongAt (flushAll s asid loc) 0xFFFFFFFF asid loc 4 (fun m => some (f m))
      match r.err with
      | some e => earnStatus r.s k (statusOf e)
      | none => fillTlb r.s 640 asid va
    else if reachable s (homeOf loc) then
      let m := atomMsg (8 * 4 + 2) 2 scope 4 (2 ^ (w % 32))
      sendOp s (homeOf loc) { kind := 3, flags := 0, key := 0, asid := asid, tag := 0, addr := loc % 2 ^ 40, arg := m.1, data := m.2, src := 0, tc := 1 } (.doneBit k)
    else earnStatus s k 6

/-- What a retired workgroup held is free: its ring entries and its banks; its close has joined its copies and mat commands (R182,
R205, R213, R305). -/
def freeWg (s : State) (w : Nat) : State :=
  let s := joinMats (joinCopies s (fun t => t.wg == w)) (s.matCmds.filter (fun e => e.2.wg == w))
  { s with matCmds := s.matCmds.filter (fun e => e.2.wg != w)
           wgs := Tab.erase s.wgs w
           groves := s.groves.map (fun e => (e.1, { e.2 with rings := e.2.rings.filter (fun r => r.2.wg != w) })) }

/-- WORKGROUP_RETIREMENT. -/
def execWorkgroupRetirement (w : Nat) (s : State) : Host.Outcome State Fault Refusal :=
  match Tab.find s.wgs w with
  | none => .next s
  | some x =>
    match Tab.find s.grids x.grid with
    | none => .next s
    | some g =>
      if x.saved || !wgOver s w then .next s
      else
        let s := retireClose s x.grid g.asid
        if homeward s g.asid then .next s else
        let cb := sliceN g.record 48 8
        let s := if cb = 0 then s else setDoneBit s x.grid g.asid (recRscope g.record) cb x.wgid
        let s := freeWg s w
        match Tab.find s.grids x.grid with
        | none => .next s
        | some g => .next { s with grids := Tab.put s.grids x.grid { g with retired := g.retired + 1 } }

/-- A grid's workgroups have all retired; one without workgroups waits for its dependence (R306). -/
def gridOver (s : State) (g : Grid) : Bool :=
  if g.stopped then g.retired == g.placed.length
  else if recCount g.record = 0 then isEligible s g 0
  else g.retired == recCount g.record

/-- What a child grid's teams have closed its parent's releases cover from its retirement on (R21, R305). -/
def joinMembers (s : State) (g : Grid) : State :=
  match g.parent with
  | none => s
  | some (_, _, up) => { s with grids := s.grids.map (fun e => if e.1 == up then (e.1, { e.2 with members := e.2.members ++ g.members }) else e) }

/-- GRID_RETIREMENT: the close at RSCOPE, then STATUS and the interrupt; a grid that is gone counts as retired for its
dependants and its parent. -/
def execGridRetirement (k : Nat) (s : State) : Host.Outcome State Fault Refusal :=
  match Tab.find s.grids k with
  | none => .next s
  | some g =>
    if !gridOver s g || s.sent.any (fun e => e.2.why == .doneBit k) then .next s
    else
      let s := retireClose s k g.asid
      if homeward s g.asid then .next s else
      let status := ((Tab.find s.grids k).map Grid.status).getD 0
      let s := match g.cmd with | none => s | some c => completeCmd s c status
      .next (joinMembers { s with grids := Tab.erase s.grids k } g)

end Sys2Proof.Machine
end

