-- ==== Sys2Proof/Machine/Routes.lean ====
section
/-! DEFINITION. The topology commands (R379 to R383): drain and train a port, load a route table, swap to it at a fabric
barrier. -/

namespace Sys2Proof.Machine

/-- A topology command begins: after every earlier command of its queue, on queues of the physical function only (R379). -/
def onTopology (s : State) (c op : Nat) (go : Cmd → State → State) : Host.Outcome State Fault Refusal :=
  onCmd s c op true (fun x t => if (t.queue x.queue).func != 0 then completeCmd t c 1 else go x t)

/-! ### Draining and training (R380, R381) -/

/-- The port and the TIMEOUT of a port command. -/
def cmdPort (x : Cmd) : Nat := sliceN x.bytes 8 1
def cmdTimeout (x : Cmd) : Nat := sliceN x.bytes 16 8
def portCmdOk (x : Cmd) : Bool :=
  cmdClean x 24 && sliceN x.bytes 9 7 == 0 && decide (cmdPort x < 36) && decide (1 ≤ cmdTimeout x) && decide (cmdTimeout x ≤ 1000000)

/-- The port commands of an OP that run on a port. -/
def portCmds (s : State) (op p : Nat) : List Nat :=
  (s.cmds.filter (fun e => cmdOp e.2 == op && e.2.begun && !e.2.done && cmdPort e.2 == p)).map (·.1)

/-- A draining port with nothing queued and every frame acknowledged is down, and its drain has completed. -/
def endDrain (s : State) (p : Nat) : State :=
  let x := s.port p
  if x.pstate = 3 && x.out.isEmpty && x.replay.isEmpty && !(s.backlog.any (fun e => e.1 == p)) then
    (portCmds s 8 p).foldl (fun s c => completeCmd s c 16) (s.setPort p { x with pstate := 0 })
  else s

/-- A port command has begun and runs until its timeout. -/
def runPortCmd (s : State) (c : Nat) (x : Cmd) : State :=
  s.setCmd c { x with begun := true, deadline := s.reftime + 1000 * cmdTimeout x }

def execPortdrain (c : Nat) (s : State) : Host.Outcome State Fault Refusal :=
  onTopology s c 8 (fun x t =>
    if !portCmdOk x then completeCmd t c 1
    else
      let t := runPortCmd t c x
      endDrain (t.setPort (cmdPort x) { t.port (cmdPort x) with pstate := 3 }) (cmdPort x))

/-- A port in training: its link starts anew. -/
def training (x : Port) : Port :=
  { x with pstate := 1, txSeq := 0, rxSeq := 0, ackDue := false, nakDue := false, replay := [], out := [] }

/-- PORTTRAIN: the port trains, and sends this device's number to the far end (R381). -/
def execPorttrain (c : Nat) (s : State) : Host.Outcome State Fault Refusal :=
  onTopology s c 9 (fun x t =>
    if !portCmdOk x then completeCmd t c 1
    else if (t.port (cmdPort x)).pstate != 0 then completeCmd t c 18
    else
      let t := (runPortCmd t c x).setPort (cmdPort x) (training (t.port (cmdPort x)))
      sendManagement t (cmdPort x) 0 t.device)

/-- PORT_COMMAND_TIMEOUT: STATUS 17; a draining port is up again, one in training is down. -/
def execPortCommandTimeout (c : Nat) (s : State) : Host.Outcome State Fault Refusal :=
  match openCmd s c with
  | none => .next s
  | some x =>
    if !((cmdOp x == 8 || cmdOp x == 9) && x.begun) || s.reftime < x.deadline then .next s
    else
      let p := s.port (cmdPort x)
      let st := if p.pstate = 3 then 2 else if p.pstate = 1 then 0 else p.pstate
      .next (completeCmd (s.setPort (cmdPort x) { p with pstate := st }) c 17)

/-- The widest setting, 0 to 3, that n wavelengths support (R369, R370). -/
def widestFor (n : Nat) : Nat := if 8 ≤ n then 3 else if 6 ≤ n then 2 else if 4 ≤ n then 1 else 0
def countBits (m n : Nat) : Nat := ((List.range n).filter (bitN m)).length

/-- A trained port: both ends know each other, all its wavelengths are locked, and it runs at the floor width. -/
def trained (x : Port) (neighbour : Nat) : Port :=
  { x with pstate := 2, neigh := neighbour % 2048, lmask := 0xFF, width := x.floor, nextWidth := none }

/-- A width that both ends take: a narrower one at once, a wider one 1.2 µs later (R368). -/
def setWidth (now : Nat) (x : Port) (w : Nat) : Port :=
  if w ≤ x.width then { x with width := w, nextWidth := none } else { x with nextWidth := some w, widenAt := now + 1200 }

/-- A width this end has decided on, of which the other end is told (R368, R370). -/
def decideWidth (s : State) (p w : Nat) : State := sendManagement (s.setPort p (setWidth s.reftime (s.port p) w)) p 1 w

/-- What a management frame says: in training the device at the far end; on a port that runs, the width both ends take, which is
none below FLOOR (R368, R381; log entry 74). The frame that carries it is received as any other. -/
def execManagementFrame (p neighbour w : Nat) (s : State) : Host.Outcome State Fault Refusal :=
  let x := s.port p
  if 36 ≤ p then .next s
  else if x.pstate = 1 then
    let s := refillPort (s.setPort p (trained x neighbour)) p
    .next ((portCmds s 9 p).foldl (fun s c => completeCmd s c (16 + 65536 * (neighbour % 2048))) s)
  else if 2 ≤ x.pstate then .next (s.setPort p (setWidth s.reftime x (min (max (w % 4) x.floor) (widestFor (countBits x.lmask 8)))))
  else .next s

/-! ### Route tables (R372, R373, R382, R383) -/

/-- The generation that is not current. -/
def spareGen (s : State) : Nat := match s.current with | some g => 1 - g | none => 0

/-- Bytes of an image for a number of devices. -/
def imageBytes (n : Nat) : Nat := 64 + 8 * n + 16384

/-- The image is well formed (R372, R382). -/
def imageOk (s : State) (img : List Byte) : Bool :=
  let n := sliceN img 4 2
  sliceN img 0 4 == 0x52544231 && decide (1 ≤ n) && decide (n ≤ 1058) && decide (sliceN img 6 2 < n) && sliceN img 8 56 == 0
    && (List.range n).all (fun d => fieldN (sliceN img (64 + 8 * d) 8) 50 13 == 0)
    && (List.range 2048).all (fun g => fieldN (sliceN img (64 + 8 * n + 8 * g) 8) 37 26 == 0)
    && (s.current.isNone || sliceN img 6 2 == s.device)

/-- What a command reads, or its completion where the read fails. -/
def cmdRead (s : State) (c : Nat) (x : Cmd) (va n : Nat) (go : State → List Byte → State) : State :=
  let r := frontRead s x.asid va n
  match r.2 with
  | .bytes bs => go r.1 bs
  | .fault _ m => completeCmd r.1 c (statusOf m.cause)
  | .poisoned _ => completeCmd r.1 c 5
  | .unreachable _ => completeCmd r.1 c 6
  | .away loc => fetchLine (s.setCmd c x) x.asid loc (.cmd c)
  | .logged => r.1

def execRouteload (c : Nat) (s : State) : Host.Outcome State Fault Refusal :=
  onTopology s c 10 (fun x t =>
    let addr := sliceN x.bytes 8 8
    if !cmdClean x 16 || addr % 64 ≠ 0 || 2 ^ 50 < addr + 64 then completeCmd t c 1
    else cmdRead t c x addr 64 (fun t head =>
      let n := sliceN head 4 2
      if n = 0 || 1058 < n then completeCmd t c 20
      else if 2 ^ 50 < addr + imageBytes n then completeCmd t c 1
      else cmdRead t c x addr (imageBytes n) (fun t img =>
        if !imageOk t img then completeCmd t c 20
        else completeCmd { t with routes := setAt t.routes (spareGen t) (some img) } c 16)))

/-- The loaded generation, if there is one. -/
def loadedImage (s : State) : Option (List Byte) := (s.routes[spareGen s]?).getD none

/-- The loaded generation becomes current in one step, and DEVICE takes its SELF: unanswered requests keep their paths, and
new ones of their granules wait for them (R373, R383). -/
def makeCurrent (s : State) (img : List Byte) : State :=
  let g := spareGen s
  { s with current := some g, device := sliceN img 6 2, routes := setAt s.routes (1 - g) none
           sent := s.sent.map (fun e => (e.1, { e.2 with old := e.2.path.isSome })) }

/-- A ROUTESWAP that has read its semaphore: it swaps once the value has reached v. -/
def swapWhen (s : State) (c : Nat) (x : Cmd) (value : Nat) : State :=
  if value < sliceN x.bytes 16 8 then s
  else match loadedImage s with
    | none => completeCmd s c 21
    | some img => completeCmd (makeCurrent s img) c 16

/-- A read of the semaphore of a ROUTESWAP that has added its 1. -/
def readSwap (s : State) (c : Nat) (x : Cmd) : State :=
  let x := { x with begun := true, phase := 2 }
  match semAccess (s.setCmd c x) c x.asid (sliceN x.bytes 8 8) 0 0 1 with
  | .value u v => swapWhen u c x v
  | .fail u e => completeCmd u c (statusOf e)
  | .sent u => u

def execRouteswap (c : Nat) (s : State) : Host.Outcome State Fault Refusal :=
  onTopology s c 11 (fun x t =>
    if !semOk x || !cmdClean x 24 then completeCmd t c 1
    else if (loadedImage t).isNone then completeCmd t c 21
    else match semAccess (t.setCmd c { x with begun := true, phase := 1 }) c x.asid (sliceN x.bytes 8 8) 2 1 3 with
      | .value u _ => readSwap u c x
      | .fail u e => completeCmd u c (statusOf e)
      | .sent u => u)

/-- ROUTESWAP_SEMAPHORE_READ. -/
def execRouteswapSemaphoreRead (c : Nat) (s : State) : Host.Outcome State Fault Refusal :=
  match openCmd s c with
  | none => .next s
  | some x => if cmdOp x == 11 && x.phase == 2 && !cmdSent s c then .next (readSwap s c x) else .next s

end Sys2Proof.Machine
end

