-- ==== Sys2Proof/Machine/Fabric.lean ====
section
/-! DEFINITION. The device as a home and as a requester on the fabric: line operations, atomics, invalidations, bundles and
their versions, acknowledges and timeouts (R223, R239 to R244, R365, R372, R376 to R378, R383, R399). -/

namespace Sys2Proof.Machine

/-! ### Lines on their way home (R223, R377, R399) -/

/-- LINE_EVICTION: what an agent has closed of a line, and its grove's staging cache holds of it, is written at the home; none while the
die's clock stands still (R223, R356). -/
def evictLine (s : State) (k line : Nat) : State :=
  let a := s.agent k
  flushWhere (fun x => x / 128 == line) (pushWhere s a.grove k a.asid (fun x => x / 128 == line)) k

def execLineEviction (k line : Nat) (s : State) : Host.Outcome State Fault Refusal :=
  match Tab.find s.agents k with
  | none => .next s
  | some a => if dieStopped s a.die then .next s else .next (evictLine s k line)

/-- The held bytes of a line that its home has: those that a write carried and that have not changed since. -/
def releaseHeld (s : State) (ln : Nat) (mask : Nat) (data : List Byte) : State :=
  let gone := fun (e : Nat × Byte) => e.1 / 128 == ln && bitN mask (e.1 % 128 / 16) && byteAt data (e.1 % 128) == e.2
  let held := s.held.filter (fun e => !gone e)
  let left := held.any (fun e => e.1 / 128 == ln) || s.groves.any (fun g => g.2.staging.any (fun e => e.1 / 128 == ln))
  { s with held := held, covers := if left then s.covers else Tab.erase s.covers ln }

/-- The held bytes of a line of this device are written there, once no other device holds the line (R377). -/
def placeHeld (s : State) (ln : Nat) : State :=
  if lineShared s (ln % 2 ^ 33) then s
  else writeHome { s with held := s.held.filter (fun e => e.1 / 128 != ln) } (heldLine s ln)

/-- HELD_BYTES_PLACED: the held bytes of a line go to their home once it can be reached. -/
def execHeldBytesPlaced (line : Nat) (s : State) : Host.Outcome State Fault Refusal :=
  if homeOf (128 * line) == s.device then .next (placeHeld s line)
  else .next (pushHeld s 0xFFFFFFFF (lineAsid s line 0) line)

/-! ### The operations of other devices at this home (R365, R376, R377) -/

/-- The oldest operation received that meets a test, and the state without it. -/
def takeOp (s : State) (p : FabOp → Bool) : Option (FabOp × State) :=
  (s.inbox.find? p).map (fun o => (o, { s with inbox := s.inbox.erase o }))

/-- Perform the oldest operation received of one sort. -/
def onOp (s : State) (p : FabOp → Bool) (f : FabOp → State → State) : Host.Outcome State Fault Refusal :=
  match takeOp s p with
  | none => .next s
  | some (o, t) => .next (f o t)

/-- The line of this device that an operation addresses, by location. -/
def opLine (s : State) (o : FabOp) : Nat := (s.device * 2 ^ 40 + o.addr) / 128

/-- No earlier request of the same source, class and granule stands before an operation (R371). -/
def inOrder (s : State) (o : FabOp) : Bool :=
  !((s.inbox.takeWhile (· != o)).any (fun x => x.kind != 5 && x.src == o.src && x.tc == o.tc && x.addr / 256 == o.addr / 256))

/-- A pending version stands at a line. -/
def pendingAt (s : State) (line : Nat) : Bool := s.versions.any (fun v => v.line == line && !v.retained)

/-- Other devices must give up a line before an operation is performed: every holder for an atomic or a commit; every one but its
source for a write or an exclusive read; another owner for a shared read (R376, R377). -/
def mustRecall (s : State) (o : FabOp) : Bool :=
  match Tab.find s.directory (o.addr / 128) with
  | none => false
  | some h =>
    let others := (holdersOf s h).any (· != o.src)
    if o.kind = 3 || o.kind = 7 then true
    else if o.kind = 2 || bitN o.flags 0 then others
    else if 2 ≤ o.flags && pendingAt s (opLine s o) then true
    else match h with | .owner d => d != o.src | _ => false

/-- Perform the oldest operation received of one sort, once the devices that must give up its line have answered (R377). -/
def onLineOp (s : State) (p : FabOp → Bool) (f : FabOp → State → State) : Host.Outcome State Fault Refusal :=
  match s.inbox.find? (fun o => p o && inOrder s o && !recalling s (o.addr / 128)) with
  | none => .next s
  | some o =>
    if mustRecall s o then .next (recallLine s o.asid (o.addr / 128) (if o.kind ≤ 2 && o.flags < 2 then o.src else s.device))
    else .next (f o { s with inbox := s.inbox.erase o })

/-- A device takes a copy of a line: as its owner, as one of up to four pointers, or in the coarse vector that the fifth pointer
turns them into (R377). -/
def addHolder (s : State) (pa d : Nat) (exclusive : Bool) : State :=
  let bit := fun (m d : Nat) => m ||| 2 ^ groupOf s d
  let h : Holders := if exclusive then .owner d else match Tab.find s.directory pa with
    | none => .devices [d]
    | some (.owner e) => if e = d then .owner d else .devices [e, d]
    | some (.devices ds) =>
      if ds.contains d then .devices ds else if ds.length < 4 then .devices (ds ++ [d]) else .ports ((ds ++ [d]).foldl bit 0)
    | some (.ports m) => .ports (bit m d)
  { s with directory := Tab.put s.directory pa h }

/-- A line of this device as it is now. -/
def lineNow (s : State) (ln : Nat) : List Byte := (List.range 128).map (fun i => homeByte s (128 * ln + i))

/-- The current version of a line is returned, and its requester recorded; a poisoned line returns its status (R365, R394). -/
def answerLine (s : State) (o : FabOp) : State :=
  let pa := o.addr / 128
  if lineBad s 16 pa then replyTo s o (causeCode .memUncorrectable) []
  else replyTo (addHolder s pa o.src (bitN o.flags 0)) o 0 (lineNow s (opLine s o))

def execReadLine (s : State) : Host.Outcome State Fault Refusal :=
  onLineOp s (fun o => o.kind == 1 && o.flags / 2 == 0) (fun o t => answerLine t o)

/-- VERSION_FETCH: the named bundle's version, committed if it was pending, the retained one where it is that; else the current
one (R241). -/
def fetchVersion (s : State) (o : FabOp) : State :=
  let ln := opLine s o
  let s := commitVersion s o.asid o.arg ln
  match s.versions.find? (fun v => v.line == ln && v.retained && v.was == some o.arg) with
  | some v => if (Tab.get s.lineVer ln []).head? == some o.arg then answerLine s o
    else replyTo s o 0 (lineData (lineNow s ln) v.cells ln)
  | none => answerLine s o

def execVersionFetch (s : State) : Host.Outcome State Fault Refusal :=
  onLineOp s (fun o => o.kind == 1 && bitN o.flags 1) (fun o t => fetchVersion t o)

def execResolvingFetch (s : State) : Host.Outcome State Fault Refusal :=
  onLineOp s (fun o => o.kind == 1 && !bitN o.flags 1 && bitN o.flags 2) (fun o t => answerLine (resolveLine t o.asid (opLine t o)) o)

/-- The bytes of a write-line operation, by location. -/
def writtenCells (s : State) (o : FabOp) : Tab Byte :=
  ((o.data.zipIdx).filter (fun e => bitN o.arg (e.2 / 16))).map (fun e => (128 * opLine s o + e.2, e.1))

/-- A write line: its source holds the line no longer (R365, R377). -/
def writeLineOp (s : State) (o : FabOp) : State :=
  let cells := writtenCells s o
  let s := { s with directory := Tab.erase s.directory (o.addr / 128) }
  replyTo (writeLocal (softwareWrote s 0xFFFFFFFF (cells.map (·.1))) o.asid cells) o 0 []

def execWriteLine (s : State) : Host.Outcome State Fault Refusal := onLineOp s (fun o => o.kind == 2) (fun o t => writeLineOp t o)

/-- The key that stands for the agents of another device at this home. -/
def guestKey (o : FabOp) : Nat := 2 ^ 32 + o.src

/-- The number of bytes of an atomic operation, and what it makes of the memory value (R196 to R198, R365). -/
def atomicSize (o : FabOp) : Nat :=
  let c := fieldN o.arg 40 8
  if bitN o.arg 24 then 4 * 2 ^ (c % 8 - 2) else atomSzBytes (c / 8) (c % 8)
def atomicNew (o : FabOp) (m : Nat) : Option Nat :=
  let c := fieldN o.arg 40 8
  let n := atomicSize o
  if bitN o.arg 24 then (if m = sliceN o.data 0 n then some (sliceN o.data 64 n) else none)
  else if c / 8 = 0 then none else some (atomNew (c / 8) (c % 8) m (sliceN o.data 0 n))

/-- The barrier operation that an atomic of another device stands for (R231; log entry 73). -/
def guestBarrier (o : FabOp) : Option BarOp :=
  match fieldN o.arg 40 8 with
  | 0xF8 => some .read
  | 0xF9 => some (.init (sliceN o.data 0 8))
  | 0xFA => some (.arrive (sliceN o.data 0 8))
  | _ => none

/-- What a BQUERY of another device asks this one as the origin of a bundle (R252; log entries 32 and 73). -/
def guestQuery (s : State) (o : FabOp) : Option Nat :=
  match fieldN o.arg 40 8 with
  | 0xFB => some (bundleAnswer s false (sliceN o.data 0 8))
  | 0xFC => some (bundleAnswer s true (sliceN o.data 0 8))
  | _ => none

/-- An arrival of another device's agent at an object that stood as it was read; those of generations that are over go (R246). -/
def noteArrival (s : State) (loc : Nat) (old : List Byte) (op : BarOp) : State :=
  match op with
  | .arrive _ =>
    if expectBad old then s
    else { s with guestArrivals := ((loc, sliceN old 8 4) :: s.guestArrivals).dedup.filter (fun e => homeRead s (e.1 + 8) 4 == e.2) }
  | _ => s

/-- A strong access of another device at this home, and its answer (R197, R200, R231). -/
def guestAccess (s : State) (o : FabOp) (loc : Nat) : State :=
  match guestBarrier o with
  | some op =>
    let r := objectAct s (guestKey o) o.asid loc op
    (match r.err with
      | some c => replyTo r.s o (causeCode c) []
      | none => replyTo (noteArrival r.s loc r.old op) o 0 (r.old ++ List.replicate 64 0))
  | none =>
    let n := atomicSize o
    let r := strongAt s (guestKey o) o.asid loc n (atomicNew o)
    match r.err with
    | some c => replyTo r.s o (causeCode c) []
    | none => replyTo r.s o 0 (toBytes (if n ≤ 8 then 8 else 128) r.old)

/-- ATOMIC: the access at this home, and its old value; of a barrier operation, the object as it was; or what a BQUERY asks (R197, R200,
R231, R252). -/
def performAtomic (s : State) (o : FabOp) : State :=
  match guestQuery s o with
  | some v => replyTo s o 0 (toBytes 8 v)
  | none => guestAccess (flushAll s o.asid (s.device * 2 ^ 40 + o.addr)) o (s.device * 2 ^ 40 + o.addr)

def execAtomic (s : State) : Host.Outcome State Fault Refusal := onLineOp s (fun o => o.kind == 3) (fun o t => performAtomic t o)

/-- INVALIDATE: this device's copy of a line of the sender goes, and is returned where ownership is asked back; nor does the answer to
a read of it that is on its way leave one. -/
def execInvalidate (s : State) : Host.Outcome State Fault Refusal :=
  onOp s (fun o => o.kind == 4) (fun o t =>
    let ln := (o.src * 2 ^ 40 + o.addr) / 128
    let back := if bitN o.flags 0 then Tab.get t.peers ln [] else []
    let late := fun (x : Sent) => x.op.kind == 1 && !bitN x.op.flags 1 && x.dest == o.src && x.op.addr / 128 == o.addr / 128
    replyTo { t with peers := Tab.erase t.peers ln
                     sent := t.sent.map (fun e => if late e.2 then (e.1, { e.2 with op := { e.2.op with arg := 1 } }) else e) } o 0 back)

/-! ### Versions of other devices' bundles (R239, R242, R243, R378) -/

/-- The bytes of a pending pair: of the line, those that the mask names. -/
def pairCells (s : State) (m d : FabOp) : Tab Byte :=
  ((d.data.zipIdx).filter (fun e => bitN (sliceN m.data 0 16) e.2)).map (fun e => (128 * opLine s m + e.2, e.1))

/-- A pending version is placed beside the current one, or refused for want of room or while another bundle's version stands there.
The acknowledge carries the identity as its data. -/
def placePending (s : State) (m d : FabOp) : State :=
  let ln := opLine s m
  let v : Version := ⟨ln, m.arg, pairCells s m d, sliceN m.data 24 2, BitVec.ofNat 64 (sliceN m.data 16 8), false, none⟩
  let others := s.versions.filter (fun w => !(w.line == ln && w.ident == m.arg && !w.retained))
  if !takesVersion { s with versions := others } m.arg ln then
    replyTo (addRefusal s m.arg ln) m (causeCode .bundleLimit) (toBytes 8 m.arg)
  else
    replyTo { s with versions := others ++ [v], refusals := s.refusals.erase (sliceOfLine ln, m.arg) } m 0 (toBytes 8 m.arg)

/-- BUNDLE_PENDING: the mask form together with the data form that follows it. -/
def execBundlePending (s : State) : Host.Outcome State Fault Refusal :=
  match takeOp s (fun o => o.kind == 6 && bitN o.flags 0) with
  | none => .next s
  | some (m, t) =>
    match takeOp t (fun o => o.kind == 6 && !bitN o.flags 0 && o.src == m.src && o.arg == m.arg && o.addr == m.addr) with
    | none => .next t
    | some (d, u) => .next (placePending u m d)

/-- A commit: the bundle's pending version of the line becomes current, which is a write of software here (R239). -/
def commitOp (s : State) (o : FabOp) : State :=
  let ln := opLine s o
  let locs := ((s.versions.find? (fun v => v.line == ln && v.ident == o.arg && !v.retained)).map (fun v => v.cells.map (·.1))).getD []
  replyTo (commitVersion (softwareWrote s 0xFFFFFFFF locs) o.asid o.arg ln) o 0 []

def execBundleCommit (s : State) : Host.Outcome State Fault Refusal :=
  onLineOp s (fun o => o.kind == 7 && !bitN o.flags 0) (fun o t => commitOp t o)

/-- The retained old version of a line goes. -/
def dropRetained (s : State) (ident line : Nat) : State :=
  { s with versions := s.versions.filter (fun v => !(v.line == line && v.ident == ident && v.retained)) }

/-- A bundle is known to have settled, wherever it stands in a watch table (R241). -/
def noteSettled (s : State) (ident : Nat) : State :=
  let mark := fun (w : WatchEntry) => if w.ident = ident then { w with settled := true } else w
  { s with agents := s.agents.map (fun e => (e.1, { e.2 with watch := e.2.watch.map mark, folded := e.2.folded.map mark })) }

/-- A settle: the retained version goes; of a bundle that was withdrawn, the pending one (R239, R242; log entry 72). -/
def settleOp (s : State) (o : FabOp) : State :=
  let ln := opLine s o
  let s := if s.versions.any (fun v => v.line == ln && v.ident == o.arg && v.retained) then noteSettled (dropRetained s o.arg ln) o.arg
    else { s with versions := s.versions.filter (fun v => !(v.line == ln && v.ident == o.arg)) }
  replyTo s o 0 []

def execBundleSettle (s : State) : Host.Outcome State Fault Refusal :=
  onOp s (fun o => o.kind == 7 && bitN o.flags 0 && inOrder s o) (fun o t => settleOp t o)

/-! ### Bundles of this device (R239, R242, R244) -/

/-- The bytes of some lines are no longer the agent's own alone. -/
def unbundle (s : State) (k : Nat) (lines : List Nat) : State :=
  let mine := (s.agent k).bundled.filter (fun e => lines.contains (e.1 / 128))
  dropViews (s.modAgent k (fun a => { a with bundled := a.bundled.filter (fun e => !lines.contains (e.1 / 128)) })) k mine

/-- The commit of a bundle: its versions at this device become current in one step, over what was closed of their lines
before; other homes are told, and this device's copies of their lines are old. -/
def commitBundle (s : State) (id : Nat) (b : Bundle) : State :=
  let mine := bundleHomes s b true
  let away := bundleHomes s b false
  let asid := (s.agent b.agent).asid
  let s := mine.foldl (fun s ln => commitVersion (flushAll s asid (128 * ln)) asid b.ident ln) s
  let s := { unbundle s b.agent mine with
    bundles := Tab.put s.bundles id { b with state := .committed, unacked := away }, peers := s.peers.filter (fun e => !away.contains e.1) }
  (away.filter (fun ln => reachable s (homeOf (128 * ln)))).foldl (fun s ln => tellHome id b false s ln) s

/-- BUNDLE_COMMIT_SEND: the commit of a bundle whose versions are all placed, unless one of its homes cannot be reached; after it,
again for a line whose home has not answered and can be reached (R239, R244). -/
def execBundleCommitSend (id : Nat) (s : State) : Host.Outcome State Fault Refusal :=
  match Tab.find s.bundles id with
  | none => .next s
  | some b =>
    if b.state == .placed then
      (match b.lines.find? (fun ln => !reachable s (homeOf (128 * ln))) with
        | some ln => .next (abandonBundle s id ln b)
        | none => .next (commitBundle s id b))
    else if b.state == .committed then
      let silent := b.unacked.filter (fun ln => reachable s (homeOf (128 * ln)) && !(s.sent.any (fun e => e.2.why == .bundle id ln)))
      .next (silent.foldl (fun s ln => tellHome id b false s ln) s)
    else .next s

/-- Every home has applied the commit of a bundle; at this device, once no other device holds its lines. -/
def commitApplied (s : State) (b : Bundle) : Bool :=
  b.state == .committed && b.unacked.isEmpty && !(bundleHomes s b true).any (fun ln => recalling s (ln % 2 ^ 33))

/-- BUNDLE_SETTLE_SEND: every home has applied the commit. -/
def execBundleSettleSend (id : Nat) (s : State) : Host.Outcome State Fault Refusal :=
  match Tab.find s.bundles id with
  | none => .next s
  | some b =>
    if commitApplied s b then
      let s := (bundleHomes s b true).foldl (fun s ln => dropRetained s b.ident ln) s
      let s := { s with bundles := Tab.put s.bundles id { b with state := .settled } }
      .next ((bundleHomes s b false).foldl (fun s ln => tellHome id b true s ln) s)
    else .next s

/-- BUNDLE_WITHDRAWAL: 2 µs after its last refusal, a bundle's pending versions are discarded at its homes, and it is tried again
(R242). -/
def execBundleWithdrawal (id : Nat) (s : State) : Host.Outcome State Fault Refusal :=
  match Tab.find s.bundles id with
  | none => .next s
  | some b =>
    match b.refusedAt with
    | none => .next s
    | some t =>
      if b.state != .pending || s.reftime < t + 2000 then .next s
      else
        let s := discardVersions (logWithdrawal s b) id b
        .next (placeVersions { s with bundles := Tab.put s.bundles id { b with refusedAt := none, unacked := bundleHomes s b false } } id)

/-! ### Acknowledges (R195, R365, R377, R378) -/

/-- A value with n bytes from an octet on replaced. -/
def patchBytes (v b n x : Nat) : Nat := setFieldN v (8 * b) (8 * n) x

/-- A change of an agent's outstanding instruction of a token. -/
def editEntry (s : State) (k token : Nat) (f : LAEntry → LAEntry) : State :=
  s.modAgent k (fun a => { a with lahead := a.lahead.map (fun e => if e.token == token then f e else e) })

/-- Where the value of a lane stands in an entry. -/
def laneSlot (e : LAEntry) (l : Nat) : Nat := if isS e.dest then 0 else l

/-- The parts of a load that a line supplies. -/
def fillParts (parts : List (Nat × Nat × Nat × Nat)) (data : List Byte) (e : LAEntry) : LAEntry :=
  { e with values := parts.foldl (fun vs p =>
      setAt vs (laneSlot e p.1) (patchBytes ((vs[laneSlot e p.1]?).getD 0) p.2.1 p.2.2.1 (sliceN data p.2.2.2 p.2.2.1))) e.values }

/-- A request of an entry is answered. -/
def untag (tag : Nat) (e : LAEntry) : LAEntry := { e with tags := e.tags.filter (· != tag) }

/-- An error of some lanes of an entry, the first kept (R195, R372). -/
def failLanes (lanes : Mask) (c : Cause) (va : Nat) (e : LAEntry) : LAEntry :=
  { e with taint := e.taint ||| lanes, err := match e.err with | some x => some x | none => some (c, va) }

/-- What an agent has read in a phase of its: the present one, or an earlier one of which loads are outstanding (R227). -/
def phaseSeen (a : Agent) (p : Nat) : Tab Byte := if p = a.phase then a.seen else Tab.get a.olderSeen p []
def putPhase (a : Agent) (p : Nat) (t : Tab Byte) : Agent :=
  if p = a.phase then { a with seen := t } else { a with olderSeen := a.olderSeen.map (fun e => if e.1 == p then (p, t) else e) }

/-- A line that came, as the loads of a phase see it: bytes that the phase has read already keep their value, unless the line was asked for
as the version of a bundle (R227, R240). -/
def lineSeen (a : Agent) (p ln : Nat) (anew : Bool) (data : List Byte) : List Byte :=
  if anew then data else (List.range 128).map (fun o => (Tab.find (phaseSeen a p) (128 * ln + o)).getD (byteAt data o))

/-- What of it is not the agent's own becomes stable in the phase in which the load issued (R227). -/
def noteLine (seq p ln : Nat) (offs : List Nat) (data : List Byte) (a : Agent) : Agent :=
  let fresh := offs.filter (fun o => (ownByte a (128 * ln + o)).isNone)
  { putPhase a p (fresh.foldl (fun t o => Tab.put t (128 * ln + o) (byteAt data o)) (phaseSeen a p)) with lastObs := seq }

/-- A load's line has come. -/
def answerLoad (s : State) (tag ln k token va status : Nat) (anew : Bool) (parts : List (Nat × Nat × Nat × Nat)) (data : List Byte) : State :=
  if status = 0 then
    let a := s.agent k
    let p := ((a.lahead.find? (fun e => e.token == token)).map LAEntry.phase).getD a.phase
    let data := lineSeen a p ln anew data
    editEntry (s.modAgent k (noteLine s.strongSeq p ln ((parts.map (fun p => (List.range p.2.2.1).map (p.2.2.2 + ·))).flatten) data)) k token
      (fun e => untag tag (fillParts parts data e))
  else editEntry s k token (fun e => untag tag (failLanes (lanesMask (parts.map (·.1))) (causeOfCode status) va e))

/-- The cause of a status that a home returns for a strong access. -/
def strongCause (status : Nat) : Cause := if status = causeCode .mixedSize then .mixedSize else causeOfCode status

/-- The old value of a remote atomic has come: to one lane, or as the base of every lane's sum (R196, R201). -/
def answerAtomic (s : State) (tag k token va status old : Nat) (lane sum : Option Nat) : State :=
  let fill := fun (e : LAEntry) => match lane, sum with
    | some l, _ => { e with values := setAt e.values (laneSlot e l) (old % 2 ^ (32 * e.nreg)) }
    | none, some n => { e with values := e.values.map (fun v => (v + old) % 2 ^ (32 * n)) }
    | none, none => e
  if status = 0 then editEntry (s.modAgent k (fun a => { a with lastObs := s.strongSeq })) k token (fun e => untag tag (fill e))
  else editEntry s k token (fun e => untag tag (failLanes (match lane with | some l => lanesMask [l] | none => e.lanes) (strongCause status) va e))

/-- A compare-and-swap at another device's home has answered: where it wrote, its agent's older stores give way (R222). -/
def compareWrote (s : State) (k token old : Nat) (x : Sent) : State :=
  let n := atomicSize x.op
  if bitN x.op.arg 24 && old % 2 ^ (8 * n) == sliceN x.op.data 0 n then
    match (s.agent k).lahead.find? (fun e => e.token == token) with
    | some e => giveWay s k (x.dest * 2 ^ 40 + x.op.addr) n e.num
    | none => s
  else s

/-- An acquire over the fabric opens its agent's phase when its answer has come (R226, R232). -/
def acquired (s : State) (k : Nat) (o : FabOp) : State :=
  let x := fieldN o.arg 32 8
  if bitN x 2 && (Tab.find s.agents k).isSome then openPhase (drainAll s k) k (x % 4) else s

/-- The other device's line is held here as a peer line, unless an invalidation of it has come meanwhile (R376). -/
def keepLine (s : State) (ln status : Nat) (x : Sent) (data : List Byte) : State :=
  if x.op.kind = 1 && status = 0 && !bitN x.op.flags 1 && x.op.arg = 0 && data.length = 128 then { s with peers := Tab.put s.peers ln data } else s

/-- A cause that an agent reports later, once. -/
def addReport (c : Cause) (va : Nat) (a : Agent) : Agent :=
  if a.reports.contains (c, va) then a else { a with reports := a.reports ++ [(c, va)] }

/-- A line did not reach its home: the agent that sent it reports that, every agent whose close is to place it, and every COPY command that
wrote bytes of it, which then counts it as done (R296, R399). -/
def placeFailed (s : State) (k ln : Nat) (c : Cause) : State :=
  let js := s.agentsWhere (fun j b => j == k || (coversLine s j ln && b.closes.any (fun x => decide (2 ≤ x.scope) && x.begun)))
  let cs := s.copies.filter (fun e => e.2.cmd.isSome && coversLine s e.2.agent ln)
  let s := cs.foldl (fun s e => copyError s e.2 (causeCode c) (128 * ln)) s
  let s := { s with covers := s.covers.map (fun e => if e.1 == ln then (e.1, (e.2.1, e.2.2.filter (fun j => !cs.any (fun y => y.2.agent == j)))) else e) }
  js.foldl (fun s j => s.modAgent j (fun a => addReport c (Tab.get a.lineVa ln (128 * ln % 2 ^ 40)) a)) s

/-- A line is written back: the answer to a fetch of it, or to the write itself. -/
def answerPlace (s : State) (k ln status : Nat) (x : Sent) : State :=
  if status != 0 then placeFailed s k ln (causeOfCode status)
  else if x.op.kind = 1 then pushHeld s k x.op.asid ln
  else pushHeld (releaseHeld s ln x.op.arg x.op.data) k x.op.asid ln

/-- A home has answered a line of a bundle. -/
def answerBundle (s : State) (id ln status : Nat) : State :=
  match Tab.find s.bundles id with
  | none => s
  | some b =>
    if status != 0 then { s with bundles := Tab.put s.bundles id { b with refusedAt := some s.reftime } }
    else
      let b := { b with unacked := b.unacked.filter (· != ln) }
      let s := { s with bundles := Tab.put s.bundles id b }
      if b.state == .pending then placeVersions s id
      else if b.state == .committed then unbundle s b.agent [ln]
      else s

/-- A holder of a line has answered an invalidation, or has not in time: what it returns is written; after the last, the bytes that
waited are written, and what waited with them goes on (R377; log entry 29). -/
def answerRecall (s : State) (tag ln : Nat) (data : List Byte) : State :=
  let s := if data.length = 128 then writeHome s (data.zipIdx.map (fun e => (128 * ln + e.2, e.1))) else s
  let s := placeHeld s ln
  if s.agents.any (fun e => e.2.lahead.any (fun x => x.tags.contains tag)) then
    { s with agents := s.agents.map (fun e => (e.1, { e.2 with lahead := e.2.lahead.map (untag tag) })) }
  else s

/-- A command cannot have what it asked another device for: a LAUNCH's record earns its STATUS, another command completes with it
(R296, R300). -/
def failCmd (s : State) (c status : Nat) (y : Cmd) : State :=
  if cmdOp y = 1 && y.verdict.isNone then s.setCmd c { y with verdict := some status } else completeCmd s c status

/-- A command's request is answered (R297, R383). -/
def answerCmd (s : State) (c status : Nat) (old : Nat) (x : Sent) : State :=
  match openCmd s c with
  | none => s
  | some y =>
    if status != 0 then failCmd s c (statusOf (causeOfCode status)) y
    else if x.op.kind != 3 then s
    else if cmdOp y = 2 then completeCmd s c 0
    else if cmdOp y = 3 then (if condHolds y old then completeCmd s c 0 else s)
    else if cmdOp y = 11 then (if y.phase = 1 then readSwap s c y else swapWhen s c y old)
    else s

/-- A queue's slot could not be read (R295): it lies in a poisoned line, or its home cannot be reached and the take-up waits. -/
def loseSlot (s : State) (q : Nat) (c : Cause) : State :=
  if c == .fabricUnreachable then s.setQueue q { s.queue q with blocked := true } else stopQueue s q

/-- What was asked of another device could not be had: who asked takes the error when it comes to it (R195, R211, R279, R303, R305,
R372). -/
def loseLine (s : State) (ln : Nat) (c : Cause) (why : SentFor) : State :=
  match why with
  | .copyRead id => match Tab.find s.copies id with
    | none => s
    | some x => { s with copies := Tab.put s.copies id { x with lost := Tab.put x.lost ln (causeCode c) } }
  | .mat id => match Tab.find s.matCmds id with
    | none => s
    | some x => { s with matCmds := Tab.put s.matCmds id { x with lost := Tab.put x.lost ln (causeCode c) } }
  | .issue k => s.modAgent k (fun a => { a with lostLine := some (ln, c) })
  | .object k _ => s.modAgent k (fun a => { a with lostLine := some (ln, c) })
  | .slot q => loseSlot s q c
  | .dep g => match Tab.find s.grids g with
    | none => s
    | some x => failGrid s g x (statusOf c)
  | .doneBit g => earnStatus s g (statusOf c)
  | .coll ctx => s.setColl ctx { s.coll ctx with bad := true }
  | _ => s

/-- An answer from a home. -/
def answer (s : State) (x : Sent) (o : FabOp) : State :=
  let status := fieldN o.arg 40 8
  let ln := 2 ^ 33 * x.dest + x.op.addr / 128
  let old := ofBytes o.data
  let s := keepLine (dropSent s o.tag) ln status x o.data
  match x.why with
  | .load k token va parts => answerLoad s o.tag ln k token va status (x.op.flags != 0) parts o.data
  | .atomic k token lane va =>
    let s := if status = 0 then compareWrote s k token old x else s
    acquired (answerAtomic s o.tag k token va status old (some lane) none) k x.op
  | .query k token =>
    if status = 0 then editEntry s k token (fun e => untag o.tag { e with values := setAt e.values 0 (old % 2 ^ 32) })
    else editEntry s k token (fun e => untag o.tag (failLanes 1 (causeOfCode status) 0 e))
  | .atomicSum k token n va => acquired (answerAtomic s o.tag k token va status old none (some n)) k x.op
  | .place k => answerPlace s k ln status x
  | .red k va => if status = causeCode .mixedSize then s.modAgent k (addReport .mixedSize va) else s
  | .bundle id line => answerBundle s id line status
  | .recall pa => answerRecall s o.tag (s.device * 2 ^ 33 + pa) o.data
  | .cmd c => answerCmd s c status old x
  | .object k loc =>
    if status = 0 then s.modAgent k (fun a => { a with objects := Tab.put a.objects loc (o.data.take 64) })
    else loseLine s ln (strongCause status) x.why
  | .coll _ => if status = 0 || x.op.kind != 1 then s else loseLine s ln (causeOfCode status) x.why
  | why => if status = 0 then s else loseLine s ln (causeOfCode status) why

/-- An answer is that of the device asked; of an invalidation by multicast, each holder's counts, and the last ends it (R377). -/
def answerOf (s : State) (x : Sent) (o : FabOp) : State :=
  if x.answers.isEmpty then (if x.dest == o.src then answer s x o else s)
  else if !x.answers.contains o.src then s
  else
    let left := x.answers.filter (· != o.src)
    if left.isEmpty then answer s x o else { s with sent := Tab.put s.sent o.tag { x with answers := left } }

/-- ACKNOWLEDGE: the oldest reply received reaches its request; one that answers nothing is dropped. -/
def execAcknowledge (s : State) : Host.Outcome State Fault Refusal :=
  onOp s (fun o => o.kind == 5) (fun o t =>
    match Tab.find t.sent o.tag with
    | none => t
    | some x => answerOf t x o)

/-- A request has gone unanswered for the fabric timeout (R195, R211, R244, R372, R399). -/
def timedOut (s : State) (tag : Nat) (x : Sent) : State :=
  let ln := 2 ^ 33 * x.dest + x.op.addr / 128
  let s := dropSent s tag
  match x.why with
  | .load k token va parts => editEntry s k token (fun e => untag tag (failLanes (lanesMask (parts.map (·.1))) .fabricUnreachable va e))
  | .atomic k token lane va => editEntry s k token (fun e => untag tag (failLanes (lanesMask [lane]) .fabricUnreachable va e))
  | .atomicSum k token _ va => editEntry s k token (fun e => untag tag (failLanes e.lanes .fabricUnreachable va e))
  | .query k token => editEntry s k token (fun e => untag tag (failLanes 1 .fabricUnreachable 0 e))
  | .place k => placeFailed s k ln .fabricUnreachable
  | .red k va =>
    let loc := x.dest * 2 ^ 40 + x.op.addr
    let job : PostedJob := .red (fieldN x.op.arg 40 8) (fieldN x.op.arg 32 8) loc va (ofBytes x.op.data)
    let s := { s with posted := Tab.put s.posted (nextKey s.posted) ⟨k, x.op.asid, 0, job⟩ }
    if (s.agent k).closes.any (fun c => decide (2 ≤ c.scope) && c.begun) then s.modAgent k (addReport .fabricUnreachable va) else s
  | .bundle id line => match Tab.find s.bundles id with
    | none => s
    | some b => if b.state == .pending then abandonBundle s id line b else unbundle s b.agent [line]
  | .recall pa => answerRecall s tag (s.device * 2 ^ 33 + pa) []
  | .cmd c => match openCmd s c with
    | none => s
    | some y => failCmd s c 6 y
  | .coll _ => if x.op.kind = 1 then loseLine s ln .fabricUnreachable x.why else s
  | why => loseLine s ln .fabricUnreachable why

def execFabricTimeout (tag : Nat) (s : State) : Host.Outcome State Fault Refusal :=
  match Tab.find s.sent tag with
  | none => .next s
  | some x => if s.reftime < x.deadline then .next s else .next (timedOut s tag x)

end Sys2Proof.Machine
end

