-- ==== Sys2Proof/Machine/Collective.lean ====
section
/-! DEFINITION. The collective engine: its context registers, the shards it receives and relays, the slots of an all-to-all,
the sum of an all-reduce, and completion (R384 to R387). -/

namespace Sys2Proof.Machine

/-! ### The context registers (R385) -/

/-- A collective of the context has forked and not yet completed. -/
def Collective.forked (x : Collective) : Bool := x.busy || x.forks != 0
/-- CCCTL as it reads. -/
def ccctl (x : Collective) : Nat := 2 ^ 31 * b2n x.en + 2 ^ 30 * b2n x.forked + 2 ^ 29 * b2n x.err + x.asid

/-- What any write of CCCTL does: ERR clears where 1 is written, ASID changes while EN is 0. -/
def ccctlFields (x : Collective) (v : Nat) : Collective :=
  { x with err := x.err && !bitN v 29, asid := if x.en then x.asid else fieldN v 0 13 }

/-- A write that sets EN binds the record, and counts from zero; one while the context is bound binds nothing again. -/
def enableColl (s : State) (c v : Nat) : State :=
  if 64 ≤ c then s
  else
    let x := ccctlFields (s.coll c) v
    s.setColl c (if x.en then x else { x with en := true, unbind := false, runs := 0 })

/-- A write that clears EN unbinds at once, or when the running collective completes. -/
def disableColl (s : State) (c v : Nat) : State :=
  if 64 ≤ c then s
  else
    let x := ccctlFields (s.coll c) v
    s.setColl c (if x.forked then { x with unbind := x.en || x.unbind } else { x with en := false, unbind := false })

def execCcctlEnable (c : Nat) (v : Word) (s : State) : Host.Outcome State Fault Refusal := .next (enableColl s c v.toNat)
def execCcctlDisable (c : Nat) (v : Word) (s : State) : Host.Outcome State Fault Refusal := .next (disableColl s c v.toNat)

/-! ### Shards (R365, R387) -/

def shardCtx (o : FabOp) : Nat := fieldN o.arg 40 8
def shardRank (o : FabOp) : Nat := fieldN o.arg 24 16
def shardOff (o : FabOp) : Nat := fieldN o.arg 0 24

/-- COLLECTIVE_SHARD: a shard is received and acknowledged. It waits with its context until its slot, or until the collective has forked
here. -/
def execCollectiveShard (s : State) : Host.Outcome State Fault Refusal :=
  onOp s (fun o => o.kind == 8) (fun o t =>
    let c := shardCtx o % 64
    replyTo (t.setColl c { t.coll c with shards := (t.coll c).shards ++ [o] }) o 0 [])

/-- The first shard of a rank at an offset. -/
def findShard (x : Collective) (rank off : Nat) : Option FabOp := x.shards.find? (fun o => shardRank o == rank && shardOff o == off)

/-- The octets a rank has sent from an offset on, when all of n have come; and the shards without them. -/
def gather (x : Collective) (rank first n : Nat) : Option (List Byte) :=
  let os := (List.range ((n + 127) / 128)).map (fun k => findShard x rank (first + k))
  if os.all Option.isSome then some ((os.map (fun o => (o.map FabOp.data).getD [])).flatten.take n) else none
def dropShards (x : Collective) (rank first n : Nat) : Collective :=
  { x with shards := (List.range ((n + 127) / 128)).foldl (fun t k =>
      match t.find? (fun o => shardRank o == rank && shardOff o == first + k) with
      | some o => t.erase o
      | none => t) x.shards }

/-- No shard of a context is unacknowledged. -/
def shardsAcked (s : State) (c : Nat) : Bool := !(s.sent.any (fun e => e.2.why == .coll c))

/-- What the engine will write in its address space stands ready: DST is written only by a collective that completes without a failed
translation (R384, R385). -/
def collWrite (s : State) (c : Nat) (va : Nat) (bs : List Byte) : State :=
  s.setColl c { s.coll c with pend := (s.coll c).pend ++ [(va, bs)] }

/-- A shard that another rank sent in a slot is at hand: kept for DST, or not here yet. -/
def takeShard (s : State) (c i : Nat) : Option State :=
  let x := s.coll c
  let r := x.fork
  let n := collCount r
  let first := collRank r * (n / 128)
  (gather x i first n).map (fun bs => collWrite (s.setColl c (dropShards x i first n)) c (collDst r + i * n) bs)

/-- COLLECTIVE_SLOT_END: the slot's shards have been received and acknowledged: the partner's where it is a neighbour, and the
one of the slot before that an intermediate has forwarded (R387). -/
def endSlot (s : State) (c : Nat) : State :=
  let x := s.coll c
  let r := x.fork
  let due := fun (t : Nat) (near : Bool) => match collPartner (collRanks r) (collRank r) t with
    | none => []
    | some j => if neighbour s (x.rankmap.getD j 0) == near then [j] else []
  let want := due x.slot true ++ (if x.slot = 0 then [] else due (x.slot - 1) false)
  let got := want.foldl (fun (t : Option State) j => t.bind (fun t => takeShard t c j)) (some s)
  match got with
  | none => s
  | some t =>
    startSlot (t.setColl c { t.coll c with slot := x.slot + 1, sent := false }) c

def execCollectiveSlotEnd (c : Nat) (s : State) : Host.Outcome State Fault Refusal :=
  let s := startSlot (beginForks s) c
  let x := s.coll c
  if x.busy && !x.bad && collOp x.fork == 1 && x.sent && decide (x.slot ≤ collSlots (collRanks x.fork)) && shardsAcked s c then
    .next (endSlot s c)
  else .next s

/-! ### The sum of an all-reduce (R386) -/

/-- The root of the tree over at most 2,048 rank positions. -/
def rankTree (leaves : List Nat) : Nat :=
  let t := (List.range 11).foldl (fun (l : List (Option (Nat × Word))) _ => treeLevel l) (leaves.map (fun x => some (x, 0)))
  (((t.head?).getD none).map (·.1)).getD 0

/-- The octets of one element of the result, from the ranks' octets of it. A BF16 output is rounded once at the end, also that of a
sum of signed 32-bit integers (R386). -/
def reduceElem (ty : Nat) (es : List Nat) : List Byte :=
  let wide := ty / 128 % 2 = 1
  if ty % 128 = 2 then (if wide then toBytes 2 (cvtC 5 0 0 false (es.sum % 2 ^ 32)).1 else toBytes 4 (es.sum % 2 ^ 32))
  else
    let sum := rankTree (if ty % 128 = 1 then es.map (fun x => (cvtC 6 5 0 false x).1) else es)
    if wide then toBytes 2 (cvtC 5 6 0 false sum).1 else toBytes 4 sum

/-- DST of an all-reduce, from the ranks' sources. -/
def reduceBytes (r : List Byte) (srcs : List (List Byte)) : List Byte :=
  let e := collElem r
  ((List.range (collCount r)).map (fun k => reduceElem (collType r) (srcs.map (fun bs => sliceN bs (e * k) e)))).flatten

/-- The sources of all ranks, its own read from its memory. -/
def allSources (s : State) (c : Nat) (mine : List Byte) : Option (List (List Byte)) :=
  let x := s.coll c
  (List.range (collRanks x.fork)).foldr (fun i r =>
    match (if i = collRank x.fork then some mine else gather x i 0 (collBytes x.fork)), r with
    | some bs, some l => some (bs :: l)
    | _, _ => none) (some [])

/-! ### Completion (R384, R385) -/

/-- 1 is added to DONE by a strong release at `.f`, and START is set to 0. -/
def signalDone (s : State) (asid rec_ : Nat) : State :=
  let s := match xlate s 640 asid (rec_ + 48) .update false with
    | .error _ => s
    | .ok loc =>
      if homeOf loc == s.device then
        (strongAt (flushAll s asid loc) 0xFFFFFFFF asid loc 8 (fun m => some ((m + 1) % 2 ^ 64))).s
      else s
  (engineWrite s asid (rec_ + 40) (toBytes 4 0)).getD s

/-- What a collective has kept for DST is written: all of it, or none where the translation of a part fails. -/
def writeDst (s : State) (c : Nat) : State :=
  let x := s.coll c
  let ok := fun (e : Nat × List Byte) => (xlateRange s 640 x.asid e.1 e.2.length .write false).toOption.isSome
  if x.bad then s
  else if x.pend.all ok then x.pend.foldl (fun s e => (engineWrite s x.asid e.1 e.2).getD s) s
  else s.setColl c { x with bad := true }

/-- The collective completes: DST, counters, RUNS, ERR and its event when it was refused, and an unbinding that has waited. -/
def completeColl (s : State) (c : Nat) : State :=
  let s := writeDst s c
  let x := s.coll c
  let y := { x with busy := false, err := x.err || x.bad, bad := false, sent := false, slot := 0, fork := [], rankmap := [], pend := []
                    runs := (x.runs + 1) % 2 ^ 32, en := x.en && !(x.unbind && x.forks == 0), unbind := x.unbind && x.forks != 0 }
  let s := signalDone (s.setColl c y) x.asid x.recAddr.toNat
  if x.bad then logEvent s 0x70 c x.asid (toBytes 8 x.recAddr.toNat) else s

/-- The end of an all-reduce that has every rank's data. -/
def finishReduce (s : State) (c : Nat) : State :=
  let x := s.coll c
  let r := x.fork
  match engineRead s x.asid (collSrc r) (collBytes r) with
  | .away loc => fetchLine s x.asid loc (.coll c)
  | .fail => completeColl (s.setColl c { x with bad := true }) c
  | .bytes mine =>
    match allSources s c mine with
    | none => s
    | some srcs =>
      let y := ((List.range (collRanks r)).filter (· != collRank r)).foldl (fun y i => dropShards y i 0 (collBytes r)) x
      completeColl (collWrite (s.setColl c y) c (collDst r) (reduceBytes r srcs)) c

/-- The end of an all-to-all: a rank's own shard is copied locally. -/
def finishExchange (s : State) (c : Nat) : State :=
  let x := s.coll c
  let r := x.fork
  let o := collRank r * collCount r
  match engineRead s x.asid (collSrc r + o) (collCount r) with
  | .away loc => fetchLine s x.asid loc (.coll c)
  | .fail => completeColl (s.setColl c { x with bad := true }) c
  | .bytes bs => completeColl (collWrite s c (collDst r + o) bs) c

/-- COLLECTIVE_COMPLETION. -/
def execCollectiveCompletion (c : Nat) (s : State) : Host.Outcome State Fault Refusal :=
  let s := startSlot (beginForks s) c
  let x := s.coll c
  if !x.busy then .next s
  else if x.bad then .next (completeColl s c)
  else if !x.sent || !shardsAcked s c then .next s
  else if collOp x.fork = 0 then .next (finishReduce s c)
  else if x.slot = collSlots (collRanks x.fork) + 1 then .next (finishExchange s c)
  else .next s

end Sys2Proof.Machine
end

