-- ==== Sys2Proof/Machine/Digest.lean ====
section
/-! DEFINITION. SHA-256, which the boot ROM and the attestation report use on the configuration record and the images (R391,
R393). The spec names the function; its definition is that of FIPS 180-4 (log entry 4). -/

namespace Sys2Proof.Machine

/-- The 64 round constants, and the initial hash value. -/
def shaK : List Nat :=
  [0x428a2f98, 0x71374491, 0xb5c0fbcf, 0xe9b5dba5, 0x3956c25b, 0x59f111f1, 0x923f82a4, 0xab1c5ed5, 0xd807aa98, 0x12835b01,
   0x243185be, 0x550c7dc3, 0x72be5d74, 0x80deb1fe, 0x9bdc06a7, 0xc19bf174, 0xe49b69c1, 0xefbe4786, 0x0fc19dc6, 0x240ca1cc,
   0x2de92c6f, 0x4a7484aa, 0x5cb0a9dc, 0x76f988da, 0x983e5152, 0xa831c66d, 0xb00327c8, 0xbf597fc7, 0xc6e00bf3, 0xd5a79147,
   0x06ca6351, 0x14292967, 0x27b70a85, 0x2e1b2138, 0x4d2c6dfc, 0x53380d13, 0x650a7354, 0x766a0abb, 0x81c2c92e, 0x92722c85,
   0xa2bfe8a1, 0xa81a664b, 0xc24b8b70, 0xc76c51a3, 0xd192e819, 0xd6990624, 0xf40e3585, 0x106aa070, 0x19a4c116, 0x1e376c08,
   0x2748774c, 0x34b0bcb5, 0x391c0cb3, 0x4ed8aa4a, 0x5b9cca4f, 0x682e6ff3, 0x748f82ee, 0x78a5636f, 0x84c87814, 0x8cc70208,
   0x90befffa, 0xa4506ceb, 0xbef9a3f7, 0xc67178f2]
def shaH : List Nat :=
  [0x6a09e667, 0xbb67ae85, 0x3c6ef372, 0xa54ff53a, 0x510e527f, 0x9b05688c, 0x1f83d9ab, 0x5be0cd19]

/-- A 32-bit word rotated right. -/
def rotr32 (n x : Nat) : Nat := x / 2 ^ n + x % 2 ^ n * 2 ^ (32 - n)

/-- The next word of the message schedule, from the last sixteen, the oldest first. -/
def shaNext (w : List Nat) : Nat :=
  let a := w.getD 1 0
  let b := w.getD 14 0
  let s0 := rotr32 7 a ^^^ rotr32 18 a ^^^ a / 2 ^ 3
  let s1 := rotr32 17 b ^^^ rotr32 19 b ^^^ b / 2 ^ 10
  (w.getD 0 0 + s0 + w.getD 9 0 + s1) % 2 ^ 32

/-- One round: the eight working words and the last sixteen schedule words, with a round constant. -/
def shaRound (r : List Nat × List Nat) (k : Nat) : List Nat × List Nat :=
  let v := fun (i : Nat) => r.1.getD i 0
  let s1 := rotr32 6 (v 4) ^^^ rotr32 11 (v 4) ^^^ rotr32 25 (v 4)
  let ch := (v 4 &&& v 5) ^^^ ((2 ^ 32 - 1 - v 4) &&& v 6)
  let t1 := v 7 + s1 + ch + k + r.2.getD 0 0
  let s0 := rotr32 2 (v 0) ^^^ rotr32 13 (v 0) ^^^ rotr32 22 (v 0)
  let maj := (v 0 &&& v 1) ^^^ (v 0 &&& v 2) ^^^ (v 1 &&& v 2)
  ([(t1 + s0 + maj) % 2 ^ 32, v 0, v 1, v 2, (v 3 + t1) % 2 ^ 32, v 4, v 5, v 6], r.2.drop 1 ++ [shaNext r.2])

/-- The hash value after one block of 64 octets. -/
def shaBlock (h : List Nat) (block : List Byte) : List Nat :=
  let w := (List.range 16).map (fun i => ofBytesBE ((block.drop (4 * i)).take 4))
  List.zipWith (fun x y => (x + y) % 2 ^ 32) h (shaK.foldl shaRound (h, w)).1

/-- A message with its padding, of whole blocks. -/
def shaPad (bs : List Byte) : List Byte :=
  [bs, [0x80], List.replicate ((119 - bs.length % 64) % 64) 0, toBytesBE 8 (8 * bs.length)].flatten

/-- SHA-256 of octets: 32 octets. -/
def sha256 (bs : List Byte) : List Byte :=
  let m := shaPad bs
  let h := (List.range (m.length / 64)).foldl (fun h i => shaBlock h ((m.drop (64 * i)).take 64)) shaH
  (h.map (toBytesBE 4)).flatten

end Sys2Proof.Machine
end

