-- ==== Sys2Proof/Machine/Ports.lean ====
section
/-! DEFINITION. The optical ports and the packet switch: frames received, link-level retry, port width, and wavelengths (R362
to R375). -/

namespace Sys2Proof.Machine

/-! ### Link-level retry (R367) -/

/-- Frames that are sent once more are counted. -/
def countResent (x : Port) (n : Nat) : Port := { x with retries := min 0xFFFF (x.retries + n) }

/-- The frames that a port holds, from the n-th on, are sent again. -/
def resendFrom (now n : Nat) (x : Port) : Port :=
  { countResent x (x.replay.length - n) with replay := x.replay.take n ++ (x.replay.drop n).map (fun f => { f with since := now }) }

/-- How many frames LINK of a received frame acknowledges; none when it acknowledges nothing that is held. -/
def ackedBy (x : Port) (link : Nat) : Option Nat :=
  let first := (x.txSeq + 512 - x.replay.length) % 512
  let n := (link / 128 + (if bitN link 5 then 0 else 1) + 512 - first) % 512
  if !bitN link 6 || x.replay.length < n then none else some n

/-- LINK of a received frame: the frames it acknowledges leave the replay buffer, and their branches are over; NAK has the rest
sent again from the SEQ it expects (R367, R375). -/
def takeLink (s : State) (p link : Nat) : State :=
  let x := s.port p
  match ackedBy x link with
  | none => s
  | some n =>
    let y := { x with replay := x.replay.drop n }
    dropBranches (s.setPort p (if bitN link 5 then resendFrom s.reftime 0 y else y)) ((x.replay.take n).map SentFrame.multi)

/-- The first frame of a port that has gone unacknowledged for 4 µs since it was last sent. -/
def lateFrame (now : Nat) (x : Port) : Option Nat := x.replay.findIdx? (fun f => decide (f.since + 4000 ≤ now))

/-- LINK_REPLAY_TIMEOUT: everything from the first such frame on is sent again. -/
def execLinkReplayTimeout (p : Nat) (s : State) : Host.Outcome State Fault Refusal :=
  if 36 ≤ p || (s.port p).pstate = 0 then .next s
  else match lateFrame s.reftime (s.port p) with
    | none => .next s
    | some n => .next (s.setPort p (resendFrom s.reftime n (s.port p)))

/-- EMPTY_ACK_FRAME: a frame without operations, for the next device only, carries what is due. -/
def execEmptyAckFrame (p : Nat) (s : State) : Host.Outcome State Fault Refusal :=
  let x := s.port p
  let raw := rawFrame ⟨0x7FF, 0x7FF, 7, 2, false, s.device, 0⟩ []
  if 36 ≤ p || x.pstate = 0 || !(x.ackDue || x.nakDue) || 256 ≤ x.replay.length then .next s
  else .next (s.setPort p (sendRaw s.reftime x ⟨raw, 0, true, none⟩ raw))

/-! ### Forwarding (R364, R371, R374, R375) -/

/-- Operations are delivered to this device. -/
def deliver (s : State) (ops : List FabOp) : State := { s with inbox := s.inbox ++ ops }

/-- A unicast frame goes on: toward VIA until it has passed it, then toward DEST; a port that is not up takes none. Its hop stage the
header does not carry: the model takes 1 on the way to VIA and 2 after it (R366, R380; log entry 74). -/
def forwardUnicast (s : State) (h : FrameHead) (octets : List Byte) : State :=
  let passed := h.hop || h.via == s.device
  let target := if passed || h.via == h.dest then h.dest else h.via
  let h := { h with hop := h.hop || (h.via == s.device && h.via != h.dest) }
  if bitN (routeEntry s target) 63 && portUp s (minPort s target) then
    queueFrame s (minPort s target) ⟨rawFrame h octets, if passed then 2 else 1, false, none⟩
  else s

/-- A multicast frame is stored once, for the branches of its group whose ports are up, each with its own queue reference; then it is
delivered here where LOCAL is set (R375). -/
def forwardGroup (s : State) (h : FrameHead) (ops : List FabOp) (octets : List Byte) : State :=
  let e := groupEntry s h.dest
  if !bitN e 63 then s
  else
    let ports := (List.range 36).filter (fun p => bitN e p && portUp s p)
    let m := nextKey s.multicasts
    let s := if ports.isEmpty then s else { s with multicasts := Tab.put s.multicasts m ⟨rawFrame h octets, ports.length, false⟩ }
    let s := ports.foldl (fun s p => queueFrame s p ⟨[], 1, false, some m⟩) s
    if bitN e 36 then deliver s ops else s

/-- An accepted frame is delivered or forwarded; without a current generation there are only management frames (R373). -/
def routeFrame (s : State) (h : FrameHead) (ops : List FabOp) (octets : List Byte) : State :=
  if h.mode = 3 then forwardGroup s h ops octets
  else if h.dest = 0x7FF || s.current.isNone then s
  else if h.dest = s.device then deliver s ops
  else forwardUnicast s h octets

/-- A frame that goes on from here finds no room in the transit pool (R374). -/
def noTransit (s : State) (h : FrameHead) (octets : List Byte) : Bool :=
  (h.mode == 3 || (h.dest != 0x7FF && h.dest != s.device)) && decide (poolOctets < poolUsed s false + (rawFrame h octets).length)

/-- FRAME_RECEIVED. A frame for which the transit pool has no room is not accepted, and its sender sends it again (R367, R374; log
entry 74). -/
def receiveFrame (s : State) (p : Nat) (bs : List Byte) : State :=
  let x := s.port p
  if !fcsOk bs then s.setPort p { x with nakDue := true }
  else match frameParse bs with
    | none => s.setPort p { x with drops := min 255 (x.drops + 1) }
    | some ops =>
      let h := readHead bs
      if h.seq != x.rxSeq then s.setPort p { x with nakDue := true }
      else if noTransit s h (frameOps bs) then s
      else
        let s := takeLink (s.setPort p { x with rxSeq := (x.rxSeq + 1) % 512, ackDue := true }) p (frameLink bs)
        routeFrame (endDrain (refillPort s p) p) h ops (frameOps bs)

def execFrameReceived (p : Nat) (bs : List Byte) (s : State) : Host.Outcome State Fault Refusal :=
  if 36 ≤ p || (s.port p).pstate = 0 then .next s else .next (receiveFrame s p bs)

/-! ### Width (R368) -/

def execPortWiden (p : Nat) (s : State) : Host.Outcome State Fault Refusal :=
  let x := s.port p
  if decide (p < 36) && decide (2 ≤ x.pstate) && x.band == 2 && decide (x.bandSince + 1000 ≤ s.reftime) && x.nextWidth.isNone
      && decide (x.width < widestFor (countBits x.lmask 8)) then .next (decideWidth s p (x.width + 1))
  else .next s

def execPortNarrow (p : Nat) (s : State) : Host.Outcome State Fault Refusal :=
  let x := s.port p
  if decide (p < 36) && decide (2 ≤ x.pstate) && x.band == 0 && decide (x.bandSince + 20000 ≤ s.reftime)
      && decide (x.floor < x.width) then .next (decideWidth s p (x.width - 1))
  else .next s

def execPortWidthTakesEffect (p : Nat) (s : State) : Host.Outcome State Fault Refusal :=
  let x := s.port p
  match x.nextWidth with
  | none => .next s
  | some w => if s.reftime < x.widenAt then .next s else .next (s.setPort p { x with width := w, nextWidth := none })

/-! ### Wavelengths (R369, R370, R396) -/

/-- A port goes down: what it had queued and not had acknowledged is lost, and the branches among it are dropped (R367, R375). -/
def portDown (s : State) (p : Nat) : State :=
  let lost := (s.port p).out.map OutFrame.multi ++ (s.port p).replay.map SentFrame.multi
  let x : Port := { s.port p with out := [], replay := [] }
  let s := dropBranches { s with backlog := s.backlog.filter (fun e => e.1 != p) } lost
  if x.pstate = 3 then endDrain (s.setPort p x) p else s.setPort p { x with pstate := 0 }

/-- WAVELENGTH_LOSS: the wavelength is gated off, and the port narrows to what the rest support. -/
def loseWavelength (s : State) (p wl cause : Nat) : State :=
  let x := s.port p
  let m := x.lmask - 2 ^ wl
  let w := min x.width (widestFor (countBits m 8))
  let next := match x.nextWidth with
    | some v => if v ≤ widestFor (countBits m 8) then some v else none
    | none => none
  let s := logEvent s 0x20 p 0 ([BitVec.ofNat 8 wl, BitVec.ofNat 8 cause] : List Byte)
  let s := s.setPort p { x with lmask := m, width := w, nextWidth := next }
  let s := if w < x.width then sendManagement (logEvent s 0x21 p 0 ([BitVec.ofNat 8 x.width, BitVec.ofNat 8 w] : List Byte)) p 1 w else s
  if countBits m 8 < 2 && decide (2 ≤ x.pstate) then portDown s p else s

def execWavelengthLoss (p wl cause : Nat) (s : State) : Host.Outcome State Fault Refusal :=
  if decide (p < 36) && decide (wl < 8) && decide (cause < 2) && bitN (s.port p).lmask wl then .next (loseWavelength s p wl cause)
  else .next s

/-- WAVELENGTH_RELOCK: LMASK regains a wavelength that was lost, on a port that its loss has taken down too; one that has never been
trained has lost none (R370). -/
def execWavelengthRelock (p wl orders : Nat) (s : State) : Host.Outcome State Fault Refusal :=
  let x := s.port p
  if 36 ≤ p || 8 ≤ wl || bitN x.lmask wl || x.neigh = 0x7FF then .next s
  else
    let s := logEvent s 0x22 p 0 ([BitVec.ofNat 8 wl, BitVec.ofNat 8 orders] : List Byte)
    .next (s.setPort p { x with lmask := x.lmask + 2 ^ wl, relocks := min 255 (x.relocks + 1) })

/-! ### The port registers (R369) -/

/-- FPCTL and FPCNT as they read, and their writes. -/
def fpctl (x : Port) : Nat :=
  x.pstate * 2 ^ 30 + x.neigh * 2 ^ 18 + x.lmask * 2 ^ 8 + x.width * 2 ^ 4 + x.floor
def fpcnt (x : Port) : Nat := x.retries * 2 ^ 16 + x.relocks * 2 ^ 8 + x.drops
def writeFpctl (s : State) (p v : Nat) : State := s.setPort p { s.port p with floor := v % 4 }
/-- RW1C: a bit written 1 is cleared. -/
def clearBits (x v n : Nat) : Nat := (BitVec.ofNat n x &&& ~~~(BitVec.ofNat n v)).toNat
def writeFpcnt (s : State) (p v : Nat) : State :=
  let x := s.port p
  s.setPort p { x with retries := clearBits x.retries (fieldN v 16 16) 16, relocks := clearBits x.relocks (fieldN v 8 8) 8
                       drops := clearBits x.drops (fieldN v 0 8) 8 }

end Sys2Proof.Machine
end

