-- ==== Sys2Proof/Machine/Interposer.lean ====
section
/-! DEFINITION. The photonic interposer's pairs (R339 to R350), the dies' clocks (R351 to R356), power and temperature (R157,
R312, R357 to R360), and the errors of the memories (R394, R396). -/

namespace Sys2Proof.Machine

/-! ### Pairs of ports (R339, R346 to R350) -/

def srcPort (sel : Nat) : Nat := sel / 17
def dstPort (sel : Nat) : Nat := sel % 17
/-- A selector names a pair (R347). -/
def pairOf (sel : Nat) : Bool := decide (sel ≤ 288) && srcPort sel != dstPort sel

/-- A pair, at its own routing of the configuration record until written (R347, R392). -/
def State.pair (s : State) (sel : Nat) : Pair :=
  Tab.get s.pairs sel { Pair.reset with mode := Tab.get s.record.modes sel s.record.mode, relayk := Tab.get s.record.relayks sel s.record.relayk }
def State.setPair (s : State) (sel : Nat) (p : Pair) : State := { s with pairs := Tab.put s.pairs sel p }

/-- A relay is usable for a pair (R348). -/
def relayUsable (s : State) (sel k : Nat) : Bool :=
  decide (k ≤ 16) && k != srcPort sel && k != dstPort sel
    && decide ((s.pair (17 * srcPort sel + k)).active ≤ 1) && decide ((s.pair (17 * k + dstPort sel)).active ≤ 1)

/-- The relay that a pair with both colours lost goes through, if any. -/
def relayOf (s : State) (sel : Nat) : Option Nat :=
  let k := (s.pair sel).relayk
  if relayUsable s sel k then some k else (List.range 17).find? (relayUsable s sel)

/-- The routing that R348 chooses for a pair. -/
def routing (s : State) (sel : Nat) : Nat :=
  let p := s.pair sel
  if !p.alost && !p.blost then 0
  else if p.alost && p.blost then (if (relayOf s sel).isSome then 3 else 4)
  else if p.mode = 1 && relayUsable s sel p.relayk then 2 else 1

/-- Every pair's routing is chosen again; a pair whose ACTIVE would change drains, and one that drains already ends with the
routing now chosen (R348, R349). -/
def reroute (s : State) : State :=
  { s with pairs := s.pairs.map (fun e =>
      let r := routing s e.1
      (e.1, if e.2.next.isSome || r != e.2.active then { e.2 with next := some r } else e.2)) }

/-- A flit whose replays have failed sixteen times running on a colour (R346). -/
def replaysFailed (p : Pair) (colour : Nat) : Bool := p.tries.any (fun e => e.1 % 2 == colour && decide (16 ≤ e.2))

/-- COLOUR_LOST (R346). A loss to replays takes sixteen failed ones of one flit. -/
def execColourLost (sel colour cause : Nat) (s : State) : Host.Outcome State Fault Refusal :=
  let p := s.pair sel
  let lost := if colour = 0 then p.alost else p.blost
  if !pairOf sel || decide (1 < colour) || decide (3 < cause) || lost || (cause == 3 && !replaysFailed p colour) then .next s
  else
    let n := min 255 (p.losts + 1)
    let p' : Pair := { p with alost := p.alost || colour == 0, blost := p.blost || colour == 1, losts := n, bgated := false
                              tries := p.tries.filter (fun e => e.1 % 2 != colour) }
    .next (reroute (logEvent (s.setPair sel p') 0x10 sel 0 (toBytes 1 colour ++ toBytes 1 cause ++ toBytes 1 n)))

/-- A colour of a pair is lost. -/
def Pair.lost (p : Pair) (colour : Nat) : Bool := if colour = 0 then p.alost else p.blost

/-- Every flit of a pair that has been sent, and has failed, was sent last on a colour that is lost by now: no other one is still
unacknowledged (R349). -/
def Pair.drained (p : Pair) : Bool := p.failed.all (fun e => p.lost e.2)

/-- A drained pair's routing changes: the flits that have not come are marked, and sent again first; with no path all are discarded
(R348, R349). -/
def Pair.switch (p : Pair) (r : Nat) : Pair :=
  if r = 4 then { p with active := r, next := none, failed := [], marked := [], early := [], tries := [] }
  else { p with active := r, next := none, marked := p.failed.map (·.1) }

/-- PAIR_DRAIN_END (R349): the routing chosen takes effect, which may change that of others; not while a flit sent on a colour that is
not lost is unacknowledged. -/
def execPairDrainEnd (sel : Nat) (s : State) : Host.Outcome State Fault Refusal :=
  let p := s.pair sel
  match (if p.drained then p.next else none) with
  | none => .next s
  | some r =>
    let s' := s.setPair sel (p.switch r)
    let k := if r = 2 then p.relayk else if r = 3 then (relayOf s sel).getD 255 else 255
    .next (reroute (if r = p.active then s' else logEvent s' 0x11 sel 0 (toBytes 1 p.active ++ toBytes 1 r ++ toBytes 1 k)))

/-- ROUTE_PAIR as it reads (R347). -/
def readRoutePair (s : State) (sel : Nat) : Nat :=
  if !pairOf sel then 0
  else
    let p := s.pair sel
    2 ^ 30 * b2n p.blost + 2 ^ 29 * b2n p.alost + 2 ^ 26 * p.active + 2 ^ 16 * p.relayk + 2 ^ 8 * p.mode + p.losts

/-- A write of MODE and RELAYK (R347, R350). -/
def writeRoutePair (s : State) (sel value : Nat) : State :=
  if !pairOf sel then s
  else
    let p := s.pair sel
    let mode := fieldN value 8 2
    reroute (s.setPair sel { p with relayk := fieldN value 16 5, mode := if mode ≤ 1 then mode else p.mode })

/-- A relock of the lost colours starts (R350). -/
def startRetrain (s : State) (sel : Nat) : State :=
  let p := s.pair sel
  if pairOf sel && (p.alost || p.blost) then s.setPair sel { p with retraining := b2n p.alost + 2 * b2n p.blost } else s

/-- The whole of a write of ROUTE_PAIR. -/
def routePairValue (s : State) (sel value : Nat) : State :=
  let s := writeRoutePair s sel value
  if bitN value 24 then startRetrain s sel else s

def execRoutePairWrite (sel : Nat) (value : Word) (s : State) : Host.Outcome State Fault Refusal :=
  .next (writeRoutePair s sel value.toNat)
def execRoutePairRetrain (sel : Nat) (s : State) : Host.Outcome State Fault Refusal := .next (startRetrain s sel)

/-- PAIR_RETRAIN_END: of the colours under retrain, those that relocked are lost no more. -/
def execPairRetrainEnd (sel relocked : Nat) (s : State) : Host.Outcome State Fault Refusal :=
  let p := s.pair sel
  if p.retraining = 0 then .next s
  else
    let ok := relocked &&& p.retraining
    let a := p.alost && !bitN ok 0
    let b := p.blost && !bitN ok 1
    let s := s.setPair sel { p with alost := a, blost := b, retraining := 0 }
    .next (reroute (logEvent s 0x12 sel 0 (toBytes 1 ok ++ toBytes 1 (b2n a + 2 * b2n b))))

/-- COLOUR_B_GATE_OFF and COLOUR_B_WAKE (R345): a package with gating, colour A present. -/
def execColourBGateOff (sel : Nat) (s : State) : Host.Outcome State Fault Refusal :=
  let p := s.pair sel
  if s.record.gating && pairOf sel && !p.alost && !p.blost then .next (s.setPair sel { p with bgated := true }) else .next s
def execColourBWake (sel : Nat) (s : State) : Host.Outcome State Fault Refusal :=
  if pairOf sel then .next (s.setPair sel { (s.pair sel) with bgated := false }) else .next s

/-- The number of the next flit of a class that D waits for, once those that came ahead of their turn follow (R342). -/
def pastEarly (early : List Nat) (cls : Nat) : Nat → Nat → Nat
  | 0, n => n
  | fuel + 1, n => if early.contains (4 * n + cls) then pastEarly early cls fuel (n + 1) else n

/-- A flit arrives good: in its turn it is delivered, and those held behind it follow; ahead of its turn D holds it (R342). Its failures
are over (R346). -/
def Pair.arrived (p : Pair) (f : Flit) : Pair :=
  let key := 4 * f.seq + f.cls
  let next := Tab.get p.recvSeq f.cls 0
  let p := { p with failed := Tab.erase p.failed key, marked := p.marked.filter (· != key), tries := p.tries.filter (fun e => e.1 / 2 != key) }
  if f.seq = next then
    let n := pastEarly p.early f.cls p.early.length (next + 1)
    { p with recvSeq := Tab.put p.recvSeq f.cls n, early := p.early.filter (fun k => !(k % 4 == f.cls && decide (k / 4 < n))) }
  else { p with early := p.early ++ [key] }

/-- A flit of a class and number arrives on a colour: one that has been delivered, or that D holds, is discarded; one that fails its CRC
is to be replayed, and its failed replays on the colour are counted (R341, R342, R346, R349). -/
def Pair.flit (p : Pair) (f : Flit) (ok : Bool) : Pair :=
  let key := 4 * f.seq + f.cls
  if f.seq < Tab.get p.recvSeq f.cls 0 || p.early.contains key then p
  else if ok then p.arrived f
  else if (Tab.find p.failed key).isSome then
    { p with failed := Tab.put p.failed key f.colour, tries := Tab.put p.tries (2 * key + f.colour) (Tab.get p.tries (2 * key + f.colour) 0 + 1) }
  else { p with failed := Tab.put p.failed key f.colour }

/-- FLIT_RECEIVED (R341, R342, R348, R349): a pair without a path discards it. -/
def execFlitReceived (sel : Nat) (f : Flit) (ok : Bool) (s : State) : Host.Outcome State Fault Refusal :=
  if !pairOf sel || decide (3 < f.cls) || decide (1 < f.colour) || (s.pair sel).active == 4 then .next s
  else .next (s.setPair sel ((s.pair sel).flit f ok))

/-! ### Clocks (R351 to R356) -/

/-- NCYC and its residue as a restart at frequency f2 would set them now (R354). -/
def ncycAt (now t0 n0 r0 f1 : Nat) : Nat := (n0 + (10 * r0 + 19 * f1 * (now - t0)) / (10 * f1)) % 2 ^ 64
def resAt (now t0 r0 f1 f2 : Nat) : Nat := (10 * r0 + 19 * f1 * (now - t0)) % (10 * f1) * f2 / (10 * f1)

/-- A die's copy of REFTIME (R353). -/
def refCopy (s : State) (d : Nat) : Nat := s.reftime + (Config.dieSkew d).toNat % 5 - 2

/-- NCYC of a die: during a relock, what a restart at this moment would give (R355). -/
def readNcyc (s : State) (d : Nat) : Nat :=
  let x := s.die d
  match x.relock with
  | none => x.ncyc
  | some (t0, n0, r0, f1) => ncycAt s.reftime t0 n0 r0 f1
def readFreq (s : State) (d : Nat) : Nat := 65536 * b2n (s.die d).relock.isSome + (s.die d).mhz % 4096

/-- The clock of a die stops for a relock to a frequency. A decision that waits stays (R351). -/
def beginRelock (s : State) (d f : Nat) : State :=
  let x := s.die d
  s.setDie d { x with relock := some (s.reftime, x.ncyc, x.res, x.mhz), mhz := f, lastRelock := some s.reftime }

/-- A frequency that a canopy die can take (R351). -/
def freqOk (f : Nat) : Bool := f % 25 == 0 && decide (600 ≤ f) && decide (f ≤ 2200)

/-- FREQUENCY_DECISION: the most recent decision stands until its relock begins; in an emergency the die is held. -/
def execFrequencyDecision (d mhz : Nat) (s : State) : Host.Outcome State Fault Refusal :=
  let x := s.die d
  if 8 ≤ d || !freqOk mhz || x.emergency then .next s else .next (s.setDie d { x with wanted := some mhz })

/-- RELOCK_START (R351): a decision whose time has come; one for the frequency in force makes no relock. -/
def execRelockStart (d : Nat) (s : State) : Host.Outcome State Fault Refusal :=
  let x := s.die d
  let due := match x.lastRelock with | none => true | some t => decide (t + 100000 ≤ s.reftime)
  match x.wanted with
  | none => .next s
  | some f =>
    if 8 ≤ d || x.relock.isSome || !due then .next s
    else if f = x.mhz then .next (s.setDie d { x with wanted := none })
    else .next (beginRelock (s.setDie d { x with wanted := none }) d f)

/-- RELOCK_END (R354): NCYC is carried across; an emergency that began meanwhile relocks the die again, to 600 MHz (R351). -/
def execRelockEnd (d : Nat) (s : State) : Host.Outcome State Fault Refusal :=
  let x := s.die d
  match x.relock with
  | none => .next s
  | some (t0, n0, r0, f1) =>
    let s := s.setDie d { x with relock := none, ncyc := ncycAt s.reftime t0 n0 r0 f1, res := resAt s.reftime t0 r0 f1 x.mhz, rest := 0
                                 emergencyDue := false }
    .next (if x.emergencyDue then beginRelock s d 600 else s)

/-! ### Power and temperature (R157, R312, R357 to R360) -/

/-- ALLOW for a temperature in 1/16 °C (R359). -/
def allowOf (temp : Nat) : Nat := min 256 (max 32 (256 + 28 * 90 - 28 * (temp / 16)))

/-- A core has reached 105 °C: its die relocks to 600 MHz at once, or when a relock in progress ends (R351, R359). -/
def startEmergency (s : State) (c t : Nat) : State :=
  let d := c / 64
  let x := s.die d
  let s := s.setDie d { x with emergency := true, wanted := none, emergencyDue := x.relock.isSome }
  logEvent (if x.relock.isSome || x.mhz == 600 then s else beginRelock s d 600) 0x30 d 0 (toBytes 2 c ++ toBytes 2 t)

/-- Every core of a die is below 95 °C: the emergency ends, and the die stays at 600 MHz (R359). -/
def endEmergency (s : State) (d t : Nat) : State :=
  logEvent (s.setDie d { (s.die d) with emergency := false }) 0x31 d 0 (toBytes 2 t)

/-- The temperatures of a die's cores begin or end its emergency. -/
def judgeDie (s : State) (d : Nat) : State :=
  let temps := (List.range 64).map (fun j => (s.core (64 * d + j)).temp)
  if (s.die d).emergency then (if temps.foldl max 0 < 1520 then endEmergency s d (temps.foldl max 0) else s)
  else match (List.range 64).find? (fun j => decide (1680 ≤ (s.core (64 * d + j)).temp)) with
    | some j => startEmergency s (64 * d + j) (s.core (64 * d + j)).temp
    | none => s

/-- The cores with the temperatures of their sensors, which the spec leaves to the part (log entry 1), and ALLOW after them. -/
def senseCores (s : State) : Tab Core :=
  (List.range 512).map (fun c => (c, { (s.core c) with temp := s.free c % 4096, allow := allowOf (s.free c % 4096) }))

/-- ALLOW_UPDATE (R359). -/
def execAllowUpdate (s : State) : Host.Outcome State Fault Refusal :=
  .next ((List.range 8).foldl judgeDie ({ s with cores := senseCores s }.used 512))

/-- THERMAL_EMERGENCY: a core has reached 105 °C. -/
def execThermalEmergency (c : Nat) (s : State) : Host.Outcome State Fault Refusal :=
  if 512 ≤ c || (s.die (c / 64)).emergency then .next s
  else
    let t := 1680 + s.free 0 % 2416
    .next (startEmergency ((s.setCore c { (s.core c) with temp := t }).used 1) c t)

/-- THERMAL_EMERGENCY_END: every core of the die is below 95 °C. -/
def execThermalEmergencyEnd (d : Nat) (s : State) : Host.Outcome State Fault Refusal :=
  if 8 ≤ d || !(s.die d).emergency then .next s
  else
    let temps := (List.range 64).map (fun j => s.free j % 1520)
    let s := (List.range 64).foldl (fun s j => s.setCore (64 * d + j) { (s.core (64 * d + j)) with temp := temps.getD j 0 }) s
    .next (endEmergency (s.used 64) d (temps.foldl max 0))

/-- The state of a DRAM stack after a reading of its sensor: 0 normal, 1 refresh doubled, 2 bandwidth halved as well (R360). -/
def dramNext (old temp : Nat) : Nat :=
  if 95 * 16 < temp || (old == 2 && decide (90 * 16 ≤ temp)) then 2
  else if 85 * 16 < temp || (decide (1 ≤ old) && decide (80 * 16 ≤ temp)) then 1 else 0

def execDramStackStateChange (stack temp : Nat) (s : State) : Host.Outcome State Fault Refusal :=
  let old := Tab.get s.drams stack 0
  let new := dramNext old temp
  let t := { s with dramTemps := Tab.put s.dramTemps stack temp }
  if 16 ≤ stack then .next s
  else if new = old then .next t
  else .next (logEvent { t with drams := Tab.put s.drams stack new } 0x32 stack 0 (toBytes 1 new ++ [0] ++ toBytes 2 temp))

/-- The grid whose PCLASS governs: of the resident ones, the smallest effective class, and of those the latest placed
(R312). -/
def classGrid (s : State) : Option (Nat × Nat × Nat) :=
  (s.wgs.filter (fun e => !e.2.saved && !e.2.retired)).foldl (fun b e =>
    match Tab.find s.grids e.2.grid with
    | none => b
    | some g =>
      let x := (g.prio, e.2.placedAt, recPclass g.record)
      match b with
      | none => some x
      | some y => if x.1 < y.1 || (x.1 == y.1 && decide (y.2.1 < x.2.1)) then some x else some y) none

/-- POWER_CLASS_CHANGE and BUDGET_WINDOW (R312, R357): a 1 ms window enforces the split that CLASS names at its start. The rails'
powers, which the management interface reads, are measured anew with it (R397; log entry 1). -/
def execPowerClassChange (s : State) : Host.Outcome State Fault Refusal :=
  .next { s with pclass := ((classGrid s).map (fun x => x.2.2)).getD 0 }
def execBudgetWindow (s : State) : Host.Outcome State Fault Refusal :=
  if s.reftime < s.budgetSince + 1000000 then .next s
  else .next ({ s with budget := s.pclass, budgetSince := s.reftime
                       rails := (List.range 17).map (fun i => (i, (Config.railPower (s.freeCtr + i)).toNat)) }.used 17)

/-! ### Errors of the memories (R394, R396) -/

/-- PATROL_SCRUB corrects single-bit errors, which no agent observes. -/
def execPatrolScrub (_line : Nat) (s : State) : Host.Outcome State Fault Refusal := .next s

/-- A line of a core's scratchpad, or of a grove's staging cache, is poisoned. -/
def poisonScratch (s : State) (c ln : Nat) : State :=
  let k := s.core c
  s.setCore c { k with poison := if k.poison.contains ln then k.poison else k.poison ++ [ln] }
def poisonStaging (s : State) (g ln : Nat) : State :=
  let x := s.grove g
  s.setGrove g { x with poison := if x.poison.contains ln then x.poison else x.poison ++ [ln] }
def poisonHome (s : State) (ln : Nat) : State := { s with poison := if s.poison.contains ln then s.poison else s.poison ++ [ln] }

/-- The growth-ring entry of a poisoned line of this device: its slice is the hidden hash's, one for each line (R185, R396). -/
def logPoison (s : State) (ln : Nat) : State := logEvent s 0x90 (sliceOfLine ln) 0 (toBytes 8 (128 * ln))

/-- UNCORRECTABLE_ERROR: a line is poisoned (R394): of memory or the last-level cache, by its local physical address; from 2^60 on of a
scratchpad, as software's writes are numbered; from 2^61 on of a staging cache, by grove and location. The model's choice (log entry 36):
the entry of code 0x90 names a slice and a physical address, so it is made only for a line that has them; and an error of a register,
which has no line, is not modelled. -/
def execUncorrectableError (addr : Nat) (s : State) : Host.Outcome State Fault Refusal :=
  if addr < 2 ^ 40 then .next (logPoison (poisonHome s (addr / 128)) (addr / 128))
  else if addr < 2 ^ 60 then .next s
  else if addr < 2 ^ 60 + 512 * 2 ^ 21 then .next (poisonScratch s ((addr - 2 ^ 60) / 2 ^ 21) (addr % 2 ^ 21 / 128))
  else if 2 ^ 61 ≤ addr ∧ addr < 2 ^ 61 + 64 * 2 ^ 51 then
    let loc := (addr - 2 ^ 61) % 2 ^ 51
    let g := (addr - 2 ^ 61) / 2 ^ 51
    if !(s.grove g).staging.any (fun e => lineOf e.1 == lineOf loc) then .next s
    else if homeOf loc == s.device then .next (logPoison (poisonStaging s g (lineOf loc)) (lineOf (loc % 2 ^ 40)))
    else .next (poisonStaging s g (lineOf loc))
  else .next s

/-- CORRECTED_SOFT_ERRORS: at most once a millisecond for a unit, and only for a nonzero count. -/
def execCorrectedSoftErrors (kind unit count : Nat) (s : State) : Host.Outcome State Fault Refusal :=
  let src := kind % 16 * 4096 + unit % 4096
  let recent := (Tab.find s.softSince src).any (fun t => decide (s.reftime < t + 1000000))
  if count = 0 || 4 < kind || recent then .next s
  else .next (logEvent { s with softSince := Tab.put s.softSince src s.reftime } 0x80 src 0 (toBytes 4 count))

end Sys2Proof.Machine
end

