-- ==== Sys2Proof/Machine/System.lean ====
section
/-! DEFINITION. The system block, 0x280 to 0x289 (R329 to R333): system registers, traps and the return from them, TLB
shoot-downs (R318, R319), sleeping and waking; and the events that belong to them. -/

namespace Sys2Proof.Machine

/-! ### System registers (R329, R330) -/

/-- CLR_LIMIT and CLR_ASQ as they are written (R257). -/
def writeClrLimit (s : State) (v : Nat) : State := { s with clrLimit := min 12 (v % 16) }
def writeClrAsq (s : State) (v : Nat) : State :=
  let asid := fieldN v 16 13
  { s with clrSel := asid, quotas := Tab.put s.quotas asid (min 12 (v % 16)) }
def readClrAsq (s : State) : Nat := 65536 * s.clrSel + quotaOf s s.clrSel

/-- CLR_ASQ_WRITE. -/
def execClrAsqWrite (v : Word) (s : State) : Host.Outcome State Fault Refusal := .next (writeClrAsq s v.toNat)

/-- A core register as one core holds it (R352, R358, R359). -/
def coreRead (s : State) (c : Nat) : SysReg → Nat
  | .cyc => (s.die (c / 64)).cyc
  | .ncyc => readNcyc s (c / 64)
  | .freq => readFreq s (c / 64)
  | .thermAllow => (s.core c).allow
  | .thermCore => (s.core c).temp
  | _ => 0

/-- REFTIME as an agent reads it: its die's copy, and never less than it has read before (R353). -/
def refSeen (s : State) (a : Agent) : Nat := max (refCopy s a.die) a.lastRef

/-- The eight cores of a grove. -/
def groveCores (g : Nat) : List Nat := (List.range 8).map (fun j => 8 * g + j)

/-- The value of a register in an agent; `target` is what RM names (R329, R330). -/
def sysRead (s : State) (a : Agent) (rm : Bool) (target : Nat) (r : SysReg) : Nat :=
  let team := a.kind == .team
  if rm && r != .routePair then coreRead s target r
  else match r with
  | .gridid => a.gridId.toNat
  | .wgid => a.wgid.toNat % 2 ^ 32
  | .wgidh => a.wgid.toNat / 2 ^ 32
  | .teamid => a.teamId
  | .role => a.role
  | .nlanes => a.nlanes
  | .strand => a.strand
  | .depth => a.depth
  | .asid => a.asid
  | .prio => a.prio
  | .core => if team then a.core else 0xFFFFFFFF
  | .grove => a.grove
  | .die => a.die
  | .device => s.device
  | .cyc => (s.die a.die).cyc
  | .ncyc => readNcyc s a.die
  | .reftime => refSeen s a
  | .freq => readFreq s a.die
  | .thermAllow => if team then (s.core a.core).allow else ((groveCores a.grove).map (fun c => (s.core c).allow)).foldl min 256
  | .thermCore => if team then (s.core a.core).temp else ((groveCores a.grove).map (fun c => (s.core c).temp)).foldl max 0
  | .pclass => s.pclass
  | .llcCacheWays => 16 - claimedRanks s
  | .clrLimit => s.clrLimit
  | .clrAsq => readClrAsq s
  | .fstat => a.fstat.toNat
  | .qmax => a.qmax.toNat
  | .qsatn => a.qsatn.toNat
  | .qnfn => a.qnfn.toNat
  | .qctr => a.qctr.toNat
  | .trapcause => a.trapCause.toNat
  | .trappc => a.trapPc.toNat
  | .trapaddr => a.trapAddr.toNat
  | .tstate => 2 * b2n a.ppriv + b2n a.priv
  | .kscr0 => a.kscr0.toNat
  | .kscr1 => a.kscr1.toNat
  | .kscr2 => a.kscr2.toNat
  | .kscr3 => a.kscr3.toNat
  | .asidtab => s.asidtab.toNat
  | .faultresp => 0
  | .fqovf => readFqovf s
  | .rsvbase => s.record.rsvbase
  | .routePair => if rm then readRoutePair s target else 0

/-- An agent's own register written (R7, R85, R134, R328). -/
def agentWrite (a : Agent) (v : Nat) : SysReg → Agent
  | .fstat => { a with fstat := BitVec.ofNat 32 (v % 64) }
  | .qmax => { a with qmax := BitVec.ofNat 32 v }
  | .qsatn => { a with qsatn := BitVec.ofNat 32 v }
  | .qnfn => { a with qnfn := BitVec.ofNat 32 (v % 2 ^ 16) }
  | .qctr => { a with qctr := BitVec.ofNat 32 v }
  | .trapcause => { a with trapCause := BitVec.ofNat 32 (v % 256) }
  | .trappc => { a with trapPc := BitVec.ofNat 64 v }
  | .trapaddr => { a with trapAddr := BitVec.ofNat 64 v }
  | .tstate => { a with priv := bitN v 0, ppriv := bitN v 1 }
  | .kscr0 => { a with kscr0 := BitVec.ofNat 32 v }
  | .kscr1 => { a with kscr1 := BitVec.ofNat 32 v }
  | .kscr2 => { a with kscr2 := BitVec.ofNat 32 v }
  | .kscr3 => { a with kscr3 := BitVec.ofNat 32 v }
  | _ => a

/-- A write of a register; read-only ones are not affected (R330). -/
def sysWrite (s : State) (rm : Bool) (target v : Nat) (r : SysReg) : State :=
  match r with
  | .clrLimit => writeClrLimit s v
  | .clrAsq => writeClrAsq s v
  | .asidtab => { s with asidtab := BitVec.ofNat 64 v }
  | .faultresp => writeFaultresp s v
  | .fqovf => if bitN v 31 then clearFqovf s else s
  | .routePair => if rm then routePairValue s target v else s
  | r => s.setMe (agentWrite s.me v r)

/-- RDSYS of FSTAT waits for the team's outstanding instructions that may still set flags (R85, R171). -/
def flagsDue (s : State) (a : Agent) : Bool :=
  a.lahead.any (fun e => !e.done && !e.mem && !e.parks)
    || (s.core a.core).tileQueue.any (fun x => x.agent == s.cur && x.token == 65536)

def execRdsys (f : FArgs) (s : State) := issue (.rdsys f) s (fun s a =>
  let rm := mb f.mod 0
  let n := if mb f.mod 1 then 2 else 1
  let target := rd1 a f.a 0
  match SysReg.ofNum f.b.toNat with
  | none => .trap .reservedField 0
  | some r =>
    if !guardOn a (.rdsys f) then .long s (mkEntry a (.rdsys f) f.d n false false [] (fun _ => 0))
    else if rm && r != .routePair && decide (511 < target) then .trap .reservedField 0
    else if r == .fstat && flagsDue s a then .wait s
    else .long (if r == .reftime then s.setMe { a with lastRef := refSeen s a } else s)
      (mkEntry a (.rdsys f) f.d n false false [] (fun _ => sysRead s a rm target r)))

def execWrsys (f : FArgs) (s : State) := issue (.wrsys f) s (fun s a =>
  let rm := mb f.mod 0
  let target := rd1 a f.d 0
  match SysReg.ofNum f.b.toNat with
  | none => .trap .reservedField 0
  | some r =>
    if !guardOn a (.wrsys f) then .go s
    else
      let v := if mb f.mod 1 then rdN a f.a.toNat 2 0
        else if r.is64 then sysRead s a false 0 r / 2 ^ 32 * 2 ^ 32 + rd1 a f.a 0 else rd1 a f.a 0
      let t := sysWrite s rm target v r
      if (Tab.find t.agents s.cur).isNone then .gone t else .go t)

/-! ### Traps and the return (R328, R331, R332) -/

def execTrap (f : FArgs) (s : State) := issue (.trap f) s (fun s a =>
  if guardOn a (.trap f) then .trap .softwareTrap 0 else .go s)

def execBrk (f : FArgs) (s : State) := issue (.brk f) s (fun s a =>
  if guardOn a (.brk f) then .trap .breakpoint 0 else .go s)

def execEret (f : FArgs) (s : State) := issue (.eret f) s (fun s a =>
  if !guardOn a (.eret f) then .go s
  else if a.trapPc.toNat % 8 ≠ 0 then .trap .misaligned a.trapPc.toNat
  else .goTo (s.setMe (trapReturn a)) a.trapPc)

/-! ### Shoot-downs (R317 to R319) -/

/-- The translating units: cores, foresters, copy units, the front end (R317). -/
def unitCount : Nat := 641
/-- The canopy die of a unit; the front end's is none of them. -/
def unitDie (u : Nat) : Option Nat :=
  if u < 512 then some (u / 64) else if u < 576 then some ((u - 512) / 8) else if u < 640 then some ((u - 576) / 8) else none

/-- TLBI: the units are asked, and the team stays unchosen until the last has acknowledged. -/
def execTlbi (f : FArgs) (s : State) := issue (.tlbi f) s (fun s a =>
  let mode := f.mod.toNat % 4
  let asid := rd1 a f.b 0 % 2 ^ 13
  let va := if mode = 0 then rdN a f.a.toNat 2 0 else 0
  if !guardOn a (.tlbi f) then .go s
  else if s.shootdown.isSome then .wait s
  else
    let s := { s with shootdown := some (mode, asid, va, s.cur, List.range unitCount)
                      asidCache := if mode = 1 then Tab.erase s.asidCache asid else s.asidCache }
    .hold (s.setMe { a with hold := .tlbi }))

/-- An entry that a shoot-down removes. -/
def removed (mode asid va : Nat) (t : TlbEntry) : Bool :=
  mode == 2 || (t.asid == asid && (mode == 1 || (decide (t.base ≤ va) && decide (va < t.base + t.size))))

/-- The unit that translates for an agent, or did so before the agent was gone (R317, R319). -/
def translatesFor (s : State) (u k : Nat) : Bool :=
  match Tab.find s.agents k with
  | some a => a.unit == u
  | none => Tab.find s.goneUnits k == some u

/-- A unit translated a request that is unanswered. -/
def translatedIn (s : State) (u : Nat) (why : SentFor) : Bool :=
  match why with
  | .load k _ _ _ | .atomic k _ _ _ | .atomicSum k _ _ _ | .red k _ | .object k _ => translatesFor s u k
  | .copyRead c => (Tab.find s.copies c).any (fun x => 576 + x.grove == u)
  | .cmd _ | .slot _ | .dep _ | .doneBit _ | .coll _ => u == 640
  | _ => false

/-- A mat command is a transfer. -/
def isTransfer : MatJob → Bool
  | .load _ _ _ _ | .store _ _ _ _ _ _ => true
  | _ => false

/-- A unit has an outstanding access that may have used a removed entry: a request, a posted `RED`, or a mat transfer that slices
have still queued, whatever has become of its team (R319). -/
def unitBusy (s : State) (u : Nat) : Bool :=
  s.sent.any (fun e => translatedIn s u e.2.why)
    || s.posted.any (fun e => translatesFor s u e.2.agent
      && (match e.2.job with | .red _ _ _ _ _ => true | .scratch _ _ => false))
    || s.matCmds.any (fun m => m.2.unit == u && !m.2.slices.isEmpty && isTransfer m.2.job)

/-- A unit acknowledges: its entries are gone; after the last, the shoot-down is over. -/
def acknowledgeUnit (s : State) (mode asid va k : Nat) (units : List Nat) (u : Nat) : State :=
  let left := units.filter (· != u)
  let s := { s with tlbs := Tab.put s.tlbs u ((Tab.get s.tlbs u []).filter (fun t => !removed mode asid va t))
                    asidCache := if mode = 1 then Tab.erase s.asidCache asid else s.asidCache
                    shootdown := if left.isEmpty then none else some (mode, asid, va, k, left) }
  if left.isEmpty && (s.agent k).hold == .tlbi then resumeAfter s k else s

/-- TLBI_ACKNOWLEDGE (R319, R356): not while the unit's die relocks; a gated core's is given at once. -/
def execTlbiAcknowledge (u : Nat) (s : State) : Host.Outcome State Fault Refusal :=
  match s.shootdown with
  | none => .next s
  | some (mode, asid, va, k, units) =>
    let stopped := match unitDie u with | none => false | some d => dieStopped s d
    let gated := decide (u < 512) && (s.core u).gated
    if !units.contains u || (stopped && !gated) || (unitBusy s u && !gated) then .next s
    else .next (acknowledgeUnit s mode asid va k units u)

/-! ### Sleeping and waking (R333) -/

def execSleep (f : FArgs) (s : State) := issue (.sleep f) s (fun s a =>
  let n := rd1 a f.a 0
  if !guardOn a (.sleep f) then .go s
  else if a.wakePend then .go (openPhase (drainAll (s.setMe { a with wakePend := false }) s.cur) s.cur 2)
  else .go (drainAll (s.setMe { a with state := .sleep, sleepEnd := if n = 0 then 0 else refCopy s a.die + n }) s.cur))

/-- SLEEP_INTERVAL_EXPIRES. -/
def execSleepIntervalExpires (k : Nat) (s : State) : Host.Outcome State Fault Refusal :=
  let a := s.agent k
  if a.state == .sleep && a.sleepEnd != 0 && decide (a.sleepEnd ≤ refCopy s a.die) then .next (wakeAgent s k) else .next s

/-- The team that WAKE names: workgroup and team number. -/
def wakeTarget (a : Agent) (f : FArgs) : Nat × Nat :=
  (if mb f.mod 0 then rdN a f.b.toNat 2 0 else a.wgid.toNat, rd1 a f.a 0)

def execWake (f : FArgs) (s : State) := issue (.wake f) s (fun s a =>
  if !guardOn a (.wake f) then .go s
  else beforeClose s 2 (fun s => .go (issueClose s s.cur 2 (some (wakeTarget a f)))))

end Sys2Proof.Machine
end

