-- ==== Sys2Proof/Machine/HostLink.lean ====
section
/-! DEFINITION. The host's side: the window, the BAR0 registers, boot, attestation, resets, the link's errors, and what a
debugger and the power controller do to a core (R294, R319, R369, R385, R388 to R397). -/

namespace Sys2Proof.Machine

/-! ### The window (R390) -/

/-- The physical address of a window offset, and whether the window reaches it. -/
def windowAddr (s : State) (x : Nat) : Nat := fieldN s.w2base.toNat 30 10 * 2 ^ 30 + x
def windowOk (s : State) (pa : Nat) : Bool := decide (pa < 2 ^ 40) && decide (pa < reservedBase s)

/-- The key of an access through the window: 0 for none, else that of an address space, and 1 (R390). -/
def windowKey (s : State) : Nat := if bitN s.w2ctl.toNat 13 then 0 else fieldN s.w2ctl.toNat 0 13 + 1

/-- What the host reads at a physical address: all ones where the window does not reach; a free value of a poisoned line, and of a
byte that the window has written under another key (R390; log entry 4). -/
def windowByte (s : State) (pa : Nat) : Byte :=
  if !windowOk s pa then 0xFF
  else if (Tab.find s.windowKeys (s.device * 2 ^ 40 + pa)).any (· != windowKey s) then BitVec.ofNat 8 (s.free (pa % 128))
  else if lineBad s 16 (lineOf pa) then BitVec.ofNat 8 (s.free (pa % 128))
  else homeByte s (s.device * 2 ^ 40 + pa)

/-- BAR2_READ: what the host receives is the device's last answer to it. -/
def execBar2Read (x n : Nat) (s : State) : Host.Outcome State Fault Refusal :=
  .next ({ s with hostRead := (List.range n).map (fun i => windowByte s (windowAddr s (x + i))) }.used 128)

/-- The bytes of a write through the window that it takes, by location. -/
def windowCells (s : State) (x : Nat) (bs : List Byte) : Tab Byte :=
  (((bs.zipIdx).map (fun e => (windowAddr s (x + e.2), e.1))).filter (fun e => windowOk s e.1)).map
    (fun e => (s.device * 2 ^ 40 + e.1, e.2))

/-- BAR2_WRITE, under the key of W2CTL. -/
def execBar2Write (x : Nat) (bs : List Byte) (s : State) : Host.Outcome State Fault Refusal :=
  let cells := windowCells s x bs
  let t := writeLocal (softwareWrote s 0xFFFFFFFF (cells.map (·.1))) (fieldN s.w2ctl.toNat 0 13) cells
  .next { t with windowKeys := cells.foldl (fun t e => Tab.put t e.1 (windowKey s)) t.windowKeys }

/-! ### Boot (R373, R391, R392) -/

/-- The ROM starts: everything but what a reset leaves at its reset value. Flash and the vectors' division are not the package's own. -/
def romStart (s : State) : State :=
  { State.reset with agenda := s.agenda, freeCtr := s.freeCtr, record := s.record, flash := s.flash, hostMem := s.hostMem, msix := s.msix
                     vectors := s.vectors, powered := true }

/-- POWER_ON: power has been lost, and the growth-ring record with it. -/
def execPowerOn (s : State) : Host.Outcome State Fault Refusal := .next (romStart s)

/-- What a boot stage verifies, and hashes for the report: the configuration record, then each image (R391, R393). -/
def stageBytes (s : State) : List Byte :=
  if s.bootStage = 0 then s.record.image else ((s.flash[s.bootStage - 1]?).map FlashImage.bytes).getD []

/-- One object of the boot has been verified: the configuration record, then the images; after the last the device is ready. -/
def passStage (s : State) : State :=
  let s := { s with digests := s.digests ++ [sha256 (stageBytes s)] }
  if s.bootStage = 0 then { s with bootStage := 1, device := s.record.devnum, clrLimit := s.record.clrLimit }
  else if s.bootStage = 4 then { s with bootStage := 15, standard := true }
  else { s with bootStage := s.bootStage + 1 }

/-- The image of a boot stage has a version below the record's MINVER for it (R391). -/
def belowMin (s : State) : Bool :=
  s.bootStage != 0 && decide (((s.flash[s.bootStage - 1]?).map FlashImage.version).getD 0 < s.record.minver.getD (s.bootStage - 1) 0)

/-- BOOT_STAGE: 0 verifies and loads, except that an image below MINVER is refused with FAIL code 3; 1, 2, 4 and 5 are the FAIL codes of
what the security processor finds in flash or in itself. A failure stops the boot. -/
def execBootStage (v : Nat) (s : State) : Host.Outcome State Fault Refusal :=
  let fail := if v = 0 || v = 3 then (if belowMin s then 3 else 0) else v
  if !s.powered || s.bootFail != 0 || 4 < s.bootStage || 5 < v then .next s
  else if fail = 0 then .next (passStage s)
  else .next (logEvent { s with bootFail := fail } 0x01 s.bootStage 0 [BitVec.ofNat 8 fail])

/-- BOOTST as it reads. -/
def bootst (s : State) : Nat := s.bootStage * 2 ^ 28 + s.bootFail * 2 ^ 16 + 0xA1 * 2 ^ 8 + 1

/-- PACKAGE_RESET_REQUEST: the request is entered, and the package starts over; the growth-ring record survives. -/
def execPackageResetRequest (s : State) : Host.Outcome State Fault Refusal :=
  let t := logEvent s 0xA0 0 0 [0]
  .next { romStart t with growth := t.growth, wraps := t.wraps, mem := t.mem, poison := t.poison, windowKeys := t.windowKeys }

/-! ### Attestation (R393) -/

/-- ATTESTATION_GO with a nonce; no effect while a report is pending. -/
def execAttestationGo (bs : List Byte) (s : State) : Host.Outcome State Fault Refusal :=
  if s.go then .next s else .next { s with go := true, nonce := (bs ++ List.replicate 32 0).take 32 }

/-- The 264 octets of a report. -/
def reportBytes (s : State) : List Byte :=
  let body := [s.nonce, s.digests.flatten, toBytes 2 s.device, [0xA1, 0x01], List.replicate 4 0].flatten
  body ++ toBytesBE 64 (Config.identitySign body).toNat

/-- ATTESTATION_REPORT: the report stands at +0x100 and GO clears. -/
def execAttestationReport (s : State) : Host.Outcome State Fault Refusal :=
  if s.go && s.bootStage == 15 then .next { s with report := reportBytes s, go := false } else .next s

/-! ### BAR0 (R6, R7, R389) -/

/-- A 64-bit register after a write of the whole, or of the half at its offset or 4 above. -/
def writeHalf (old : DWord) (o : Nat) (v : DWord) (wide : Bool) : DWord :=
  if wide then v
  else if o = 0 then (old &&& 0xFFFFFFFF00000000) ||| (v &&& 0xFFFFFFFF)
  else (old &&& 0xFFFFFFFF) ||| ((v &&& 0xFFFFFFFF) <<< 32)

/-- A register of a queue block. -/
def writeQueueReg (s : State) (q o : Nat) (v : DWord) (wide : Bool) : State :=
  let x := s.queue q
  if s.bootStage != 15 then s
  else if o = 0 || (o = 4 && !wide) then (if x.en then s else s.setQueue q { x with base := writeHalf x.base o v wide })
  else if o = 8 then (if bitN v.toNat 31 then enableQueue s q (v.setWidth 32) else disableQueue s q (v.setWidth 32))
  else if o = 0x10 then writeQtail s q (v.toNat % 2 ^ 32)
  else if o = 0x20 then (if x.en then s else s.setQueue q { x with qown := v.setWidth 32 &&& 0x3F3F })
  else s

/-- A register of a port block. -/
def writePortReg (s : State) (p o : Nat) (v : DWord) : State :=
  if 36 ≤ p then s
  else if o = 0 then writeFpctl s p (v.toNat % 2 ^ 32)
  else if o = 8 then writeFpcnt s p (v.toNat % 2 ^ 32)
  else s

/-- A register of a collective context. -/
def writeCollReg (s : State) (c o : Nat) (v : DWord) (wide : Bool) : State :=
  let x := s.coll c
  if 64 ≤ c then s
  else if o = 0 || (o = 4 && !wide) then
    (if x.en then s else s.setColl c { x with recAddr := writeHalf x.recAddr o v wide &&& 0x0003FFFFFFFFFF80 })
  else if o = 8 then (if bitN v.toNat 31 then enableColl s c (v.toNat % 2 ^ 32) else disableColl s c (v.toNat % 2 ^ 32))
  else s

/-- The attestation mailbox: nonce bytes, and GO. -/
def writeMailbox (s : State) (o : Nat) (v : DWord) (wide : Bool) : State :=
  if s.go then s
  else if o < 0x20 then
    let n := if wide then 8 else 4
    let old := (s.nonce ++ List.replicate 32 0).take 32
    { s with nonce := (old.take o ++ toBytes n v.toNat ++ old.drop (o + n)).take 32 }
  else if o = 0x20 && bitN v.toNat 0 then { s with go := true, nonce := (s.nonce ++ List.replicate 32 0).take 32 }
  else s

/-- A write of BAR0; offsets of no register, and read-only ones, take no effect. -/
def writeBar0 (s : State) (o : Nat) (v : DWord) (wide : Bool) : State :=
  if 0x1000 ≤ o && o < 0x1200 then writeMailbox s (o - 0x1000) v wide
  else if o = 0x10000 || (o = 0x10004 && !wide) then
    { s with w2base := writeHalf s.w2base (o - 0x10000) v wide &&& 0x000000FFC0000000 }
  else if o = 0x10008 then { s with w2ctl := v.setWidth 32 &&& 0x3FFF }
  else if o = 0x20000 then writeFaultresp s (v.toNat % 2 ^ 32)
  else if 0x100000 ≤ o && o < 0x104000 then writeQueueReg s ((o - 0x100000) / 64) (o % 64) v wide
  else if 0x200000 ≤ o && o < 0x200900 then writePortReg s ((o - 0x200000) / 64) (o % 64) v
  else if 0x300000 ≤ o && o < 0x301000 then writeCollReg s ((o - 0x300000) / 64) (o % 64) v wide
  else s

def execRegisterWrite (o : Nat) (v : DWord) (wide : Bool) (s : State) : Host.Outcome State Fault Refusal := .next (writeBar0 s o v wide)

/-- A half of a 64-bit register, at its offset or 4 above. -/
def readHalf (v : DWord) (o : Nat) : Nat := if o = 0 then v.toNat % 2 ^ 32 else v.toNat / 2 ^ 32

/-- The registers of a queue block, of a port block, and of a collective context, as the host reads them (R294, R369, R385, R389). -/
def readQueueReg (x : Queue) (o : Nat) : Nat :=
  if o = 0 || o = 4 then readHalf x.base o
  else if o = 8 then x.ctl.toNat
  else if o = 0x10 then x.tail
  else if o = 0x18 then x.head
  else if o = 0x20 then x.qown.toNat
  else 0
def readPortReg (s : State) (p o : Nat) : Nat :=
  if 36 ≤ p then 0 else if o = 0 then fpctl (s.port p) else if o = 8 then fpcnt (s.port p) else 0
def readCollReg (x : Collective) (o : Nat) : Nat :=
  if o = 0 || o = 4 then readHalf x.recAddr o
  else if o = 8 then ccctl x
  else if o = 0x10 then x.runs
  else 0

/-- The attestation mailbox as it reads (R393). -/
def readMailbox (s : State) (o : Nat) : Nat :=
  if o < 0x20 then sliceN s.nonce o 4
  else if o = 0x20 then b2n s.go
  else if 0x100 ≤ o then sliceN s.report (o - 0x100) 4
  else 0

/-- The 32 bits that the host reads at an offset of BAR0, a multiple of 4: zero at an offset of no register and of a write-only one
(R389, R398). A read changes nothing. -/
def readBar0 (s : State) (o : Nat) : Nat :=
  if o = 0 then bootst s
  else if o = 8 then s.record.rsvbase
  else if 0x1000 ≤ o && o < 0x1300 then readMailbox s (o - 0x1000)
  else if o = 0x10000 || o = 0x10004 then readHalf s.w2base (o - 0x10000)
  else if o = 0x10008 then s.w2ctl.toNat
  else if 0x100000 ≤ o && o < 0x104000 then readQueueReg (s.queue ((o - 0x100000) / 64)) (o % 64)
  else if 0x200000 ≤ o && o < 0x200900 then readPortReg s ((o - 0x200000) / 64) (o % 64)
  else if 0x300000 ≤ o && o < 0x301000 then readCollReg (s.coll ((o - 0x300000) / 64)) (o % 64)
  else 0

/-- The queues that a position of a virtual function's BAR0 reaches (R389). -/
def vfQueues (s : State) (f n : Nat) : List Nat :=
  (List.range 256).filter (fun q => (s.queue q).func == f && (s.queue q).vslot == n)

/-- The 32 bits that virtual function f reads at an offset of its BAR0: QTAIL and QHEAD of its n-th queue at 0x40·n, each at its place in
a queue's block. Where two queues have one position and differ, which of them is read the spec leaves open (R294, R389; log entry
75). -/
def readVf (s : State) (f o : Nat) : Nat :=
  let read := fun (q : Nat) => readQueueReg (s.queue q) (o % 64)
  if f = 0 || 64 ≤ f || 0x10000 ≤ o || !(o % 64 == 0x10 || o % 64 == 0x18) then 0
  else match vfQueues s f (o / 64) with
    | [] => 0
    | q :: qs => if qs.all (fun p => read p == read q) then read q else s.free 0 % 2 ^ 32

/-! ### The management interface (R395, R397) -/

/-- An entry of the growth-ring record: 32 octets (R395). -/
def ringOctets (e : RingEvent) : List Byte :=
  [toBytes 8 e.time, toBytes 2 e.code, toBytes 2 e.source, toBytes 2 e.asid, [0, 0], (e.detail ++ List.replicate 16 0).take 16].flatten

/-- What the management interface reads: BOOTST, the temperature of a core and of a DRAM stack, a rail's power, an entry of the
growth-ring record from the oldest on and its wrap count, and four octets of the attestation mailbox. -/
inductive MgmtItem where
  | bootst
  | coreTemp (c : Nat)
  | stackTemp (k : Nat)
  | railPower (r : Nat)
  | ringEntry (i : Nat)
  | ringWraps
  | mailbox (o : Nat)
  deriving DecidableEq, Repr

/-- A read through the management interface, little-endian: it changes nothing, and asks neither the host link nor a core. -/
def mgmtRead (s : State) (x : MgmtItem) : List Byte :=
  match x with
  | .bootst => toBytes 4 (bootst s)
  | .coreTemp c => toBytes 2 (s.core c).temp
  | .stackTemp k => toBytes 2 (Tab.get s.dramTemps k 0)
  | .railPower r => toBytes 2 (Tab.get s.rails r 0)
  | .ringEntry i => ((s.growth[i]?).map ringOctets).getD (List.replicate 32 0)
  | .ringWraps => toBytes 4 s.wraps.toNat
  | .mailbox o => toBytes 4 (readMailbox s o)

/-- UNCORRECTABLE_LINK_ERROR: reported through AER. -/
def execUncorrectableLinkError (s : State) : Host.Outcome State Fault Refusal := .next { s with aer := true }

/-! ### Debugger and power gating (R319) -/

def execDebuggerHalt (c : Nat) (s : State) : Host.Outcome State Fault Refusal :=
  if 512 ≤ c then .next s else .next (s.setCore c { s.core c with halted := true })
def execDebuggerResume (c : Nat) (s : State) : Host.Outcome State Fault Refusal :=
  if 512 ≤ c then .next s else .next (s.setCore c { s.core c with halted := false })

/-- CORE_POWER_GATING: off, the core's TLB is empty; on, it starts with an empty one. -/
def execCorePowerGating (c : Nat) (off : Bool) (s : State) : Host.Outcome State Fault Refusal :=
  if 512 ≤ c then .next s
  else
    let s := if off then { s with tlbs := Tab.erase s.tlbs c } else s
    .next (s.setCore c { s.core c with gated := off })

end Sys2Proof.Machine
end

