-- ==== Sys2Proof/Machine/Dispatch.lean ====
section
/-! DEFINITION. The dispatch: one arm per instruction and event. -/

namespace Sys2Proof.Machine

def exec (i : Instr) (s : State) : Host.Outcome State Fault Refusal :=
  match i with
  | .iadd f => Sys2Proof.Machine.execIadd f s
  | .isub f => Sys2Proof.Machine.execIsub f s
  | .iadds f => Sys2Proof.Machine.execIadds f s
  | .imul f => Sys2Proof.Machine.execImul f s
  | .imulh f => Sys2Proof.Machine.execImulh f s
  | .imad f => Sys2Proof.Machine.execImad f s
  | .idp4 f => Sys2Proof.Machine.execIdp4 f s
  | .idiv f => Sys2Proof.Machine.execIdiv f s
  | .irem f => Sys2Proof.Machine.execIrem f s
  | .imin f => Sys2Proof.Machine.execImin f s
  | .imax f => Sys2Proof.Machine.execImax f s
  | .iabs f => Sys2Proof.Machine.execIabs f s
  | .ineg f => Sys2Proof.Machine.execIneg f s
  | .icmp f => Sys2Proof.Machine.execIcmp f s
  | .andB f => Sys2Proof.Machine.execAndB f s
  | .orB f => Sys2Proof.Machine.execOrB f s
  | .xorB f => Sys2Proof.Machine.execXorB f s
  | .andn f => Sys2Proof.Machine.execAndn f s
  | .notB f => Sys2Proof.Machine.execNotB f s
  | .shl f => Sys2Proof.Machine.execShl f s
  | .shr f => Sys2Proof.Machine.execShr f s
  | .sar f => Sys2Proof.Machine.execSar f s
  | .rot f => Sys2Proof.Machine.execRot f s
  | .bfx f => Sys2Proof.Machine.execBfx f s
  | .bfi f => Sys2Proof.Machine.execBfi f s
  | .popc f => Sys2Proof.Machine.execPopc f s
  | .clz f => Sys2Proof.Machine.execClz f s
  | .ctz f => Sys2Proof.Machine.execCtz f s
  | .brev f => Sys2Proof.Machine.execBrev f s
  | .sel f => Sys2Proof.Machine.execSel f s
  | .mov f => Sys2Proof.Machine.execMov f s
  | .movi f => Sys2Proof.Machine.execMovi f s
  | .lea f => Sys2Proof.Machine.execLea f s
  | .movw l => Sys2Proof.Machine.execMovw l s
  | .fadd f => Sys2Proof.Machine.execFadd f s
  | .fsub f => Sys2Proof.Machine.execFsub f s
  | .fmul f => Sys2Proof.Machine.execFmul f s
  | .ffma f => Sys2Proof.Machine.execFfma f s
  | .fmin f => Sys2Proof.Machine.execFmin f s
  | .fmax f => Sys2Proof.Machine.execFmax f s
  | .fabs f => Sys2Proof.Machine.execFabs f s
  | .fneg f => Sys2Proof.Machine.execFneg f s
  | .fcmp f => Sys2Proof.Machine.execFcmp f s
  | .fclass f => Sys2Proof.Machine.execFclass f s
  | .frnd f => Sys2Proof.Machine.execFrnd f s
  | .fscale f => Sys2Proof.Machine.execFscale f s
  | .fdiv f => Sys2Proof.Machine.execFdiv f s
  | .fsqrt f => Sys2Proof.Machine.execFsqrt f s
  | .frcp f => Sys2Proof.Machine.execFrcp f s
  | .frsq f => Sys2Proof.Machine.execFrsq f s
  | .fexp2 f => Sys2Proof.Machine.execFexp2 f s
  | .flog2 f => Sys2Proof.Machine.execFlog2 f s
  | .fsin f => Sys2Proof.Machine.execFsin f s
  | .fcos f => Sys2Proof.Machine.execFcos f s
  | .ftanh f => Sys2Proof.Machine.execFtanh f s
  | .cvt f => Sys2Proof.Machine.execCvt f s
  | .cvtq f => Sys2Proof.Machine.execCvtq f s
  | .cvtd f => Sys2Proof.Machine.execCvtd f s
  | .pack f => Sys2Proof.Machine.execPack f s
  | .unpk f => Sys2Proof.Machine.execUnpk f s
  | .shfl f => Sys2Proof.Machine.execShfl f s
  | .bcast f => Sys2Proof.Machine.execBcast f s
  | .ballot f => Sys2Proof.Machine.execBallot f s
  | .vote f => Sys2Proof.Machine.execVote f s
  | .sred f => Sys2Proof.Machine.execSred f s
  | .sscan f => Sys2Proof.Machine.execSscan f s
  | .matchLanes f => Sys2Proof.Machine.execMatchLanes f s
  | .pPair p => Sys2Proof.Machine.execPPair p s
  | .nop f => Sys2Proof.Machine.execNop f s
  | .bra f => Sys2Proof.Machine.execBra f s
  | .braL l => Sys2Proof.Machine.execBraL l s
  | .brx f => Sys2Proof.Machine.execBrx f s
  | .call f => Sys2Proof.Machine.execCall f s
  | .ret f => Sys2Proof.Machine.execRet f s
  | .divIf f => Sys2Proof.Machine.execDivIf f s
  | .divElse f => Sys2Proof.Machine.execDivElse f s
  | .divJoin f => Sys2Proof.Machine.execDivJoin f s
  | .divLoop f => Sys2Proof.Machine.execDivLoop f s
  | .divBrk f => Sys2Proof.Machine.execDivBrk f s
  | .divNext f => Sys2Proof.Machine.execDivNext f s
  | .exit f => Sys2Proof.Machine.execExit f s
  | .yieldTeam f => Sys2Proof.Machine.execYieldTeam f s
  | .launch f => Sys2Proof.Machine.execLaunch f s
  | .cwait f => Sys2Proof.Machine.execCwait f s
  | .ld f => Sys2Proof.Machine.execLd f s
  | .ldL l => Sys2Proof.Machine.execLdL l s
  | .st f => Sys2Proof.Machine.execSt f s
  | .stL l => Sys2Proof.Machine.execStL l s
  | .lds f => Sys2Proof.Machine.execLds f s
  | .ldsL l => Sys2Proof.Machine.execLdsL l s
  | .sts f => Sys2Proof.Machine.execSts f s
  | .stsL l => Sys2Proof.Machine.execStsL l s
  | .ldk f => Sys2Proof.Machine.execLdk f s
  | .atom f => Sys2Proof.Machine.execAtom f s
  | .atomc f => Sys2Proof.Machine.execAtomc f s
  | .atomf f => Sys2Proof.Machine.execAtomf f s
  | .red f => Sys2Proof.Machine.execRed f s
  | .atomag f => Sys2Proof.Machine.execAtomag f s
  | .fpush f => Sys2Proof.Machine.execFpush f s
  | .fpop f => Sys2Proof.Machine.execFpop f s
  | .pref f => Sys2Proof.Machine.execPref f s
  | .cwb f => Sys2Proof.Machine.execCwb f s
  | .cinv f => Sys2Proof.Machine.execCinv f s
  | .bankset f => Sys2Proof.Machine.execBankset f s
  | .bankDrainEnd agent => Sys2Proof.Machine.execBankDrainEnd agent s
  | .cpy f => Sys2Proof.Machine.execCpy f s
  | .cpyt l => Sys2Proof.Machine.execCpyt l s
  | .copyLineOperation copyId => Sys2Proof.Machine.execCopyLineOperation copyId s
  | .ringInit f => Sys2Proof.Machine.execRingInit f s
  | .ringWait f => Sys2Proof.Machine.execRingWait f s
  | .ringPark f => Sys2Proof.Machine.execRingPark f s
  | .ringRel f => Sys2Proof.Machine.execRingRel f s
  | .ringQ f => Sys2Proof.Machine.execRingQ f s
  | .pclose f => Sys2Proof.Machine.execPclose f s
  | .popen f => Sys2Proof.Machine.execPopen f s
  | .phase f => Sys2Proof.Machine.execPhase f s
  | .bclose f => Sys2Proof.Machine.execBclose f s
  | .bquery f => Sys2Proof.Machine.execBquery f s
  | .fence f => Sys2Proof.Machine.execFence f s
  | .barInit f => Sys2Proof.Machine.execBarInit f s
  | .barArv f => Sys2Proof.Machine.execBarArv f s
  | .barWait f => Sys2Proof.Machine.execBarWait f s
  | .barSync f => Sys2Proof.Machine.execBarSync f s
  | .barrierCompletionNotice agent => Sys2Proof.Machine.execBarrierCompletionNotice agent s
  | .accrd f => Sys2Proof.Machine.execAccrd f s
  | .accwr f => Sys2Proof.Machine.execAccwr f s
  | .rowst f => Sys2Proof.Machine.execRowst f s
  | .accsc f => Sys2Proof.Machine.execAccsc f s
  | .tileAccessPerformed core => Sys2Proof.Machine.execTileAccessPerformed core s
  | .clrClaim f => Sys2Proof.Machine.execClrClaim f s
  | .claimDrainEnd agent => Sys2Proof.Machine.execClaimDrainEnd agent s
  | .clrFree f => Sys2Proof.Machine.execClrFree f s
  | .clrTload l => Sys2Proof.Machine.execClrTload l s
  | .clrTstore l => Sys2Proof.Machine.execClrTstore l s
  | .clrCall l => Sys2Proof.Machine.execClrCall l s
  | .clrPred f => Sys2Proof.Machine.execClrPred f s
  | .clrRdrow f => Sys2Proof.Machine.execClrRdrow f s
  | .clrWait f => Sys2Proof.Machine.execClrWait f s
  | .clrQ f => Sys2Proof.Machine.execClrQ f s
  | .clrCsload f => Sys2Proof.Machine.execClrCsload f s
  | .sequencerCommand slice => Sys2Proof.Machine.execSequencerCommand slice s
  | .clearingWatchdogTrip slice => Sys2Proof.Machine.execClearingWatchdogTrip slice s
  | .rdsys f => Sys2Proof.Machine.execRdsys f s
  | .wrsys f => Sys2Proof.Machine.execWrsys f s
  | .clrAsqWrite value => Sys2Proof.Machine.execClrAsqWrite value s
  | .fqovfClear => Sys2Proof.Machine.execFqovfClear s
  | .trap f => Sys2Proof.Machine.execTrap f s
  | .brk f => Sys2Proof.Machine.execBrk f s
  | .eret f => Sys2Proof.Machine.execEret f s
  | .tlbi f => Sys2Proof.Machine.execTlbi f s
  | .tlbiAcknowledge unit => Sys2Proof.Machine.execTlbiAcknowledge unit s
  | .ctxsv f => Sys2Proof.Machine.execCtxsv f s
  | .ctxld f => Sys2Proof.Machine.execCtxld f s
  | .sleep f => Sys2Proof.Machine.execSleep f s
  | .wake f => Sys2Proof.Machine.execWake f s
  | .sleepIntervalExpires agent => Sys2Proof.Machine.execSleepIntervalExpires agent s
  | .mxZero f => Sys2Proof.Machine.execMxZero f s
  | .mxMma l => Sys2Proof.Machine.execMxMma l s
  | .mxSmma l => Sys2Proof.Machine.execMxSmma l s
  | .mxQmma l => Sys2Proof.Machine.execMxQmma l s
  | .mxLdacc l => Sys2Proof.Machine.execMxLdacc l s
  | .mxStacc l => Sys2Proof.Machine.execMxStacc l s
  | .mxScale f => Sys2Proof.Machine.execMxScale f s
  | .mxWait f => Sys2Proof.Machine.execMxWait f s
  | .mxQ f => Sys2Proof.Machine.execMxQ f s
  | .mxCancel f => Sys2Proof.Machine.execMxCancel f s
  | .mxBind f => Sys2Proof.Machine.execMxBind f s
  | .mxDispatch agent ticket => Sys2Proof.Machine.execMxDispatch agent ticket s
  | .mxStep agent ticket => Sys2Proof.Machine.execMxStep agent ticket s
  | .mxEntryComplete agent ticket => Sys2Proof.Machine.execMxEntryComplete agent ticket s
  | .longLatencyCompletion agent entry => Sys2Proof.Machine.execLongLatencyCompletion agent entry s
  | .sideLogReplay agent page => Sys2Proof.Machine.execSideLogReplay agent page s
  | .faultRecordPost asid => Sys2Proof.Machine.execFaultRecordPost asid s
  | .faultrespRetry asid index => Sys2Proof.Machine.execFaultrespRetry asid index s
  | .faultrespReject asid index => Sys2Proof.Machine.execFaultrespReject asid index s
  | .faultrespAbort asid index => Sys2Proof.Machine.execFaultrespAbort asid index s
  | .qtailDoorbell queue value => Sys2Proof.Machine.execQtailDoorbell queue value s
  | .qctlEnable queue value => Sys2Proof.Machine.execQctlEnable queue value s
  | .qctlDisable queue value => Sys2Proof.Machine.execQctlDisable queue value s
  | .commandTakeUp queue => Sys2Proof.Machine.execCommandTakeUp queue s
  | .launchCommand cmd => Sys2Proof.Machine.execLaunchCommand cmd s
  | .signal cmd => Sys2Proof.Machine.execSignal cmd s
  | .waitsig cmd => Sys2Proof.Machine.execWaitsig cmd s
  | .waitsigReread cmd => Sys2Proof.Machine.execWaitsigReread cmd s
  | .copy cmd => Sys2Proof.Machine.execCopy cmd s
  | .portdrain cmd => Sys2Proof.Machine.execPortdrain cmd s
  | .porttrain cmd => Sys2Proof.Machine.execPorttrain cmd s
  | .routeload cmd => Sys2Proof.Machine.execRouteload cmd s
  | .routeswap cmd => Sys2Proof.Machine.execRouteswap cmd s
  | .placement => Sys2Proof.Machine.execPlacement s
  | .gangReservation => Sys2Proof.Machine.execGangReservation s
  | .preemption => Sys2Proof.Machine.execPreemption s
  | .restore => Sys2Proof.Machine.execRestore s
  | .dependenceEvaluation grid => Sys2Proof.Machine.execDependenceEvaluation grid s
  | .workgroupRetirement wg => Sys2Proof.Machine.execWorkgroupRetirement wg s
  | .gridRetirement grid => Sys2Proof.Machine.execGridRetirement grid s
  | .lineEviction agent line => Sys2Proof.Machine.execLineEviction agent line s
  | .heldBytesPlaced line => Sys2Proof.Machine.execHeldBytesPlaced line s
  | .fabricTimeout tag => Sys2Proof.Machine.execFabricTimeout tag s
  | .bundleCommitSend bundle => Sys2Proof.Machine.execBundleCommitSend bundle s
  | .bundleSettleSend bundle => Sys2Proof.Machine.execBundleSettleSend bundle s
  | .bundleWithdrawal bundle => Sys2Proof.Machine.execBundleWithdrawal bundle s
  | .frameReceived port octets => Sys2Proof.Machine.execFrameReceived port octets s
  | .readLine => Sys2Proof.Machine.execReadLine s
  | .versionFetch => Sys2Proof.Machine.execVersionFetch s
  | .resolvingFetch => Sys2Proof.Machine.execResolvingFetch s
  | .writeLine => Sys2Proof.Machine.execWriteLine s
  | .atomic => Sys2Proof.Machine.execAtomic s
  | .invalidate => Sys2Proof.Machine.execInvalidate s
  | .acknowledge => Sys2Proof.Machine.execAcknowledge s
  | .bundlePending => Sys2Proof.Machine.execBundlePending s
  | .bundleCommit => Sys2Proof.Machine.execBundleCommit s
  | .bundleSettle => Sys2Proof.Machine.execBundleSettle s
  | .collectiveShard => Sys2Proof.Machine.execCollectiveShard s
  | .managementFrame port neighbour width => Sys2Proof.Machine.execManagementFrame port neighbour width s
  | .linkReplayTimeout port => Sys2Proof.Machine.execLinkReplayTimeout port s
  | .emptyAckFrame port => Sys2Proof.Machine.execEmptyAckFrame port s
  | .portWiden port => Sys2Proof.Machine.execPortWiden port s
  | .portNarrow port => Sys2Proof.Machine.execPortNarrow port s
  | .portWidthTakesEffect port => Sys2Proof.Machine.execPortWidthTakesEffect port s
  | .wavelengthLoss port wavelength cause => Sys2Proof.Machine.execWavelengthLoss port wavelength cause s
  | .wavelengthRelock port wavelength orders => Sys2Proof.Machine.execWavelengthRelock port wavelength orders s
  | .collectiveSlotEnd ctx => Sys2Proof.Machine.execCollectiveSlotEnd ctx s
  | .collectiveCompletion ctx => Sys2Proof.Machine.execCollectiveCompletion ctx s
  | .ccctlEnable ctx value => Sys2Proof.Machine.execCcctlEnable ctx value s
  | .ccctlDisable ctx value => Sys2Proof.Machine.execCcctlDisable ctx value s
  | .flitReceived pair flit crcOk => Sys2Proof.Machine.execFlitReceived pair flit crcOk s
  | .colourLost pair colour cause => Sys2Proof.Machine.execColourLost pair colour cause s
  | .colourBGateOff pair => Sys2Proof.Machine.execColourBGateOff pair s
  | .colourBWake pair => Sys2Proof.Machine.execColourBWake pair s
  | .pairDrainEnd pair => Sys2Proof.Machine.execPairDrainEnd pair s
  | .routePairWrite pair value => Sys2Proof.Machine.execRoutePairWrite pair value s
  | .routePairRetrain pair => Sys2Proof.Machine.execRoutePairRetrain pair s
  | .pairRetrainEnd pair relocked => Sys2Proof.Machine.execPairRetrainEnd pair relocked s
  | .frequencyDecision die mhz => Sys2Proof.Machine.execFrequencyDecision die mhz s
  | .relockStart die => Sys2Proof.Machine.execRelockStart die s
  | .relockEnd die => Sys2Proof.Machine.execRelockEnd die s
  | .allowUpdate => Sys2Proof.Machine.execAllowUpdate s
  | .thermalEmergency core => Sys2Proof.Machine.execThermalEmergency core s
  | .thermalEmergencyEnd die => Sys2Proof.Machine.execThermalEmergencyEnd die s
  | .dramStackStateChange stack temp => Sys2Proof.Machine.execDramStackStateChange stack temp s
  | .powerClassChange => Sys2Proof.Machine.execPowerClassChange s
  | .budgetWindow => Sys2Proof.Machine.execBudgetWindow s
  | .bar2Read offset count => Sys2Proof.Machine.execBar2Read offset count s
  | .bar2Write offset octets => Sys2Proof.Machine.execBar2Write offset octets s
  | .powerOn => Sys2Proof.Machine.execPowerOn s
  | .bootStage verdict => Sys2Proof.Machine.execBootStage verdict s
  | .attestationGo octets => Sys2Proof.Machine.execAttestationGo octets s
  | .attestationReport => Sys2Proof.Machine.execAttestationReport s
  | .packageResetRequest => Sys2Proof.Machine.execPackageResetRequest s
  | .patrolScrub line => Sys2Proof.Machine.execPatrolScrub line s
  | .uncorrectableError addr => Sys2Proof.Machine.execUncorrectableError addr s
  | .correctedSoftErrors kind unit count => Sys2Proof.Machine.execCorrectedSoftErrors kind unit count s
  | .registerWrite offset value wide => Sys2Proof.Machine.execRegisterWrite offset value wide s
  | .closeCompletion agent => Sys2Proof.Machine.execCloseCompletion agent s
  | .postedAccessPerformed entry => Sys2Proof.Machine.execPostedAccessPerformed entry s
  | .controlStoreLoadEnd agent verified => Sys2Proof.Machine.execControlStoreLoadEnd agent verified s
  | .portCommandTimeout cmd => Sys2Proof.Machine.execPortCommandTimeout cmd s
  | .routeswapSemaphoreRead cmd => Sys2Proof.Machine.execRouteswapSemaphoreRead cmd s
  | .debuggerHalt core => Sys2Proof.Machine.execDebuggerHalt core s
  | .debuggerResume core => Sys2Proof.Machine.execDebuggerResume core s
  | .corePowerGating core off => Sys2Proof.Machine.execCorePowerGating core off s
  | .uncorrectableLinkError => Sys2Proof.Machine.execUncorrectableLinkError s

end Sys2Proof.Machine
end

