-- ==== Sys2Proof/Machine/Sched.lean ====
section
/-! DEFINITION. Fetch, the choice among agents, and what one turn of the machine does (R22, R36, R44, R49, R73, R146). -/

namespace Sys2Proof.Machine

/-- What a fetch brings: an instruction, a trap with its address, or a line that is on its way from another device. -/
inductive Fetched where
  | instr (i : Instr)
  | trap (c : Cause) (addr : Nat)
  | away (loc : Nat)
  deriving DecidableEq, Repr

/-- Software has written bytes of a word last while a team of the agent's grid was resident: what a fetch of it brings is indeterminate
(R50). -/
def wordRaced (s : State) (a : Agent) (loc : Nat) : Bool := (List.range 8).any (fun j => racedFor s a.grid (loc + j))

/-- One instruction word at an address (R48 to R50); where a line does not come, or comes poisoned, the address of the line (R195). -/
def fetchWord (s : State) (a : Agent) (va : Nat) : Except Fetched DWord :=
  if va % 8 ≠ 0 then .error (.trap .misaligned va)
  else match xlate s a.unit a.asid va .fetch (!a.priv) with
  | .error m => .error (.trap m.cause va)
  | .ok loc =>
    let bytes := (List.range 8).map (fun j => eligibleByte s a (loc + j))
    if wordRaced s a loc then .ok (Config.freeValue (s.freeCtr + (va - a.pc.toNat) / 8))
    else if poisoned s a loc then .error (.trap .memUncorrectable (va / 128 * 128))
    else if bytes.all Option.isSome then .ok (BitVec.ofNat 64 (ofBytes (bytes.map (·.getD 0))))
    else if !reachable s (homeOf loc) then .error (.trap .fabricUnreachable (va / 128 * 128))
    else match a.lostLine with
      | some (ln, c) => .error (if ln == lineOf loc then .trap c (va / 128 * 128) else .away loc)
      | none => .error (.away loc)

/-- After the fetch of words of which one may have been indeterminate (R9, R50). -/
def pastFetch (s : State) (a : Agent) : State :=
  if [a.pc.toNat, a.pc.toNat + 8].any (fun va => (xlate s a.unit a.asid va .fetch (!a.priv)).toOption.any (wordRaced s a)) then s.used 2
  else s

/-- The agent's unit keeps the translations of the words of an instruction it has fetched (R317). -/
def fillFetch (s : State) (a : Agent) (i : Instr) : State :=
  fillTlbs s a.unit a.asid [a.pc.toNat, a.pc.toNat + (shapeOf i).size - 8]

/-- The trap of words that are no instruction (R72, R73): the wrong context, or a v register in a forester program, comes before
the wrong frame. -/
def rejectCause (a : Agent) : Reject → Cause
  | .illegalFrame => .illegalFrame
  | .illegalOpcode => .illegalOpcode
  | .frameNotPermitted runs v =>
    if (a.kind == .forester && (runs == .team || v)) || (a.kind == .team && runs == .forester) then .illegalOpcode else .illegalFrame
  | .truncated => .illegalFrame

/-- The instruction at an agent's pc: the second word is fetched only for an L frame (R49). -/
def fetch (s : State) (a : Agent) : Fetched :=
  match fetchWord s a a.pc.toNat with
  | .error e => e
  | .ok w0 =>
    let second := if w0.extractLsb' 62 2 == 0b10#2 then fetchWord s a (a.pc.toNat + 8) else .ok 0
    match second with
    | .error e => e
    | .ok w1 =>
      match decode (wordBytes [w0, w1]) with
      | .ok (i, _) => .instr i
      | .error r => .trap (rejectCause a r) 0

/-- An agent is chosen, fetches and issues (R22, R36). -/
def issueOne (s : State) (k : Nat) : Host.Outcome State Fault Refusal :=
  let s := { s with cur := k, issued := false }
  let a := s.agent k
  let s := s.setAgent k { a with state := .run }
  match fetch s (s.agent k) with
  | .instr i => exec i (fillFetch (pastFetch s (s.agent k)) (s.agent k) i)
  | .trap c addr => .next (takeTrap (pastFetch s (s.agent k)) k c addr)
  | .away loc =>
    .next (fetchLine (s.setAgent k a) a.asid loc (.issue k))

/-- After an agent has been chosen: it no longer stands before a yielded team, and its own yield has lapsed unless it has
just been set (R44). -/
def markChosen (s : State) (k : Nat) (wasYielded : Bool) : State :=
  let pass := fun (e : Nat × Agent) =>
    let rest := e.2.passFor.filter (· != k)
    (e.1, { e.2 with passFor := rest, yielded := e.2.yielded && !rest.isEmpty && !(e.1 == k && wasYielded) })
  { s with agents := s.agents.map pass }

/-- Try agents in order: the first that issues ends the turn (R44). -/
def tryAgents (s : State) : List Nat → (State → Nat → State) → Host.Outcome State Fault Refusal
  | [], _ => .next s
  | k :: ks, chosen =>
    match issueOne s k with
    | .next t => if t.issued then .next (markChosen (chosen t k) k false) else tryAgents t ks chosen
    | r => r

/-- An agent may be chosen: READY, in no instruction that an event will end, and not stopped at a boundary for a CTXSV that waits to save
it (R22, R338). -/
def choosable (s : State) (a : Agent) : Bool := a.state == .ready && !heldByEvent a && !awaitedAt s a

/-- An agent is able to issue: it may be chosen, and its instruction would issue (R44). -/
def able (s : State) (k : Nat) : Bool :=
  choosable s (s.agent k) && (match issueOne s k with
    | .next t => t.issued
    | _ => true)

/-- On a core, the yields that stand before no team that is able to issue lapse (R44). -/
def lapseYields (s : State) (c : Nat) : State :=
  let lapse := fun (a : Agent) => a.kind == .team && a.core == c && a.yielded && !a.passFor.any (able s)
  { s with agents := s.agents.map (fun e => if lapse e.2 then (e.1, { e.2 with yielded := false, passFor := [] }) else e) }

/-- The order of one class on a core: slots after the round-robin position, without those passed over for a yield (R44). -/
def classOrder (s : State) (c prio : Nat) (skip : Option Nat) : List Nat :=
  let pos := Tab.get (s.core c).rr prio 15
  let at_ := fun sl => s.agentsWhere (fun k a => a.kind == .team && a.core == c && a.slot == sl && a.prio == prio
    && choosable s a && !a.yielded && some k != skip)
  ((List.range 16).map (fun j => at_ ((pos + 1 + j) % 16))).flatten

/-- The die of a core is relocking, or the core is halted or gated: nothing issues there (R319, R355). -/
def coreStopped (s : State) (c : Nat) : Bool := dieStopped s (c / 64) || (s.core c).halted || (s.core c).gated

/-- A cycle of a core begins: each class's position has moved to the last team of it that the cycle before chose (R44). -/
def startCycle (s : State) (c : Nat) : State :=
  s.setCore c { (s.core c) with chosen := none, late := false, rr := (s.core c).rrNext.foldl (fun t e => Tab.put t e.1 e.2) (s.core c).rr, rrNext := [] }

/-- The teams of a core in the order in which a slot tries them: by class, and round robin within one (R44). -/
def slotOrder (s : State) (c slot : Nat) : List Nat :=
  ([0, 1, 2, 3].map (fun p => classOrder s c p (if slot = 0 then none else (s.core c).chosen))).flatten

/-- A team has been chosen in a cycle; `s` is the state in which the slot chose, `t` the one that the team's issue left (R44). -/
def slotMark (s : State) (c : Nat) (t : State) (k : Nat) : State :=
  t.setCore c { (t.core c) with rrNext := Tab.put (t.core c).rrNext (s.agent k).prio (s.agent k).slot, chosen := some k }

/-- The state in which a slot of a core chooses: a cycle begins with slot 0, or with slot 1 where that has had its turn in the cycle
before (R36); and yields that stand before no team able to issue have lapsed (R44). -/
def slotState (s : State) (c slot : Nat) : State :=
  let s := if slot = 0 || (s.core c).late then startCycle s c else s
  lapseYields (if slot = 0 then s else s.setCore c { (s.core c) with late := true }) c

/-- A slot of a core chooses and issues (R44): slot 1 takes another team than slot 0 did in the cycle. -/
def slotTurn (s : State) (c slot : Nat) : Host.Outcome State Fault Refusal :=
  let s := slotState s c slot
  if coreStopped s c then .next s else tryAgents s (slotOrder s c slot) (slotMark s c)

/-- The contexts of a grove's forester in the order in which they are tried: the higher class, alternating within one (R146). -/
def foresterOrder (s : State) (g : Nat) : List Nat :=
  let at_ := fun n => s.agentsWhere (fun _ a => a.kind == .forester && a.grove == g && a.slot == n && choosable s a)
  let other := 1 - (s.grove g).lastContext
  let pair := at_ other ++ at_ (1 - other)
  ([0, 1, 2, 3].map (fun p => pair.filter (fun k => (s.agent k).prio == p))).flatten

/-- The forester's context that issued last, `s` being the state in which it was chosen (R146). -/
def foresterMark (s : State) (g : Nat) (t : State) (k : Nat) : State := t.setGrove g { (t.grove g) with lastContext := (s.agent k).slot }

/-- A grove's forester issues from a context; not while its die's clock stands still (R146, R355). -/
def foresterTurn (s : State) (g : Nat) : Host.Outcome State Fault Refusal :=
  if dieStopped s (g / 8) then .next s else tryAgents s (foresterOrder s g) (foresterMark s g)

/-- Time passes: the reference timer, and each die's cycles at its frequency unless it relocks (R352 to R354). -/
def tickDie (ns : Nat) (d : Die) : Die :=
  if d.relock.isSome then d
  else
    let n := (d.rest + ns * d.mhz) / 1000
    let x := d.res + 1900 * n
    { d with cyc := (d.cyc + n) % 2 ^ 64, rest := (d.rest + ns * d.mhz) % 1000
             ncyc := (d.ncyc + x / d.mhz) % 2 ^ 64, res := x % d.mhz }

def elapse (s : State) (ns : Nat) : State :=
  { s with reftime := s.reftime + ns
           dies := (List.range 8).map (fun d => (d, tickDie ns (s.die d))) }

/-- One turn of the agenda. -/
def runTurn (s : State) (t : Turn) : Host.Outcome State Fault Refusal :=
  match t with
  | .slot c k => slotTurn s (c % 512) (k % 2)
  | .forester g => foresterTurn s (g % 64)
  | .elapse ns => .next (elapse s ns)
  | .event i => if shapeOf i == .event then exec i s else .refused .notAnEvent

/-- The event that would end the instruction an agent is held in. -/
def holdTurns (s : State) (k : Nat) (a : Agent) : List Turn :=
  match a.hold with
  | .bankDrain _ _ => [.event (.bankDrainEnd k)]
  | .claimDrain _ _ => [.event (.claimDrainEnd k)]
  | .controlStore _ _ => [.event (.controlStoreLoadEnd k true)]
  | .tlbi => match s.shootdown with
    | some (_, _, _, _, u :: _) => [.event (.tlbiAcknowledge u)]
    | _ => []
  | _ => []

/-- The events of a round that concern one agent, and its turn to issue. -/
def agentTurns (s : State) (e : Nat × Agent) : List Turn :=
  let k := e.1
  let a := e.2
  let closes : List Turn := if a.closes.isEmpty then [] else [.event (.closeCompletion k)]
  let results : List Turn := a.lahead.map (fun x => .event (.longLatencyCompletion k x.token))
  let matrix : List Turn := a.mxq.map (fun x => .event (if x.running then .mxStep k x.ticket else .mxDispatch k x.ticket))
  let ended : List Turn := a.mxq.map (fun x => .event (.mxEntryComplete k x.ticket))
  let barrier : List Turn := if a.state == .barrier then [.event (.barrierCompletionNotice k)] else []
  let sleep : List Turn := if a.state == .sleep then [.event (.sleepIntervalExpires k)] else []
  let turn : List Turn := if a.kind == .team then [.slot a.core 0] else [.forester a.grove]
  [closes, results, matrix, ended, barrier, sleep, holdTurns s k a, turn].flatten

/-- The events of a round that concern one command. -/
def cmdTurns (c : Nat) : List Turn :=
  [.event (.launchCommand c), .event (.signal c), .event (.waitsig c), .event (.waitsigReread c), .event (.copy c),
   .event (.portdrain c), .event (.porttrain c), .event (.routeload c), .event (.routeswap c), .event (.routeswapSemaphoreRead c)]

/-- The events of a round that concern the fabric: operations received, timeouts, held lines, collectives. -/
def fabricTurns (s : State) : List Turn :=
  let ops : List Turn := [.event .readLine, .event .versionFetch, .event .resolvingFetch, .event .writeLine, .event .atomic,
    .event .invalidate, .event .acknowledge, .event .bundlePending, .event .bundleCommit, .event .bundleSettle, .event .collectiveShard]
  let late : List Turn := s.sent.map (fun e => .event (.fabricTimeout e.1))
  let held : List Turn := (linesOf s.held).map (fun ln => .event (.heldBytesPlaced ln))
  let colls : List Turn := ((s.collectives.filter (fun e => e.2.forked)).map (fun e =>
    [Turn.event (.collectiveSlotEnd e.1), .event (.collectiveCompletion e.1)])).flatten
  let ports : List Turn := ((s.cmds.filter (fun e => !e.2.done)).map (fun e => Turn.event (.portCommandTimeout e.1)))
  [if s.inbox.isEmpty then [] else ops, late, held, colls, ports].flatten

/-- The events of a round that concern engines, the front end and the distributor. -/
def engineTurns (s : State) : List Turn :=
  let posted : List Turn := s.posted.map (fun e => .event (.postedAccessPerformed e.1))
  let copies : List Turn := s.copies.map (fun e => .event (.copyLineOperation e.1))
  let mats : List Turn := (s.sliceQueue.filter (fun e => !e.2.isEmpty)).map (fun e => .event (.sequencerCommand e.1))
  let hung : List Turn := (s.sliceQueue.filter (fun e => !e.2.isEmpty)).map (fun e => .event (.clearingWatchdogTrip e.1))
  let drains : List Turn := (s.pairs.filter (fun e => e.2.next.isSome)).map (fun e => .event (.pairDrainEnd e.1))
  let tiles : List Turn := (s.cores.filter (fun e => !e.2.tileQueue.isEmpty)).map (fun e => .event (.tileAccessPerformed e.1))
  let bundles : List Turn := (s.bundles.map (fun e => [Turn.event (.bundleCommitSend e.1), .event (.bundleSettleSend e.1), .event (.bundleWithdrawal e.1)])).flatten
  let faults : List Turn := (s.faults.map (fun f => Turn.event (.faultRecordPost f.asid))).dedup
  let queues : List Turn := s.queues.map (fun e => .event (.commandTakeUp e.1))
  let cmds : List Turn := ((s.cmds.filter (fun e => !e.2.done)).map (fun e => cmdTurns e.1)).flatten
  let grids : List Turn := s.grids.map (fun e => .event (.dependenceEvaluation e.1))
  let place : List Turn := [.event .gangReservation, .event .placement, .event .restore, .event .preemption]
  let wgs : List Turn := s.wgs.map (fun e => .event (.workgroupRetirement e.1))
  let ends : List Turn := s.grids.map (fun e => .event (.gridRetirement e.1))
  let logged := fun (e : SideEntry) => Turn.event (.sideLogReplay e.agent (pageBase s (s.agent e.agent) e.va))
  let orphans : List Turn := s.orphans.map (fun e => .event (.closeCompletion e.1))
  let replays : List Turn := ((s.cores.map (fun e => e.2.sideLog)).flatten.map logged).dedup
  let relocks : List Turn := (s.dies.filter (fun e => e.2.relock.isSome)).map (fun e => .event (.relockEnd e.1))
  [relocks, drains, orphans, posted, copies, mats, hung, tiles, bundles, faults, replays, queues, cmds, grids, place, wgs, ends, fabricTurns s].flatten

/-- With nothing on the agenda, the model goes round: time passes, every event that has something to act on takes place once,
and every core and forester that holds an agent issues (log entry 8). -/
def roundOf (s : State) : List Turn :=
  if s.bootFail != 0 then []
  else if s.bootStage != 15 then [.event (if !s.powered then .powerOn else .bootStage 0)]
  else .elapse 10 :: (engineTurns s ++ (s.agents.map (agentTurns s)).flatten)

/-- One step: the next turn of the agenda, or of a round when the agenda is empty. -/
def stepOf (s : State) : Host.Outcome State Fault Refusal :=
  match s.agenda with
  | t :: ts => runTurn { s with agenda := ts } t
  | [] => match roundOf s with
    | [] => .next s
    | t :: ts => runTurn { s with agenda := ts } t

/-- The bytes of an instruction given as the opcode table numbers its bits. -/
def tableBytes (nbits w : Nat) : List Byte := toBytes 16 (w % 2 ^ nbits)

/-- The context an instruction runs in, for placing it: forester-only instructions in a forester context (R68). -/
def homeKind (bs : List Byte) : AgentKind :=
  match decode bs with
  | .ok (i, _) => if ((rowOf i).map OpRow.runs).getD .both == .forester then .forester else .team
  | .error _ => .team

/-- An agent that runs a word at 0x10_0000 of an address space mapped by one page (log entry 9). -/
def loneAgent (kind : AgentKind) : Agent :=
  { Agent.blank with kind := kind, allot := if kind == .team then 192 else 0, pc := 0x100000, priv := true
                     mask := BitVec.allOnes 1024 &&& 0xFFFFFFFF }

/-- The state with an instruction placed where the next step fetches: an address space 0 whose entry is at 0 and whose one
page of 32 GiB maps to the device's own memory, the instruction at 0x10_0000, and one agent there (log entry 9). -/
def placeWord (s : State) (nbits w : Nat) : State :=
  let bs := tableBytes nbits w
  let kind := homeKind bs
  let root := 0x40000
  let pte := 2 ^ 52 * s.device + 0x3F
  let m := ((s.mem.writeBytes 0 (toBytes 8 root)).writeBytes 40 (toBytes 4 1)).writeBytes root (toBytes 8 pte)
  { s with mem := m.writeBytes 0x100000 bs, asidtab := 0, asidCache := [], tlbs := [], agents := [(0, loneAgent kind)]
           agenda := [if kind == .team then .slot 0 0 else .forester 0] }

end Sys2Proof.Machine
end

