-- ==== Sys2Proof/Safety.lean ====
section
/-! DEFINITION. The terms in which claims are made: what a safe step is, when an instruction comes to its own description,
what stays as it was, and what a destination reads afterwards. -/

namespace Sys2Proof.Safety

open Sys2Proof Sys2Proof.Machine

/-- The invariant of the device: its memory is in the canonical form. -/
abbrev Inv (s : State) : Prop := Memory.wf s.mem = true

/-- The mask of every team, and every entry of its mask stack, in hardware and spilled, names only lanes that the team has (R24, R29). -/
def MaskInv (s : State) : Prop := ∀ k a, Tab.find s.agents k = some a → a.kind = .team →
  a.mask &&& ~~~teamLanes a = 0 ∧ ∀ e ∈ a.stack ++ a.spilled, e.outer &&& ~~~teamLanes a = 0 ∧ e.alt &&& ~~~teamLanes a = 0

/-- A safe step: neither a fault nor a refusal. -/
def SafeStep (s : State) : Prop := ∃ t, step s = .next t

/-- `a` is the agent that issues `i`, and nothing comes before the instruction's own description: the agent waits for no
event and no window of its own, and the word, the recorded causes and the lookahead check bring no trap (R39, R40, R72,
R73, R323). -/
abbrev Ready (s : State) (a : Agent) (i : Instr) : Prop :=
  Tab.find s.agents s.cur = some a ∧ notYet s a i = none ∧ earlyTrap s a i = none ∧ dueReport a i = none

/-- The registers that `i` writes in its lanes are no destination and no data operand of an outstanding instruction (R40); and no result
that has come is written as its window ends with `i` (R39). -/
abbrev Quiet (s : State) (a : Agent) (i : Instr) : Prop :=
  (∀ p ∈ writeParts s a i, hitDests a p.1 = [] ∧ ∀ e ∈ a.lahead, hitLanes e p.1 (lanesMask p.2) = 0) ∧
  ∀ e ∈ a.lahead, e.done = true → 2 ≤ e.remain

/-- A register whose writes are ignored (R56): s62 and s63. -/
abbrev fixedReg (r : Nat) : Prop := r = 254 ∨ r = 255

/-- Nothing but the issuing agent differs (and the model's own mark that it issued). -/
def OnlyAgent (s t : State) : Prop :=
  { t with agents := s.agents, issued := s.issued } = s ∧ ∀ k, k ≠ s.cur → Tab.find t.agents k = Tab.find s.agents k

/-- Two agents differ at most in registers, FSTAT, pc, windows and the marks of issuing. -/
abbrev SameButRegs (a b : Agent) : Prop :=
  { b with vregs := a.vregs, sregs := a.sregs, fstat := a.fstat, pc := a.pc, lahead := a.lahead, counted := a.counted
           waiting := a.waiting, hold := a.hold, ringOn := a.ringOn, ringGot := a.ringGot
           state := a.state, yielded := a.yielded, passFor := a.passFor, lostLine := a.lostLine } = a

/-- Every register but those listed reads as before; in a lane outside `acts`, those too (an s register as in lane 0). -/
def RegsKept (a b : Agent) (written : List Nat) (acts : Nat → Bool) : Prop :=
  ∀ r l, l < a.nlanes → (r < 192 ∨ l = 0) → (r ∉ written ∨ acts l = false ∨ fixedReg r) → regGet b r l = regGet a r l

/-- In the lanes of `acts`, the n registers from d on hold the 32·n bits of `x`, low register first; elsewhere, and where
writes are ignored, what they held (R32, R56, R58). -/
def Holds (a b : Agent) (d : Reg) (n : Nat) (acts : Nat → Bool) (x : Nat → Nat) : Prop :=
  ∀ j l, j < n → l < a.nlanes → (d.toNat + j < 192 ∨ l = 0) →
    regGet b (d.toNat + j) l =
      if acts l = true ∧ ¬ fixedReg (d.toNat + j) then BitVec.ofNat 32 (x l / 2 ^ (32 * j)) else regGet a (d.toNat + j) l

/-- `i` issues in `s` and leaves `t`, with `b` in the place of the issuing agent. -/
abbrev Issues (i : Instr) (s t : State) (b : Agent) : Prop := exec i s = .next t ∧ Tab.find t.agents s.cur = some b

/-- `i` issues in `s`; the agent goes on after it with `x` in its destination. -/
def Gives (i : Instr) (s : State) (a : Agent) (d : Reg) (n : Nat) (x : Nat → Nat) : Prop :=
  ∃ t b, Issues i s t b ∧ b.pc = nextPc a i ∧ Holds a b d n (actsIn a i) x

/-- `i` issues in `s`; its own effect leaves `t`, and it goes on at the next instruction (`finish`: windows, pc, yield). -/
abbrev GoesOn (i : Instr) (s : State) (a : Agent) (t : State) : Prop := exec i s = .next (finish i s t (nextPc a i) [])

/-- `i` issues in `s`; its own effect leaves `t`, and it goes on at `pc`. -/
abbrev GoesTo (i : Instr) (s t : State) (pc : DWord) : Prop := exec i s = .next (finish i s t pc [])

/-- `i` issues in `s` as a long-latency instruction: its own effect leaves `t`, its result is outstanding as `e` (R39). -/
abbrev Starts (i : Instr) (s : State) (a : Agent) (t : State) (e : LAEntry) : Prop := exec i s = .next (finish i s t (nextPc a i) [e])

/-- `i` gives the integers `x` clamped to the range of its N-bit type, and sets SAT exactly when one was out of range (R85,
R87). -/
def Clamps (i : Instr) (s : State) (a : Agent) (d : Reg) (n : Nat) (u : Bool) (x : Nat → Int) : Prop :=
  let lo : Int := if u then 0 else -(2 ^ (32 * n - 1))
  let hi : Int := if u then 2 ^ (32 * n) - 1 else 2 ^ (32 * n - 1) - 1
  ∃ t b, Issues i s t b ∧ b.pc = nextPc a i ∧ Holds a b d n (actsIn a i) (fun l => (max lo (min hi (x l)) % 2 ^ (32 * n)).toNat) ∧
    b.fstat = if (actLanes a i).any (fun l => decide (x l < lo) || decide (hi < x l)) then a.fstat ||| 32 else a.fstat

/-- `i` issues in `s`; the agent goes on after it with the values of `x` in its destination, and their flags set (R85). -/
def GivesFlags (i : Instr) (s : State) (a : Agent) (d : Reg) (n : Nat) (x : Nat → Nat × Word) : Prop :=
  ∃ t b, Issues i s t b ∧ b.pc = nextPc a i ∧ Holds a b d n (actsIn a i) (fun l => (x l).1) ∧
    b.fstat = a.fstat ||| orLanes (actLanes a i) (fun l => (x l).2)

/-! ### Floating point, as numbers (R83, R97, R122) -/

/-- The number that a finite value is. -/
def ratOf : FVal → ℚ
  | .fin n m e => (if n then -1 else 1) * (m : ℚ) * (2 : ℚ) ^ e
  | _ => 0

/-- The place of a value that is no NaN among all numbers and the two infinities. -/
def placeOf : FVal → WithBot (WithTop ℚ)
  | .inf true => ⊥
  | .inf false => ((⊤ : WithTop ℚ) : WithBot (WithTop ℚ))
  | x => ((ratOf x : WithTop ℚ) : WithBot (WithTop ℚ))

/-- The vector core's formats (R83). -/
abbrev vectorFmt (fm : Fmt) : Prop := fm = fp16 ∨ fm = bf16 ∨ fm = fp32 ∨ fm = fp64

/-- A code of a format is the finite number `r`. -/
abbrev IsNumber (fm : Fmt) (c : Nat) (r : ℚ) : Prop := c < 2 ^ fm.width ∧ (decodeF fm c).isFin = true ∧ r = ratOf (decodeF fm c)

/-- A mode rounds a number of a sign away from zero. -/
abbrev roundsAway (rm : Nat) (neg : Bool) : Prop := rm = 2 ∧ neg = false ∨ rm = 3 ∧ neg = true

/-- A magnitude rounds, exponents unbounded, beyond the largest finite number of a format (R97). -/
def Overflows (fm : Fmt) (rm : Nat) (neg : Bool) (x : ℝ) : Prop :=
  let top : ℝ := 2 ^ fm.emax
  (rm = 0 ∧ top * (2 - 2 ^ (-(fm.m : Int) - 1)) ≤ x) ∨ (roundsAway rm neg ∧ top * (2 - 2 ^ (-(fm.m : Int))) < x) ∨
    (rm ≠ 0 ∧ ¬ roundsAway rm neg ∧ top * 2 ≤ x)

/-- A magnitude rounds, exponents unbounded, below the smallest normal number of a format (R97). -/
def TinyRounded (fm : Fmt) (rm : Nat) (neg : Bool) (x : ℝ) : Prop :=
  let low : ℝ := 2 ^ fm.emin
  (rm = 0 ∧ x < low * (1 - 2 ^ (-(fm.m : Int) - 2))) ∨ (roundsAway rm neg ∧ x ≤ low * (1 - 2 ^ (-(fm.m : Int) - 1))) ∨
    (rm ≠ 0 ∧ ¬ roundsAway rm neg ∧ x < low)

/-- A code and flags are the exact nonzero number `v` rounded once to a format, in a mode (R83, R97). -/
def RoundsTo (fm : Fmt) (rm : Nat) (v : ℝ) (c : Nat) (w : Word) : Prop :=
  ∃ neg : Bool, (neg = true ↔ v < 0) ∧
    (Overflows fm rm neg |v| → c = (if rm = 0 ∨ roundsAway rm neg then fm.infCode neg else fm.maxCode neg) ∧ w = flagOF ||| flagNX) ∧
    (¬ Overflows fm rm neg |v| → ∃ r : ℚ, IsNumber fm c r ∧ c / 2 ^ (fm.width - 1) = b2n neg ∧
      (rm = 0 → ∀ c' (r' : ℚ), IsNumber fm c' r' → |v - r| ≤ |v - r'| ∧ (|v - r| = |v - r'| → r' ≠ r → c % 2 = 0)) ∧
      (roundsAway rm neg → |v| ≤ |(r : ℝ)| ∧ ∀ c' (r' : ℚ), IsNumber fm c' r' → |v| ≤ |(r' : ℝ)| → |r| ≤ |r'|) ∧
      (rm ≠ 0 → ¬ roundsAway rm neg → |(r : ℝ)| ≤ |v| ∧ ∀ c' (r' : ℚ), IsNumber fm c' r' → |(r' : ℝ)| ≤ |v| → |r'| ≤ |r|) ∧
      (w.getLsbD 4 = true ↔ (r : ℝ) ≠ v) ∧ (w.getLsbD 3 = true ↔ (r : ℝ) ≠ v ∧ TinyRounded fm rm neg |v|) ∧
      ∀ k, k ≠ 3 → k ≠ 4 → w.getLsbD k = false)

/-- The sign bits of the elements of an F word's float type (R83, R121). -/
def signBits (f : FArgs) : Nat := if fT f.mod = 1 then 2 ^ 63 else if fT f.mod = 0 then 2 ^ 31 else 0x80008000

/-- FSTAT keeps every bit it has, and gains none but sticky flags (R85). -/
def StickyOnly (a b : Agent) : Prop :=
  (∀ k, a.fstat.getLsbD k = true → b.fstat.getLsbD k = true) ∧ ∀ k, 6 ≤ k → b.fstat.getLsbD k = a.fstat.getLsbD k

/-- A cross-lane instruction gives `x` in the active lanes of a v destination, or the value of the first active lane, if any, to an
s destination; it keeps all else and sets the flags `w` (R108). -/
def Crosses (i : Instr) (s : State) (a : Agent) (d : Reg) (n : Nat) (x : Nat → Nat × Word) (w : Word) : Prop :=
  ∃ t b, Issues i s t b ∧ OnlyAgent s t ∧ b.pc = nextPc a i ∧ b.fstat = a.fstat ||| w ∧
    (d.toNat < 192 → Holds a b d n (crossActive a i) (fun l => (x l).1) ∧ RegsKept a b ((List.range n).map (d.toNat + ·)) (crossActive a i)) ∧
    (192 ≤ d.toNat → (∀ l ls, crossLanes a i = l :: ls → Holds a b d n (fun _ => true) (fun _ => (x l).1)) ∧
      RegsKept a b ((List.range n).map (d.toNat + ·)) (fun _ => !(crossLanes a i).isEmpty))

/-- `i` starts, its own effect leaving `t`, with a result of `n` registers outstanding: in each lane acted on the value, and the
flags, that `x` gives (R39, R85). -/
def LongFrom (i : Instr) (s : State) (a : Agent) (t : State) (d : Reg) (n : Nat) (x : Nat → Nat × Word) : Prop :=
  ∃ e, Starts i s a t e ∧ e.dest = d ∧ e.nreg = (if 0xFE ≤ d.toNat then 0 else n) ∧ e.remain = (shapeOf i).la.toNat ∧ e.done = false ∧
    e.taint = 0 ∧ e.err = none ∧ e.lanes = lanesMask (actLanes a i) ∧
    ∀ l, l < (if isS d then 1 else a.nlanes) → actsIn a i l = true → e.value l = (x l).1 ∧ e.flags.getD l 0 = (x l).2

/-- `i` starts with that result outstanding and has no other effect. -/
abbrev LongResult (i : Instr) (s : State) (a : Agent) (d : Reg) (n : Nat) (x : Nat → Nat × Word) : Prop := LongFrom i s a s d n x

/-- `i` starts as a load of `n` registers from the translated lanes `ls`; where every byte is at hand, none is poisoned and none
is being written by an engine, with the bytes that the agent sees as each lane's value (R39, R190). -/
def Loads (i : Instr) (s : State) (a : Agent) (d : Reg) (n sext : Nat) (ls : List (Nat × Nat × List Nat)) : Prop :=
  ∃ t e, Starts i s a t e ∧ e.dest = d ∧ e.nreg = (if 0xFE ≤ d.toNat then 0 else n) ∧ e.sext = sext ∧ e.parks = true ∧
    e.remain = (shapeOf i).la.toNat ∧ e.done = false ∧ e.lanes = lanesMask (actLanes a i) ∧
    (unjoined s (ls.map (·.2.2)).flatten = [] →
      (∀ q ∈ ls, ∀ x ∈ q.2.2.zipIdx,
        (loadByte s a (q.2.1 + x.2) x.1).isSome = true ∧ fracture s a x.1 = [] ∧ poisoned s a x.1 = false) →
      e.taint = 0 ∧ e.tags = [] ∧ e.err = none ∧
      ∀ l va locs, ls.find? (fun q => q.1 == l) = some (l, va, locs) → l < (if isS d then 1 else a.nlanes) → actsIn a i l = true →
        e.values[l]? = some (ofBytes (locs.zipIdx.map (fun x => (loadByte s a (va + x.2) x.1).getD 0))))

/-- No byte of the lanes' accesses lies in a store of the agent that is side-logged (R245). -/
abbrev Unlogged (s : State) (eas : List (Nat × Nat)) (n : Nat) : Prop := ∀ e ∈ eas, ∀ j, j < n → sideCovers s s.cur (e.2 + j) = false

/-- The forms of the global load: destination, size, and the lanes' addresses (R189). -/
def LoadForm (a : Agent) (i : Instr) (d : Reg) (sz : Nat) (eas : List (Nat × Nat)) : Prop :=
  (∃ f, i = .ld f ∧ d = f.d ∧ sz = f.mod.toNat ∧ eas = globalEas a i f.a (fOff f)) ∨
  (∃ x, i = .ldL x ∧ d = x.d ∧ sz = x.mod.toNat ∧ eas = globalEas a i x.a x.imm33.toInt)

/-- The forms of the global store: data, size, and the lanes' addresses. -/
def StoreForm (a : Agent) (i : Instr) (d : Reg) (sz : Nat) (eas : List (Nat × Nat)) : Prop :=
  (∃ f, i = .st f ∧ d = f.d ∧ sz = f.mod.toNat ∧ eas = globalEas a i f.a (fOff f)) ∨
  (∃ x, i = .stL x ∧ d = x.d ∧ sz = x.mod.toNat ∧ eas = globalEas a i x.a x.imm33.toInt)

/-- The forms of the scratchpad load and of the scratchpad store. -/
def ScratchLoadForm (a : Agent) (i : Instr) (d : Reg) (sz : Nat) (eas : List (Nat × Nat)) : Prop :=
  (∃ f, i = .lds f ∧ d = f.d ∧ sz = f.mod.toNat ∧ eas = scratchEas a i f.a (fOff f)) ∨
  (∃ x, i = .ldsL x ∧ d = x.d ∧ sz = x.mod.toNat ∧ eas = scratchEas a i x.a x.imm33.toInt)
def ScratchStoreForm (a : Agent) (i : Instr) (d : Reg) (sz : Nat) (eas : List (Nat × Nat)) : Prop :=
  (∃ f, i = .sts f ∧ d = f.d ∧ sz = f.mod.toNat ∧ eas = scratchEas a i f.a (fOff f)) ∨
  (∃ x, i = .stsL x ∧ d = x.d ∧ sz = x.mod.toNat ∧ eas = scratchEas a i x.a x.imm33.toInt)

/-- The forms of the atomics with return: bytes accessed, lanes and addresses, what a lane writes for what it read, and what it
returns for it (R196, R198, R201). -/
def AtomForm (a : Agent) (f : FArgs) (i : Instr) (n : Nat) (eas : List (Nat × Nat)) (new : Nat → Nat → Option Nat)
    (val : Nat → Nat → Nat) : Prop :=
  let op := f.b.toNat / 8
  let sz := f.b.toNat % 8
  let x := fun l => rdN a f.d.toNat (atomSzRegs op sz) l
  let wide := 2 ^ (f.mod.toNat % 4)
  let one := if f.mod.toNat % 4 = 1 then 2 else 1
  (i = .atom f ∧ n = atomSzBytes op sz ∧ eas = globalEas a i f.a 0 ∧
    new = (fun l m => if op = 0 then none else some (atomNew op sz m (x l))) ∧ val = fun _ m => m) ∨
  (i = .atomf f ∧ n = atomSzBytes op sz ∧ eas = globalEas a i f.a 0 ∧
    new = (fun l m => some (atomNew op sz m (x l))) ∧ val = fun _ m => m) ∨
  (i = .atomc f ∧ n = 4 * wide ∧ eas = globalEas a i f.a 0 ∧
    new = (fun l m => if m = rdN a f.b.toNat wide l then some (rdN a f.d.toNat wide l) else none) ∧ val = fun _ m => m) ∨
  (i = .atomag f ∧ n = 4 * one ∧ actLanes a i ≠ [] ∧ eas = [(0, rdN a f.a.toNat 2 0)] ∧
    new = (fun _ m => some (addN (32 * one) m (laneSum a f.d one (actLanes a i)))) ∧
    val = fun l m => (m + laneSum a f.d one ((actLanes a i).filter (· < l))) % 2 ^ (32 * one))

/-- `i` issues in `s` and stays at its address in a waiting state, `t` but for its windows (R22, R39). -/
abbrev Stays (i : Instr) (s t : State) : Prop := exec i s = .next (finishHold i t)

/-- `i` traps in `s`: nothing but the trap itself happens (R10). -/
abbrev Traps (i : Instr) (s : State) (c : Cause) (addr : Nat) : Prop := exec i s = .next (takeTrap s s.cur c addr)

/-- What stands when a close of the current agent may begin: its posted accesses are performed, and bundles of it that were
withdrawn are published anew (R229, R234, R244). -/
abbrev beginClose (u : State) : State := republish (drainAll u u.cur) u.cur

/-- A close at a scope, made by the current agent at `u`, completes there and leaves `w` (R232). -/
abbrev Releases (u w : State) (sc : Nat) : Prop :=
  let v := beginClose u
  (2 ≤ sc → unplaceable v v.cur = none) ∧ closeNowFree v v.cur = true ∧ w = closeNow v v.cur sc ∧ closesPending w w.cur = false

/-- What an access of an ordering leaves before it is performed: a release makes a close first, and the others leave `s` (R232). -/
def Orders (s u : State) (ord sc : Nat) : Prop := (ord < 2 ∧ u = s) ∨ (2 ≤ ord ∧ Releases s u sc)

/-- The agent once a barrier operation at a local home has been performed: it has observed what is there, and holds no longer. -/
abbrev afterObject (r : BarRun) : State := r.s.modAgent r.s.cur (fun b => { b with lastObs := r.s.strongSeq, hold := .none })

/-- The wait at a barrier object that `i` makes in `t`: with no arrival of the agent there it opens at once; else it goes on, with an open,
where the arrival's generation is over, and stays in BARRIER where it is not (R248). -/
def BarEnds (i : Instr) (s t : State) (a : Agent) (sc addr loc : Nat) : Prop :=
  (t.me.arrivals.find? (fun e => e.1 == addr) = none → GoesOn i s a (endWait t addr sc)) ∧
  (∀ e, t.me.arrivals.find? (fun e => e.1 == addr) = some e →
    let r := objectAct t t.cur t.me.asid loc .read
    let u := afterObject r
    r.err = none →
      (sliceN r.old 8 4 ≠ e.2 → GoesOn i s a (endWait u addr sc)) ∧
      (sliceN r.old 8 4 = e.2 → Stays i s (u.setMe { u.me with state := .barrier, hold := .barrier addr })))

/-- A macro-operation enters its context's queue: the next ticket, in d, and the entry at the end; QCTR counts it if it rounds
stochastically (R130, R154). -/
def Enqueues (i : Instr) (s : State) (a : Agent) (d : Reg) (cmask : Nat) (count : Bool) : Prop :=
  ∃ t e, GoesOn i s a t ∧ t.me.ticket = a.ticket + 1 ∧ t.me.mxq = a.mxq ++ [e] ∧ e.ticket = a.ticket + 1 ∧ e.op = i ∧ e.cmask = cmask ∧
    e.running = false ∧ e.next = 0 ∧ t.me.qctr = (if count then a.qctr + 1 else a.qctr) ∧
    (192 ≤ d.toNat → ¬ fixedReg d.toNat → regGet t.me d.toNat 0 = a.ticket + 1)

/-- A read at issue finds its bytes on this device and leaves the state `u`, with the agent `b` in its place (R123, R208). -/
def ReadsNow (s : State) (a : Agent) (r : Except ReadFail (List Byte × List Nat)) (bs : List Byte) (u : State) (b : Agent) : Prop :=
  ∃ locs, r = .ok (bs, locs) ∧ readAway s a locs = none ∧ u = readUsed s locs ∧ b = readNoted s a locs

/-- The codebook of a slot is read at issue (R123). -/
def BookReads (s : State) (a : Agent) (slot : Nat) (u : State) (b : Agent) : Prop := ∃ bs, ReadsNow s a (readBook s a slot) bs u b

/-- The group tables of rows j, j + 1, … of B are read at issue, row by row (R142). -/
def TableReads (addr e per groups : Nat) : Nat → Nat → State → Agent → State → Agent → Prop
  | 0, _, s, a, u, b => u = s ∧ b = a
  | rows + 1, j, s, a, u, b => ∃ bs v c, ReadsNow s a (readAtIssue s a (addr + 4 * (e + j * per)) (4 * groups)) bs v c ∧
      TableReads addr e per groups rows (j + 1) v c u b

/-- Mat command `c` of the current agent has entered its slices' queues in `t`, after what its team has posted is performed and what
the device had closed has gone to its home: its key is the number of its take-up, and nothing but its own record and those queues differs
(R275, R291). -/
def MatQueued (u t : State) (a : Agent) (h : Nat) (mats : List Nat) (job : MatJob) : Prop :=
  let v := pushAll (drainAll u u.cur) u.cur a.asid
  ∃ c, t = { v with matCmds := Tab.put v.matCmds v.nextOrder c, nextOrder := v.nextOrder + 1, sliceQueue := t.sliceQueue } ∧ c.agent = v.cur ∧ c.handle = BitVec.ofNat 32 h ∧ c.job = job ∧
    c.slices = (mats.map sliceOf).dedup ∧ c.status = 0 ∧
    ∀ q, Tab.get t.sliceQueue q [] = if q ∈ c.slices then Tab.get v.sliceQueue q [] ++ [v.nextOrder] else Tab.get v.sliceQueue q []

/-- A mat command that comes to `u`: where its agent and its slices have room it enters their queues and goes on as `done` says, and
else its agent waits (R275). -/
def MatIssues (i : Instr) (s u : State) (a : Agent) (h : Nat) (mats : List Nat) (job : MatJob) (done : State → Prop) : Prop :=
  (cmdsOf u u.cur < 64 → (∀ m ∈ mats, (Tab.get u.sliceQueue (sliceOf m) []).length < 64) → ∃ t, done t ∧ MatQueued u t a h mats job) ∧
  (64 ≤ cmdsOf u u.cur ∨ (∃ m ∈ mats, 64 ≤ (Tab.get u.sliceQueue (sliceOf m) []).length) → exec i s = .next (u.setMe u.me.heldBack))

/-- The instructions of the vector core that write registers at issue, lane by lane: integer, logic, float and conversion
(R87, R96, R104, R107). -/
def registerOnly : Instr → Bool
  | .iadd _ | .isub _ | .iadds _ | .imul _ | .imulh _ | .imad _ | .idp4 _ | .imin _ | .imax _ | .iabs _ | .ineg _ | .icmp _
  | .andB _ | .orB _ | .xorB _ | .andn _ | .notB _ | .shl _ | .shr _ | .sar _ | .rot _ | .bfx _ | .bfi _ | .popc _ | .clz _
  | .ctz _ | .brev _ | .sel _ | .mov _ | .movi _ | .lea _ | .movw _ | .fadd _ | .fsub _ | .fmul _ | .ffma _ | .fmin _ | .fmax _
  | .fabs _ | .fneg _ | .fcmp _ | .fclass _ | .frnd _ | .fscale _ | .cvt _ | .pack _ | .unpk _ => true
  | _ => false

/-- Those of them whose description sets no sticky flag (R85, R87, R98, R100, R107). -/
def setsNoFlag : Instr → Bool
  | .iadd _ | .isub _ | .imul _ | .imulh _ | .imad _ | .idp4 _ | .imin _ | .imax _ | .icmp _ | .andB _ | .orB _ | .xorB _
  | .andn _ | .notB _ | .shl _ | .shr _ | .sar _ | .rot _ | .bfx _ | .bfi _ | .popc _ | .clz _ | .ctz _ | .brev _ | .sel _
  | .mov _ | .movi _ | .lea _ | .movw _ | .fabs _ | .fneg _ | .fclass _ | .unpk _ => true
  | _ => false

/-- Nothing is posted and no bundle has a version at a home of this device. -/
abbrev Settled (s : State) : Prop := s.posted = [] ∧ s.versions = []

/-- The state in which an agent has been chosen and comes to fetch (R22). -/
def chosenBy (s : State) (k : Nat) : State :=
  ({ s with cur := k, issued := false } : State).setAgent k { s.agent k with state := .run }

end Sys2Proof.Safety
end

