-- ==== Sys2Proof/Certificates/Slice0/Obligations.lean ====
section
/-! DEFINITION. The statements for the provers. Every statement is about all states and all operands that meet its premises; the
rules that it rests on stand first in its description. -/

open Sys2Proof Sys2Proof.Machine Sys2Proof.Safety

/-! ### Encoding, fetch, the step and traps -/

/-- Words written out from the spec's encoding tables (R51, R54, R63) and what they decode to. -/
def Obligations.DecodeWords : Prop :=
  decode (wordBytes [0x0C000000003FC000]) = .ok (.nop ⟨0, 0, 0, Guard.always, 0, 0, 0, false, false⟩, []) ∧
  decode (wordBytes [0x00D07030A03FC026]) = .ok (.icmp ⟨7, 3, 10, Guard.always, 0, 0, 9, true, false⟩, []) ∧
  decode (wordBytes [0x0C5000005001C000]) = .ok (.divIf ⟨0, 0, 5, ⟨false, 0, 7⟩, 0, 0, 0, false, false⟩, []) ∧
  decode (wordBytes [0x4002048012060B00]) = .ok (.pPair ⟨⟨.iadd, 4, 9, 0, 0⟩, ⟨.fmul, 6, 11, 0, 0⟩⟩, []) ∧
  decode (wordBytes [0x8C10000000000000, 0xC0C8872400800000]) = .ok (.braL ⟨0, 0, 0, 0, 0, 0, 0, 0,
    ⟨false, 0, 0xC8⟩, ⟨true, 1, 0xC9⟩, false, 0x800000⟩, []) ∧
  decode (wordBytes [0xC000000000000000]) = .error .illegalFrame ∧
  decode (wordBytes [0x3FF0000000000000]) = .error .illegalOpcode

/-- Every instruction's bytes, whatever follows them, decode to it again, every field at every value (R48 to R54, R63). -/
def Obligations.EncodeThenDecode : Prop := ∀ (i : Instr) (rest : List Byte), shapeOf i ≠ .event →
  decode (wordBytes (encode i) ++ rest) = .ok (i, rest)

/-- Words that decode to an instruction are the words it encodes to: no two words, and no two pairs of words, stand for one
instruction (R51, R54, R63). -/
def Obligations.DecodeThenEncode : Prop := ∀ (w0 w1 : DWord) (i : Instr), decodeWords w0 w1 = .ok i →
  encode i = if w0.extractLsb' 62 2 = 0b10#2 then [w0, w1] else [w0]

/-- R22, R44, R49: a slot of a core that takes its turn tries its teams in the order of R44, and a grove's forester its
contexts; when the words at the pc of the agent whose turn it is decode to an instruction, what happens is that instruction's
execution by that agent, and an agent that issued ends the turn. That one step is the next turn of the agenda (log entry 8), and
that the fetch has filled the unit's TLB and used its free values (log entry 21), is the model's choice. -/
def Obligations.StepRunsDecoded : Prop :=
  (∀ (s : State) (c n : Nat) (ts : List Turn), s.agenda = .slot c n :: ts → c < 512 → n < 2 →
    coreStopped (slotState { s with agenda := ts } c n) c = false →
    step s = tryAgents (slotState { s with agenda := ts } c n) (slotOrder (slotState { s with agenda := ts } c n) c n)
      (slotMark (slotState { s with agenda := ts } c n) c)) ∧
  (∀ (s : State) (g : Nat) (ts : List Turn), s.agenda = .forester g :: ts → g < 64 → dieStopped s (g / 8) = false →
    step s = tryAgents { s with agenda := ts } (foresterOrder { s with agenda := ts } g) (foresterMark { s with agenda := ts } g)) ∧
  (∀ (s t : State) (k : Nat) (ks : List Nat) (mark : State → Nat → State) (w0 w1 : DWord) (i : Instr) (rest : List Byte),
    fetchWord (chosenBy s k) ((chosenBy s k).agent k) (s.agent k).pc.toNat = .ok w0 →
    (if w0.extractLsb' 62 2 = 0b10#2 then
      fetchWord (chosenBy s k) ((chosenBy s k).agent k) ((s.agent k).pc.toNat + 8) = .ok w1 else w1 = 0) →
    decode (wordBytes [w0, w1]) = .ok (i, rest) →
    exec i (fillFetch (pastFetch (chosenBy s k) ((chosenBy s k).agent k)) ((chosenBy s k).agent k) i) = .next t → t.issued = true →
    tryAgents s (k :: ks) mark = .next (markChosen (mark t k) k false))

/-- R10, R39, R62: what the end of an issue adds to an instruction's own effect, where that effect disturbs no window and no
result that has come is due with it: the agent goes on at the given address, its windows count one instruction more, and nothing
else changes. -/
def Obligations.IssueEnds : Prop := ∀ (s t : State) (a b : Agent) (i : Instr) (pc : DWord), Tab.find s.agents s.cur = some a →
  t.cur = s.cur → Tab.find t.agents s.cur = some b → Quiet s a i → (∀ e ∈ b.lahead, e.done = true → 2 ≤ e.remain) →
  ∃ c, Tab.find (finish i s t pc []).agents s.cur = some c ∧ SameButRegs b c ∧ c.pc = pc ∧ c.vregs = b.vregs ∧ c.sregs = b.sregs ∧
    c.fstat = b.fstat ∧ c.lahead.map (·.remain) = b.lahead.map (fun e => e.remain - 1) ∧
    c.lahead.map (·.token) = b.lahead.map (·.token) ∧
    { finish i s t pc [] with agents := t.agents, issued := t.issued } = t ∧
    ∀ k, k ≠ s.cur → Tab.find (finish i s t pc []).agents k = Tab.find t.agents k

/-- Memory is in its canonical form right after reset. -/
def Obligations.ResetInv : Prop := Inv State.reset

/-- Every step from a state whose memory is in its canonical form leaves it so. -/
def Obligations.StepKeepsInv : Prop := ∀ s t : State, Inv s → step s = .next t → Inv t

/-- R10, R328: a trap saves the level, the cause, the address of the instruction and the faulting address, raises the level
and goes on at the handler of the team's address space; registers, mask and flags are as they were, and nothing else. -/
def Obligations.TrapEntry : Prop := ∀ (s : State) (k : Nat) (a : Agent) (c : Cause) (addr : Nat),
  Tab.find s.agents k = some a → ∃ b, Tab.find (takeTrap s k c addr).agents k = some b ∧
    b.ppriv = a.priv ∧ b.priv = true ∧ b.trapCause = BitVec.ofNat 32 (causeCode c) ∧ b.trapPc = a.pc ∧
    b.trapAddr = BitVec.ofNat 64 addr ∧ b.pc = BitVec.ofNat 64 (asidTrapvec s a.asid) ∧
    b.sregs = a.sregs ∧ b.vregs = a.vregs ∧ b.mask = a.mask ∧ b.stack = a.stack ∧ b.spilled = a.spilled ∧ b.fstat = a.fstat ∧
    b.kscr0 = a.kscr0 ∧ b.kscr1 = a.kscr1 ∧ b.kscr2 = a.kscr2 ∧ b.kscr3 = a.kscr3 ∧ b.stores = a.stores ∧
    b.lahead.map (fun e => (e.token, e.remain, e.done, e.values)) = a.lahead.map (fun e => (e.token, e.remain, e.done, e.values)) ∧
    (∀ x, (takeTrap s k c addr).mem.read x = s.mem.read x) ∧
    ∀ j, j ≠ k → Tab.find (takeTrap s k c addr).agents j = Tab.find s.agents j

/-- R72, R73: before an instruction's own description, its word traps, in this order: `ILLEGAL_OPCODE` for one that only foresters run,
of a team, and, of a forester, for one that only teams run or that names a v register; `ILLEGAL_FRAME` for a P pair of a forester;
`PRIVILEGE` for a privileged one at user level; `RESERVED_FIELD` for one that breaks a field rule; and `PAIR_CONFLICT` for a P pair
that breaks a pairing rule. R49, R72: a first word of frame 11, a frame-10 word not followed by one of frame 11, an opcode that no
frame assigns or that its frame does not permit, and a P-opcode above 23 are no instructions, and are trapped as such when they are
fetched. -/
def Obligations.WordTraps : Prop :=
  (∀ (s : State) (a : Agent) (i : Instr) (r : OpRow),
    Tab.find s.agents s.cur = some a → notYet s a i = none → dueError a = none → rowOf i = some r →
    (r.runs = .forester → a.kind = .team → Traps i s .illegalOpcode 0) ∧
    (r.runs = .team → a.kind = .forester → Traps i s .illegalOpcode 0) ∧
    (r.runs ≠ .forester → a.kind = .team → r.priv = true → a.priv = false → Traps i s .privilege 0) ∧
    (r.runs ≠ .forester → a.kind = .team → (r.priv = true → a.priv = true) →
      (fieldRules i = false ∨ beyondAllotment a i = true) → Traps i s .reservedField 0) ∧
    (r.runs ≠ .team → a.kind = .forester → namesV i = false →
      (r.priv = true → a.priv = false → Traps i s .privilege 0) ∧
      ((r.priv = true → a.priv = true) → fieldRules i = false → Traps i s .reservedField 0))) ∧
  (∀ (s : State) (a : Agent) (i : Instr), Tab.find s.agents s.cur = some a → notYet s a i = none → dueError a = none →
    (a.kind = .forester → namesV i = true → Traps i s .illegalOpcode 0) ∧
    (∀ p, i = .pPair p →
      (a.kind = .forester → namesV i = false → Traps i s .illegalFrame 0) ∧
      (a.kind = .team → (fieldRules i = false ∨ beyondAllotment a i = true) → Traps i s .reservedField 0) ∧
      (a.kind = .team → fieldRules i = true → beyondAllotment a i = false → pairOk p = false → Traps i s .pairConflict 0))) ∧
  (∀ (s : State) (a : Agent) (w0 w1 : DWord), fetchWord s a a.pc.toNat = .ok w0 →
    (w0.extractLsb' 62 2 = 0b11#2 → fetch s a = .trap .illegalFrame 0) ∧
    (w0.extractLsb' 62 2 = 0b10#2 → fetchWord s a (a.pc.toNat + 8) = .ok w1 → w1.extractLsb' 62 2 ≠ 0b11#2 →
      fetch s a = .trap .illegalFrame 0) ∧
    (w0.extractLsb' 62 2 = 0b00#2 → fInstr (w0.extractLsb' 52 10).toNat (fArgsOf w0) = none →
      isLOpcode (w0.extractLsb' 52 10).toNat = false → fetch s a = .trap .illegalOpcode 0) ∧
    (w0.extractLsb' 62 2 = 0b01#2 → (24 ≤ (w0.extractLsb' 55 7).toNat ∨ 24 ≤ (w0.extractLsb' 24 7).toNat) →
      fetch s a = .trap .illegalOpcode 0) ∧
    (w0.extractLsb' 62 2 = 0b00#2 → isLOpcode (w0.extractLsb' 52 10).toNat = true → fInstr (w0.extractLsb' 52 10).toNat (fArgsOf w0) = none →
      let op := (w0.extractLsb' 52 10).toNat
      let outside := runsOfOp op = .forester ∧ a.kind = .team ∨ a.kind = .forester ∧ (runsOfOp op = .team ∨ shortNamesV op (fArgsOf w0) = true)
      (outside → fetch s a = .trap .illegalOpcode 0) ∧ (¬ outside → fetch s a = .trap .illegalFrame 0)) ∧
    (w0.extractLsb' 62 2 = 0b10#2 → fetchWord s a (a.pc.toNat + 8) = .ok w1 → w1.extractLsb' 62 2 = 0b11#2 →
      lInstr (w0.extractLsb' 52 10).toNat (lArgsOf w0 w1) = none →
      let op := (w0.extractLsb' 52 10).toNat
      let outside := runsOfOp op = .forester ∧ a.kind = .team ∨ a.kind = .forester ∧ (runsOfOp op = .team ∨ longNamesV op (lArgsOf w0 w1) = true)
      (isFOpcode op = false → fetch s a = .trap .illegalOpcode 0) ∧
      (isFOpcode op = true → outside → fetch s a = .trap .illegalOpcode 0) ∧
      (isFOpcode op = true → ¬ outside → fetch s a = .trap .illegalFrame 0)))

/-! ### The vector core -/

/-- R25, R58, R87, R88: an integer or logic instruction issues and writes, in each lane it acts on, the value its row gives, over
operands of N bits. The saturating forms clamp to the range of the type, and set SAT exactly when some lane was clamped. -/
def Obligations.IntegerResults : Prop := ∀ (s : State) (a : Agent) (f : FArgs),
  (Ready s a (.iadd f) → Quiet s a (.iadd f) → Gives (.iadd f) s a f.d (nW f) (fun l => (aW a f l + bW a f l) % 2 ^ wN f)) ∧
  (Ready s a (.isub f) → Quiet s a (.isub f) →
    Gives (.isub f) s a f.d (nW f) (fun l => (((aW a f l : Int) - (bW a f l : Int)) % ((2 ^ wN f : Nat) : Int)).toNat)) ∧
  (Ready s a (.imul f) → Quiet s a (.imul f) → Gives (.imul f) s a f.d (nW f) (fun l => aW a f l * bW a f l % 2 ^ wN f)) ∧
  (Ready s a (.imad f) → Quiet s a (.imad f) →
    Gives (.imad f) s a f.d (nW f) (fun l => (aW a f l * bW a f l + dW a f l) % 2 ^ wN f)) ∧
  (Ready s a (.imulh f) → Quiet s a (.imulh f) → Gives (.imulh f) s a f.d (nW f) (fun l =>
    ((intOf (uBit f) (wN f) (aW a f l) * intOf (uBit f) (wN f) (bW a f l) / ((2 ^ wN f : Nat) : Int)) % ((2 ^ wN f : Nat) : Int)).toNat)) ∧
  (Ready s a (.idp4 f) → Quiet s a (.idp4 f) → Gives (.idp4 f) s a f.d 1 (fun l =>
    dp4 (mb f.mod 0) (mb f.mod 2) (rd1 a f.a l) (rd1 a f.b l) (rd1 a f.d l))) ∧
  (Ready s a (.imin f) → Quiet s a (.imin f) → Gives (.imin f) s a f.d (nW f) (fun l =>
    if intOf (uBit f) (wN f) (aW a f l) ≤ intOf (uBit f) (wN f) (bW a f l) then aW a f l else bW a f l)) ∧
  (Ready s a (.imax f) → Quiet s a (.imax f) → Gives (.imax f) s a f.d (nW f) (fun l =>
    if intOf (uBit f) (wN f) (aW a f l) ≤ intOf (uBit f) (wN f) (bW a f l) then bW a f l else aW a f l)) ∧
  (Ready s a (.andB f) → Quiet s a (.andB f) → Gives (.andB f) s a f.d (nW f) (fun l => aW a f l &&& bW a f l)) ∧
  (Ready s a (.orB f) → Quiet s a (.orB f) → Gives (.orB f) s a f.d (nW f) (fun l => aW a f l ||| bW a f l)) ∧
  (Ready s a (.xorB f) → Quiet s a (.xorB f) → Gives (.xorB f) s a f.d (nW f) (fun l => aW a f l ^^^ bW a f l)) ∧
  (Ready s a (.andn f) → Quiet s a (.andn f) →
    Gives (.andn f) s a f.d (nW f) (fun l => aW a f l &&& (2 ^ wN f - 1 - bW a f l))) ∧
  (Ready s a (.notB f) → Quiet s a (.notB f) → Gives (.notB f) s a f.d (nW f) (fun l => 2 ^ wN f - 1 - aW a f l)) ∧
  (Ready s a (.mov f) → Quiet s a (.mov f) → Gives (.mov f) s a f.d (nW f) (fun l => aW a f l)) ∧
  (Ready s a (.movi f) → Quiet s a (.movi f) →
    Gives (.movi f) s a f.d (nW f) (fun _ => (f.b.toInt % ((2 ^ wN f : Nat) : Int)).toNat)) ∧
  (Ready s a (.iadds f) → Quiet s a (.iadds f) →
    Clamps (.iadds f) s a f.d (nW f) (uBit f) (fun l => intOf (uBit f) (wN f) (aW a f l) + intOf (uBit f) (wN f) (bW a f l))) ∧
  (Ready s a (.iabs f) → Quiet s a (.iabs f) → mb f.mod 2 = true →
    Clamps (.iabs f) s a f.d (nW f) false (fun l => |signedN (wN f) (aW a f l)|)) ∧
  (Ready s a (.ineg f) → Quiet s a (.ineg f) → mb f.mod 2 = true →
    Clamps (.ineg f) s a f.d (nW f) false (fun l => -signedN (wN f) (aW a f l))) ∧
  (Ready s a (.iabs f) → Quiet s a (.iabs f) → mb f.mod 2 = false →
    Gives (.iabs f) s a f.d (nW f) (fun l => (|signedN (wN f) (aW a f l)| % ((2 ^ wN f : Nat) : Int)).toNat)) ∧
  (Ready s a (.ineg f) → Quiet s a (.ineg f) → mb f.mod 2 = false →
    Gives (.ineg f) s a f.d (nW f) (fun l => (-signedN (wN f) (aW a f l) % ((2 ^ wN f : Nat) : Int)).toNat))

/-- R87, R90 to R95: shifts, bit fields, counts, comparison, selection, address and wide-constant instructions. -/
def Obligations.ShiftFieldResults : Prop := ∀ (s : State) (a : Agent) (f : FArgs),
  (Ready s a (.shl f) → Quiet s a (.shl f) → Gives (.shl f) s a f.d (nW f) (fun l =>
    if wN f ≤ shiftAmt a f l then 0 else aW a f l * 2 ^ shiftAmt a f l % 2 ^ wN f)) ∧
  (Ready s a (.shr f) → Quiet s a (.shr f) → Gives (.shr f) s a f.d (nW f) (fun l =>
    if wN f ≤ shiftAmt a f l then 0 else aW a f l / 2 ^ shiftAmt a f l)) ∧
  (Ready s a (.sar f) → Quiet s a (.sar f) → Gives (.sar f) s a f.d (nW f) (fun l =>
    ((signedN (wN f) (aW a f l) / ((2 ^ shiftAmt a f l : Nat) : Int)) % ((2 ^ wN f : Nat) : Int)).toNat)) ∧
  (Ready s a (.rot f) → Quiet s a (.rot f) → Gives (.rot f) s a f.d (nW f) (fun l =>
    (aW a f l * 2 ^ (shiftAmt a f l % wN f) % 2 ^ wN f) ||| (aW a f l / 2 ^ (wN f - shiftAmt a f l % wN f)))) ∧
  (Ready s a (.bfx f) → Quiet s a (.bfx f) → Gives (.bfx f) s a f.d 1 (fun l => bfx (uBit f) (rd1 a f.a l) (rd1 a f.b l))) ∧
  (Ready s a (.bfi f) → Quiet s a (.bfi f) → Gives (.bfi f) s a f.d 1 (fun l => bfi (rd1 a f.a l) (rd1 a f.b l) (rd1 a f.d l))) ∧
  (Ready s a (.popc f) → Quiet s a (.popc f) → Gives (.popc f) s a f.d 1 (fun l =>
    ((List.range (wN f)).filter (fun k => bitN (aW a f l) k)).length)) ∧
  (Ready s a (.clz f) → Quiet s a (.clz f) → Gives (.clz f) s a f.d 1 (fun l => clzN (wN f) (aW a f l))) ∧
  (Ready s a (.ctz f) → Quiet s a (.ctz f) → Gives (.ctz f) s a f.d 1 (fun l => ctzN (wN f) (aW a f l))) ∧
  (Ready s a (.brev f) → Quiet s a (.brev f) → Gives (.brev f) s a f.d (nW f) (fun l => revN (wN f) (aW a f l))) ∧
  (Ready s a (.icmp f) → Quiet s a (.icmp f) → Gives (.icmp f) s a f.d 1 (fun l => (2 * rd1 a f.d l + b2n (condInt (f.mod.toNat / 4 % 8)
    (intOf (uBit f) (wN f) (aW a f l)) (intOf (uBit f) (wN f) (bW a f l)))) % 2 ^ 32)) ∧
  (Ready s a (.sel f) → Quiet s a (.sel f) → Gives (.sel f) s a f.d 1 (fun l =>
    if xor ((rd1 a f.d l).testBit (f.mod.toNat % 32)) (f.mod.getLsbD 5) then rd1 a f.a l else bVal a f 1 l)) ∧
  (Ready s a (.lea f) → Quiet s a (.lea f) → Gives (.lea f) s a f.d 2 (fun l =>
    (((rdN a f.a.toNat 2 l : Int) + leaOffset a f l * ((2 ^ (f.mod.toNat / 4 % 8) : Nat) : Int)) % ((2 ^ 64 : Nat) : Int)).toNat)) ∧
  ∀ x : LArgs, Ready s a (.movw x) → Quiet s a (.movw x) → Gives (.movw x) s a x.d (if mb x.mod 1 then 2 else 1) (fun _ =>
    if mb x.mod 1 then (x.imm33.toInt % ((2 ^ 64 : Nat) : Int)).toNat else x.imm33.toNat % 2 ^ 32)

/-- R24, R29, R115: no step of the machine leaves a bit of a lane that a team does not have in its mask or in an entry of its mask
stack, wherever the entry lies. -/
def Obligations.StepKeepsMasks : Prop := MaskInv State.reset ∧ ∀ s t : State, MaskInv s → step s = .next t → MaskInv t

/-- R89: IDIV and IREM start with quotient and remainder outstanding, and the flags that come with them: the quotient
truncates toward zero, the remainder has the dividend's sign; a division by zero gives all ones and the dividend with DZ, the
most negative number by −1 itself and 0, and neither sets another flag. -/
def Obligations.Division : Prop := ∀ (s : State) (a : Agent) (f : FArgs),
  (Ready s a (.idiv f) → LongResult (.idiv f) s a f.d (nW f) (fun l =>
    ((divN (uBit f) (wN f) (aW a f l) (bW a f l)).1, (divN (uBit f) (wN f) (aW a f l) (bW a f l)).2.2))) ∧
  (Ready s a (.irem f) → LongResult (.irem f) s a f.d (nW f) (fun l => (divN (uBit f) (wN f) (aW a f l) (bW a f l)).2)) ∧
  ∀ (u : Bool) (n x y : Nat), (n = 32 ∨ n = 64) → x < 2 ^ n → y < 2 ^ n →
    (y = 0 → divN u n x y = (2 ^ n - 1, x, flagDZ)) ∧
    (y ≠ 0 → (divN u n x y).2.2 = 0 ∧
      (u = true → divN u n x y = (x / y, x % y, 0)) ∧
      (u = false → x = 2 ^ (n - 1) → y = 2 ^ n - 1 → divN u n x y = (x, 0, 0)) ∧
      (u = false → ¬ (x = 2 ^ (n - 1) ∧ y = 2 ^ n - 1) →
        signedN n (divN u n x y).1 = Int.tdiv (signedN n x) (signedN n y) ∧
        signedN n (divN u n x y).2.1 = Int.tmod (signedN n x) (signedN n y)))

/-- R102: the long-latency float instructions start with their result outstanding: the function's value in each lane acted on,
and the flags that come with it (R39, R85). R9, R39, R40, R85: when a long-latency instruction completes (no answer is
outstanding, and its die's clock runs), the flags of each lane it acted on whose result its window left alone are set; where its
window has ended, each of those lanes holds the result in its destination; where it has not, the registers are as they were, and
the issue that ends the window writes it. -/
def Obligations.LongArithmetic : Prop :=
  (∀ (s : State) (a : Agent) (f : FArgs),
    (Ready s a (.fdiv f) → LongResult (.fdiv f) s a f.d (nT f) (float2 f fdivC a)) ∧
    (Ready s a (.fsqrt f) → LongResult (.fsqrt f) s a f.d (nT f) (float1 f fsqrtC a)) ∧
    (Ready s a (.frcp f) → LongResult (.frcp f) s a f.d 1 (fun l => frcpC (rd1 a f.a l))) ∧
    (Ready s a (.frsq f) → LongResult (.frsq f) s a f.d 1 (fun l => frsqC (rd1 a f.a l))) ∧
    (Ready s a (.fexp2 f) → LongResult (.fexp2 f) s a f.d 1 (fun l => fexp2C (rd1 a f.a l))) ∧
    (Ready s a (.flog2 f) → LongResult (.flog2 f) s a f.d 1 (fun l => flog2C (rd1 a f.a l))) ∧
    (Ready s a (.fsin f) → LongResult (.fsin f) s a f.d 1 (fun l => fsinC (rd1 a f.a l))) ∧
    (Ready s a (.fcos f) → LongResult (.fcos f) s a f.d 1 (fun l => fcosC (rd1 a f.a l))) ∧
    (Ready s a (.ftanh f) → LongResult (.ftanh f) s a f.d 1 (fun l => ftanhC (rd1 a f.a l)))) ∧
  (∀ (s : State) (k : Nat) (a : Agent) (e : LAEntry),
    Tab.find s.agents k = some a → a.lahead.find? (fun x => x.token == e.token && !x.done) = some e → entryOpen s k e = false →
    dieStopped s a.die = false →
    ∃ t b, exec (.longLatencyCompletion k e.token) s = .next t ∧ Tab.find t.agents k = some b ∧
      (e.remain = 0 → (∀ j l, j < e.nreg → l < a.nlanes → (e.dest.toNat + j < 192 ∨ l = 0) → e.lanes.getLsbD l = true →
          e.taint.getLsbD l = false → ¬ fixedReg (e.dest.toNat + j) →
          regGet b (e.dest.toNat + j) l = BitVec.ofNat 32 (e.value l / 2 ^ (32 * j))) ∧
        (∀ r l, l < a.nlanes → (r < 192 ∨ l = 0) → (r < e.dest.toNat ∨ e.dest.toNat + e.nreg ≤ r ∨ e.lanes.getLsbD l = false) →
          regGet b r l = regGet a r l)) ∧
      (e.remain ≠ 0 → b.vregs = a.vregs ∧ b.sregs = a.sregs ∧ ∃ y, b.lahead.find? (fun x => x.token == e.token) = some y ∧
        y.done = true ∧ y.remain = e.remain ∧ y.values = e.values) ∧
      b.fstat = a.fstat ||| e.flagBits ∧ b.pc = a.pc ∧ (∀ x, t.mem.read x = s.mem.read x)) ∧
  (∀ (s t : State) (a b : Agent) (i : Instr) (pc : DWord) (e : LAEntry), Tab.find s.agents s.cur = some a → t.cur = s.cur →
    Tab.find t.agents s.cur = some b → (∀ p ∈ writeParts s a i, p.1 = []) → b.lahead = [e] → e.done = true → e.remain ≤ 1 → e.err = none →
    ∃ c, Tab.find (finish i s t pc []).agents s.cur = some c ∧ c.pc = pc ∧ c.lahead = [] ∧ c.fstat = b.fstat ||| e.flagBits ∧
      (∀ j l, j < e.nreg → l < b.nlanes → (e.dest.toNat + j < 192 ∨ l = 0) → e.lanes.getLsbD l = true → e.taint.getLsbD l = false →
        ¬ fixedReg (e.dest.toNat + j) → regGet c (e.dest.toNat + j) l = BitVec.ofNat 32 (e.value l / 2 ^ (32 * j))) ∧
      (∀ r l, l < b.nlanes → (r < 192 ∨ l = 0) → (r < e.dest.toNat ∨ e.dest.toNat + e.nreg ≤ r ∨ e.lanes.getLsbD l = false) →
        regGet c r l = regGet b r l))

/-- R25, R58, R85: an instruction of the vector core that writes registers at issue completes, and changes its destination in
the lanes it acts on, the pc, and sticky bits of FSTAT if its description sets any: no other register, no other bit of FSTAT,
no mask, no special register, no byte of memory, no other agent. R65, R106, R108, R134: so do a P pair, the cross-lane
instructions, and CVTQ and CVTD once the codebook is read; of the special registers CVTQ changes QMAX, QSATN, QNFN and QCTR alone. -/
def Obligations.RegisterFrame : Prop := ∀ (s : State) (a : Agent) (i : Instr), Ready s a i → Quiet s a i →
  (registerOnly i = true → ∃ t b, Issues i s t b ∧ OnlyAgent s t ∧ SameButRegs a b ∧ b.pc = nextPc a i ∧
    RegsKept a b (writesOf i) (actsIn a i) ∧ (∀ x, t.mem.read x = s.mem.read x) ∧ (setsNoFlag i = true → b.fstat = a.fstat) ∧ StickyOnly a b) ∧
  (∀ f, (i = .shfl f ∨ i = .bcast f ∨ i = .vote f ∨ i = .sred f ∨ i = .sscan f ∨ (i = .ballot f ∨ i = .matchLanes f) ∧ maskBad a f.d = false) →
    ∃ t b, Issues i s t b ∧ OnlyAgent s t ∧ SameButRegs a b ∧ b.pc = nextPc a i ∧
      RegsKept a b (agentWrites s a i) (fun l => if isS f.d then !(crossLanes a i).isEmpty else crossActive a i l) ∧
      (∀ x, t.mem.read x = s.mem.read x) ∧ ((∀ f, i ≠ .sred f ∧ i ≠ .sscan f) → b.fstat = a.fstat) ∧ StickyOnly a b) ∧
  (∀ p, i = .pPair p → ∃ t b, Issues i s t b ∧ OnlyAgent s t ∧ SameButRegs a b ∧ b.pc = nextPc a i ∧
    RegsKept a b [p.s0.d.toNat, p.s1.d.toNat] (fun l => slotActs a p.s0 l || slotActs a p.s1 l) ∧
    (∀ x, t.mem.read x = s.mem.read x) ∧ StickyOnly a b) ∧
  (∀ f u b, let slot := slotOf s a.grid (f.mod.toNat % 8)
    slotBad slot = false → BookReads s a slot u b →
    (i = .cvtq f ∧ f.d.toNat + cvtRegs (slotFmt slot) ≤ a.allot ∧ f.a.toNat + cvtValues (slotFmt slot) ≤ a.allot ∨
      i = .cvtd f ∧ f.d.toNat + cvtValues (slotFmt slot) ≤ a.allot ∧ f.a.toNat + cvtRegs (slotFmt slot) ≤ a.allot) →
    ∃ t c, Issues i s t c ∧ OnlyAgent u t ∧ c.pc = nextPc a i ∧ RegsKept a c (agentWrites s a i) (actsIn a i) ∧
      SameButRegs { b with qmax := c.qmax, qsatn := c.qsatn, qnfn := c.qnfn, qctr := c.qctr } c ∧
      (i = .cvtd f → c.qmax = a.qmax ∧ c.qsatn = a.qsatn ∧ c.qnfn = a.qnfn ∧ c.qctr = a.qctr) ∧
      (∀ x, t.mem.read x = s.mem.read x) ∧ StickyOnly a c)

/-- R83, R85, R96, R98, R99: a float instruction gives, for each element of its type, the operation's result on the operands' elements in
the rounding mode of its word, and sets the flags of all of them; FABS and FNEG change only sign bits and set no flag. What the
functions named here compute is the next statement. -/
def Obligations.FloatResults : Prop := ∀ (s : State) (a : Agent) (f : FArgs),
  (Ready s a (.fadd f) → Quiet s a (.fadd f) → GivesFlags (.fadd f) s a f.d (nT f) (float2 f faddC a)) ∧
  (Ready s a (.fsub f) → Quiet s a (.fsub f) → GivesFlags (.fsub f) s a f.d (nT f) (float2 f fsubC a)) ∧
  (Ready s a (.fmul f) → Quiet s a (.fmul f) → GivesFlags (.fmul f) s a f.d (nT f) (float2 f fmulC a)) ∧
  (Ready s a (.ffma f) → Quiet s a (.ffma f) → GivesFlags (.ffma f) s a f.d (nT f) (fmaLane f a)) ∧
  (∀ i m, (i = .fmin f ∧ m = false ∨ i = .fmax f ∧ m = true) → Ready s a i → Quiet s a i →
    GivesFlags i s a f.d (nT f) (float2 f (fun fm _ x y => fminmaxC fm m x y) a)) ∧
  (Ready s a (.fcmp f) → Quiet s a (.fcmp f) → GivesFlags (.fcmp f) s a f.d 1 (fun l =>
    let r := fcmpC (fmtOf (fT f.mod)) (fOP f.mod) (fA a f l) (fB a f l)
    ((2 * rd1 a f.d l + b2n r.1) % 2 ^ 32, r.2))) ∧
  (Ready s a (.fclass f) → Quiet s a (.fclass f) → GivesFlags (.fclass f) s a f.d (nT f) (float1 f (fun fm _ x => (fclassC fm x, 0)) a)) ∧
  (Ready s a (.frnd f) → Quiet s a (.frnd f) → GivesFlags (.frnd f) s a f.d (nT f) (float1 f frndC a)) ∧
  (Ready s a (.fscale f) → Quiet s a (.fscale f) → GivesFlags (.fscale f) s a f.d (nT f) (fun l =>
    fscaleC (fmtOf (fT f.mod)) (fOP f.mod) (fA a f l) (signedN 32 (bVal a f 1 l)))) ∧
  (Ready s a (.fabs f) → Quiet s a (.fabs f) → ∃ t b, Issues (.fabs f) s t b ∧ b.pc = nextPc a (.fabs f) ∧ b.fstat = a.fstat ∧
    Holds a b f.d (nT f) (actsIn a (.fabs f)) (fun l => fA a f l &&& (2 ^ (32 * nT f) - 1 - signBits f))) ∧
  (Ready s a (.fneg f) → Quiet s a (.fneg f) → ∃ t b, Issues (.fneg f) s t b ∧ b.pc = nextPc a (.fneg f) ∧ b.fstat = a.fstat ∧
    Holds a b f.d (nT f) (actsIn a (.fneg f)) (fun l => fA a f l ^^^ signBits f))

/-- R83, R97 to R102: what the float functions compute, in each format of the vector core and each rounding mode. A sum, difference,
product, fused product and sum, quotient, square root or scaled number that is finite and not zero is the exact one rounded once,
with OF, UF and NX as R97 has them; a zero has the sign of R97; a signalling NaN, and an invalid operation, give the canonical NaN and
NV; a finite number divided by zero gives an infinity and DZ. A comparison, a class, an integral value, a minimum and a maximum are
those of the numbers. -/
def Obligations.FloatFunctions : Prop := ∀ (fm : Fmt) (rm x y z : Nat), vectorFmt fm → rm < 4 →
  x < 2 ^ fm.width → y < 2 ^ fm.width → z < 2 ^ fm.width →
  let X := decodeF fm x
  let Y := decodeF fm y
  let Z := decodeF fm z
  let nv := fun (b : Bool) => if b then flagNV else 0
  let nan2 := X.isNan || Y.isNan
  let invalid := X.isInf && Y.isZero || X.isZero && Y.isInf
  let side := fun (n : Bool) (v : FVal) => v.isInf && (n != v.isNeg)
  (nan2 = true → faddC fm rm x y = (fm.nanCode, nv (X.isSig || Y.isSig)) ∧ fmulC fm rm x y = (fm.nanCode, nv (X.isSig || Y.isSig)) ∧
    fdivC fm rm x y = (fm.nanCode, nv (X.isSig || Y.isSig))) ∧
  (nan2 = false → X.isInf = true → faddC fm rm x y = if side X.isNeg Y then (fm.nanCode, flagNV) else (fm.infCode X.isNeg, 0)) ∧
  (nan2 = false → X.isInf = false → Y.isInf = true → faddC fm rm x y = (fm.infCode Y.isNeg, 0)) ∧
  (X.isFin = true → Y.isFin = true →
    (ratOf X + ratOf Y ≠ 0 → RoundsTo fm rm ((ratOf X + ratOf Y : ℚ) : ℝ) (faddC fm rm x y).1 (faddC fm rm x y).2) ∧
    (ratOf X + ratOf Y = 0 → faddC fm rm x y = (fm.signBit (if X.isNeg = Y.isNeg then X.isNeg else rm == 3), 0))) ∧
  fsubC fm rm x y = faddC fm rm x (y ^^^ 2 ^ (fm.width - 1)) ∧
  (nan2 = false → invalid = true → fmulC fm rm x y = (fm.nanCode, flagNV)) ∧
  (nan2 = false → invalid = false → X.isInf = true ∨ Y.isInf = true → fmulC fm rm x y = (fm.infCode (xor X.isNeg Y.isNeg), 0)) ∧
  (X.isFin = true → Y.isFin = true →
    (ratOf X * ratOf Y ≠ 0 → RoundsTo fm rm ((ratOf X * ratOf Y : ℚ) : ℝ) (fmulC fm rm x y).1 (fmulC fm rm x y).2) ∧
    (ratOf X * ratOf Y = 0 → fmulC fm rm x y = (fm.signBit (xor X.isNeg Y.isNeg), 0))) ∧
  (nan2 = true ∨ Z.isNan = true ∨ invalid = true →
    ffmaC fm rm x y z = (fm.nanCode, nv (X.isSig || Y.isSig || Z.isSig || (!nan2 && invalid)))) ∧
  (nan2 = false → Z.isNan = false → invalid = false → X.isInf = true ∨ Y.isInf = true →
    ffmaC fm rm x y z = if side (xor X.isNeg Y.isNeg) Z then (fm.nanCode, flagNV) else (fm.infCode (xor X.isNeg Y.isNeg), 0)) ∧
  (X.isFin = true → Y.isFin = true → (Z.isInf = true → ffmaC fm rm x y z = (fm.infCode Z.isNeg, 0)) ∧
    (Z.isFin = true → let v := ratOf X * ratOf Y + ratOf Z
      (v ≠ 0 → RoundsTo fm rm (v : ℝ) (ffmaC fm rm x y z).1 (ffmaC fm rm x y z).2) ∧
      (v = 0 → ffmaC fm rm x y z = (fm.signBit (if xor X.isNeg Y.isNeg = Z.isNeg then Z.isNeg else rm == 3), 0)))) ∧
  (nan2 = false → X.isInf && Y.isInf || X.isZero && Y.isZero → fdivC fm rm x y = (fm.nanCode, flagNV)) ∧
  (nan2 = false → X.isInf = true → Y.isInf = false → fdivC fm rm x y = (fm.infCode (xor X.isNeg Y.isNeg), 0)) ∧
  (nan2 = false → X.isInf = false → Y.isInf = true → fdivC fm rm x y = (fm.signBit (xor X.isNeg Y.isNeg), 0)) ∧
  (X.isFin = true → X.isZero = false → Y.isZero = true → fdivC fm rm x y = (fm.infCode (xor X.isNeg Y.isNeg), flagDZ)) ∧
  (X.isFin = true → Y.isFin = true → Y.isZero = false →
    (X.isZero = false → RoundsTo fm rm ((ratOf X / ratOf Y : ℚ) : ℝ) (fdivC fm rm x y).1 (fdivC fm rm x y).2) ∧
    (X.isZero = true → fdivC fm rm x y = (fm.signBit (xor X.isNeg Y.isNeg), 0))) ∧
  (X.isNan = true → fsqrtC fm rm x = (fm.nanCode, nv X.isSig) ∧ frndC fm rm x = (fm.nanCode, nv X.isSig) ∧
    ∀ b, fscaleC fm rm x b = (fm.nanCode, nv X.isSig)) ∧
  (X.isNan = false → X.isZero = false → X.isNeg = true → fsqrtC fm rm x = (fm.nanCode, flagNV)) ∧
  (X.isZero = true ∨ X = .inf false → fsqrtC fm rm x = (x, 0)) ∧
  (X.isFin = true → X.isZero = false → X.isNeg = false → RoundsTo fm rm (Real.sqrt ((ratOf X : ℚ) : ℝ)) (fsqrtC fm rm x).1 (fsqrtC fm rm x).2) ∧
  (X.isInf = true ∨ X.isZero = true → frndC fm rm x = (x, 0) ∧ ∀ b, fscaleC fm rm x b = (x, 0)) ∧
  (X.isFin = true → X.isZero = false → ∀ b : Int,
    RoundsTo fm rm (((ratOf X * (2 : ℚ) ^ b : ℚ)) : ℝ) (fscaleC fm rm x b).1 (fscaleC fm rm x b).2) ∧
  (X.isFin = true → ∃ k : Int, IsNumber fm (frndC fm rm x).1 k ∧ (frndC fm rm x).1 / 2 ^ (fm.width - 1) = b2n X.isNeg ∧ (frndC fm rm x).2 = 0 ∧
    (rm = 0 → |ratOf X - k| ≤ 1 / 2 ∧ (|ratOf X - k| = 1 / 2 → k % 2 = 0)) ∧
    (rm = 1 → k = if X.isNeg then ⌈ratOf X⌉ else ⌊ratOf X⌋) ∧ (rm = 2 → k = ⌈ratOf X⌉) ∧ (rm = 3 → k = ⌊ratOf X⌋)) ∧
  (∀ c, (fcmpC fm c x y).2 = nv (X.isSig || Y.isSig || (nan2 && decide (2 ≤ c) && decide (c ≤ 5)))) ∧
  (nan2 = true → ∀ c, c < 8 → ((fcmpC fm c x y).1 = true ↔ c = 1 ∨ c = 7)) ∧
  (nan2 = false → ∀ c, c < 8 → ((fcmpC fm c x y).1 = true ↔
    (c = 0 ∧ placeOf X = placeOf Y) ∨ (c = 1 ∧ placeOf X ≠ placeOf Y) ∨ (c = 2 ∧ placeOf X < placeOf Y) ∨ (c = 3 ∧ placeOf X ≤ placeOf Y) ∨
    (c = 4 ∧ placeOf Y < placeOf X) ∨ (c = 5 ∧ placeOf Y ≤ placeOf X) ∨ c = 6)) ∧
  (fclassC fm x = 2 ^ (if X.isNan then (if X.isSig then 8 else 9) else if X.isInf then (if X.isNeg then 0 else 7)
    else if X.isZero then (if X.isNeg then 3 else 4) else if |ratOf X| < (2 : ℚ) ^ fm.emin then (if X.isNeg then 2 else 5)
    else if X.isNeg then 1 else 6)) ∧
  (∀ m, (fminmaxC fm m x y).2 = nv (X.isSig || Y.isSig) ∧
    (X.isNan = true → Y.isNan = true → (fminmaxC fm m x y).1 = fm.nanCode) ∧
    (X.isNan = true → Y.isNan = false → (fminmaxC fm m x y).1 = y ∧ (fminmaxC fm m y x).1 = y) ∧
    (nan2 = false → placeOf X < placeOf Y → (fminmaxC fm m x y).1 = (if m then y else x) ∧ (fminmaxC fm m y x).1 = if m then y else x) ∧
    (nan2 = false → placeOf X = placeOf Y → X.isNeg = true → Y.isNeg = false → (fminmaxC fm m x y).1 = (if m then y else x) ∧
      (fminmaxC fm m y x).1 = if m then y else x))

/-- R108 to R113: the cross-lane instructions: each active lane of a strand of W lanes gets a value formed from the strand's lanes; an s
destination, of a team of one strand, gets it once. That a form of s operands alone also acts in its active lanes only is the
model's choice (log entry 17), and that an exclusive scan makes its last step too (log entry 75). -/
def Obligations.CrossLaneResults : Prop := ∀ (s : State) (a : Agent) (f : FArgs), 0 < a.strand →
  (Ready s a (.shfl f) → Quiet s a (.shfl f) → Crosses (.shfl f) s a f.d 1 (fun l =>
    (rd1 a f.a (strandBase a l + shflLane (xMode f.mod) a.strand (l % a.strand) (crossB a f l)), 0)) 0) ∧
  (Ready s a (.bcast f) → Quiet s a (.bcast f) → Crosses (.bcast f) s a f.d 1 (fun l =>
    (rd1 a f.a (strandBase a l + crossB a f l % a.strand), 0)) 0) ∧
  (Ready s a (.ballot f) → Quiet s a (.ballot f) → maskBad a f.d = false → Crosses (.ballot f) s a f.d (maskRegs a) (fun l =>
    (strandMask a (.ballot f) l (fun x => (rd1 a f.a x).testBit (crossB a f 0 % 32)), 0)) 0) ∧
  (Ready s a (.matchLanes f) → Quiet s a (.matchLanes f) → maskBad a f.d = false → Crosses (.matchLanes f) s a f.d (maskRegs a) (fun l =>
    (strandMask a (.matchLanes f) l (fun x => rd1 a f.a x == rd1 a f.a l), 0)) 0) ∧
  (∀ i, (i = .ballot f ∨ i = .matchLanes f) → Ready s a i → maskBad a f.d = true → Traps i s .reservedField 0) ∧
  (Ready s a (.vote f) → Quiet s a (.vote f) → Crosses (.vote f) s a f.d 1 (fun l =>
    ((2 * rd1 a f.d l + b2n (voteOf (xMode f.mod) ((strandActive a (.vote f) l).map (fun x =>
      (rd1 a f.a x).testBit (crossB a f x % 32))))) % 2 ^ 32, 0)) 0) ∧
  (Ready s a (.sred f) → Quiet s a (.sred f) → Crosses (.sred f) s a f.d 1 (sredOf a f)
    (orLanes (crossLanes a (.sred f)) (fun l => (sredOf a f l).2))) ∧
  (Ready s a (.sscan f) → Quiet s a (.sscan f) → Crosses (.sscan f) s a f.d 1 (sscanOf a f)
    (orLanes (crossLanes a (.sscan f)) (sscanFlags a f)))

/-- R63 to R65: both slots of a P pair read what stood before the pair; each writes its destination in the lanes in which its
quick guard lets it act. -/
def Obligations.PairResults : Prop := ∀ (s : State) (a : Agent) (p : PArgs), p.s0.d ≠ p.s1.d →
  Ready s a (.pPair p) → Quiet s a (.pPair p) → ∃ t b, Issues (.pPair p) s t b ∧ OnlyAgent s t ∧ b.pc = a.pc + 8 ∧
    Holds a b p.s0.d 1 (slotActs a p.s0) (fun l => (slotValue p.s0 (rd1 a p.s0.d l) (if p.s0.op = .movi then 0 else rd1 a p.s0.a l)).1) ∧
    Holds a b p.s1.d 1 (slotActs a p.s1) (fun l => (slotValue p.s1 (rd1 a p.s1.d l) (if p.s1.op = .movi then 0 else rd1 a p.s1.a l)).1) ∧
    (∀ r l, l < a.nlanes → (r < 192 ∨ l = 0) → r ≠ p.s0.d.toNat → r ≠ p.s1.d.toNat → regGet b r l = regGet a r l) ∧
    b.fstat = (a.fstat ||| orLanes (slotLanes a p.s0) (fun l => (slotResult a p.s0 l).2)) |||
      orLanes (slotLanes a p.s1) (fun l => (slotResult a p.s1 l).2)

/-- R104 to R107: the conversions; those of a format slot (R106) where the slot is well formed, the ranges lie in the
allotment and the slot's codebook can be read. That they check and read it with no lane to act in too is the model's choice (log
entry 71). R106, R74: a conversion by an unbound or malformed format slot traps with `FORMAT_SLOT`. -/
def Obligations.ConversionResults : Prop :=
  (∀ (s : State) (a : Agent) (f : FArgs),
    (Ready s a (.cvt f) → Quiet s a (.cvt f) → Gives (.cvt f) s a f.d (cvtN (f.mod.toNat / 8)) (fun l =>
      (cvtC (f.mod.toNat / 8) (f.mod.toNat % 8) (f.b.toNat % 4) (f.b.getLsbD 2) (rdN a f.a.toNat (cvtN (f.mod.toNat % 8)) l)).1)) ∧
    (Ready s a (.pack f) → Quiet s a (.pack f) → Gives (.pack f) s a f.d 1 (fun l =>
      (packC (mb f.mod 1) (mb f.mod 0) (mb f.mod 2) (rd1 a f.a l) (rd1 a f.b l) (rd1 a f.d l)).1)) ∧
    (Ready s a (.unpk f) → Quiet s a (.unpk f) → Gives (.unpk f) s a f.d 1 (fun l =>
      unpkC (mb f.mod 1) (mb f.mod 0) (rd1 a f.a l) (bVal a f 1 l))) ∧
    (∀ cb u b, let slot := slotOf s a.grid (f.mod.toNat % 8)
      slotBad slot = false → ReadsNow s a (readBook s a slot) cb u b →
      (Ready s a (.cvtq f) → f.d.toNat + cvtRegs (slotFmt slot) ≤ a.allot → f.a.toNat + cvtValues (slotFmt slot) ≤ a.allot →
        GoesOn (.cvtq f) s a (u.setMe (quantise cb slot f b))) ∧
      (Ready s a (.cvtd f) → f.d.toNat + cvtValues (slotFmt slot) ≤ a.allot → f.a.toNat + cvtRegs (slotFmt slot) ≤ a.allot →
        GoesOn (.cvtd f) s a (u.setMe (dequantise cb slot f b)))))  ∧
  (∀ (s : State) (a : Agent) (f : FArgs),
    slotBad (slotOf s a.grid (f.mod.toNat % 8)) = true →
    (Ready s a (.cvtq f) → Traps (.cvtq f) s .formatSlot 0) ∧ (Ready s a (.cvtd f) → Traps (.cvtd f) s .formatSlot 0))

/-! ### Control -/

/-- R49, R62, R114, R118: a branch whose guard holds goes to its target and otherwise to the next instruction; CALL also
writes its link register, and NOP and YIELD only go on. -/
def Obligations.BranchResults : Prop := ∀ (s : State) (a : Agent) (f : FArgs),
  (Ready s a (.nop f) → GoesOn (.nop f) s a s) ∧
  (Ready s a (.bra f) → guardOn a (.bra f) = true →
    GoesTo (.bra f) s s (a.pc + BitVec.ofInt 64 (8 * signedN 24 (f.d.toNat * 65536 + f.a.toNat * 256 + f.b.toNat)))) ∧
  (Ready s a (.bra f) → guardOn a (.bra f) = false → GoesOn (.bra f) s a s) ∧
  (∀ x : LArgs, Ready s a (.braL x) → guardOn a (.braL x) = true →
    GoesTo (.braL x) s s (a.pc + BitVec.ofInt 64 (8 * x.imm33.toInt))) ∧
  (∀ x : LArgs, Ready s a (.braL x) → guardOn a (.braL x) = false → GoesOn (.braL x) s a s) ∧
  (Ready s a (.brx f) → guardOn a (.brx f) = true → rdN a f.a.toNat 2 0 % 8 = 0 →
    GoesTo (.brx f) s s (BitVec.ofNat 64 (rdN a f.a.toNat 2 0))) ∧
  (Ready s a (.brx f) → guardOn a (.brx f) = true → rdN a f.a.toNat 2 0 % 8 ≠ 0 →
    Traps (.brx f) s .misaligned (rdN a f.a.toNat 2 0)) ∧
  (Ready s a (.brx f) → guardOn a (.brx f) = false → GoesOn (.brx f) s a s) ∧
  (Ready s a (.call f) → guardOn a (.call f) = true →
    GoesTo (.call f) s (s.setMe (sPut a 60 ((a.pc + 8).setWidth 32)))
      (a.pc + BitVec.ofInt 64 (8 * signedN 24 (f.d.toNat * 65536 + f.a.toNat * 256 + f.b.toNat)))) ∧
  (Ready s a (.call f) → guardOn a (.call f) = false → GoesOn (.call f) s a s) ∧
  (Ready s a (.ret f) → guardOn a (.ret f) = true → rd1 a f.a 0 % 8 = 0 →
    GoesTo (.ret f) s s (BitVec.ofNat 64 (a.pc.toNat / 2 ^ 32 * 2 ^ 32 + rd1 a f.a 0))) ∧
  (Ready s a (.ret f) → guardOn a (.ret f) = true → rd1 a f.a 0 % 8 ≠ 0 →
    Traps (.ret f) s .misaligned (a.pc.toNat / 2 ^ 32 * 2 ^ 32 + rd1 a f.a 0)) ∧
  (Ready s a (.ret f) → guardOn a (.ret f) = false → GoesOn (.ret f) s a s) ∧
  (Ready s a (.yieldTeam f) → guardOn a (.yieldTeam f) = true → GoesOn (.yieldTeam f) s a (yieldAgent s s.cur)) ∧
  (Ready s a (.yieldTeam f) → guardOn a (.yieldTeam f) = false → GoesOn (.yieldTeam f) s a s)

/-- R29, R115: structured divergence, on the execution mask and the mask stack; an instruction whose requirement on the top of the
stack is not met goes on with no effect. R30: a push onto a full hardware mask stack spills the oldest entry to the stack area, and
one that does not fit there traps with `STACK_OVERFLOW`, mask and stack unchanged; a pop that empties the hardware stack brings the
latest spilled entry back, whose bytes stay in the stack area; an entry that software wrote over is indeterminate, its mask within the
team's lanes (R31). The model's choice (log entry 39): DIV.NEXT to an address that software has written into the stack area and that is
no multiple of 8 takes `MISALIGNED` itself (R31 and R49 leave the jump to fault), and a spill or a refill never faults. -/
def Obligations.DivergenceResults : Prop :=
  (∀ (s : State) (a : Agent) (f : FArgs),
    (Ready s a (.divIf f) → a.stack.length < 16 →
      let e : MaskEntry := ⟨a.mask, a.mask &&& ~~~condMask a (.divIf f), .ifArm, branchTarget a f, false⟩
      (a.mask &&& condMask a (.divIf f) ≠ 0 →
        GoesOn (.divIf f) s a (s.setMe { a with stack := e :: a.stack, mask := a.mask &&& condMask a (.divIf f) })) ∧
      (a.mask &&& condMask a (.divIf f) = 0 → GoesTo (.divIf f) s (s.setMe { a with stack := e :: a.stack }) (branchTarget a f))) ∧
    (∀ e es, Ready s a (.divElse f) → a.stack = e :: es → e.kind = .ifArm →
      (e.alt ≠ 0 → GoesOn (.divElse f) s a (s.setMe { a with stack := { e with kind := .elseArm } :: es, mask := e.alt })) ∧
      (e.alt = 0 → GoesTo (.divElse f) s (s.setMe { a with stack := { e with kind := .elseArm } :: es }) (branchTarget a f))) ∧
    (∀ e es, Ready s a (.divJoin f) → a.stack = e :: es → e.kind ≠ .loop →
      (es ≠ [] ∨ a.spilled = [] → GoesOn (.divJoin f) s a (s.setMe { a with mask := e.outer, stack := es })) ∧
      (es = [] → a.spilled ≠ [] → GoesOn (.divJoin f) s a (popEntry s { a with mask := e.outer }))) ∧
    (Ready s a (.divLoop f) → a.mask &&& condMask a (.divLoop f) = 0 → GoesTo (.divLoop f) s s (branchTarget a f)) ∧
    (Ready s a (.divLoop f) → a.mask &&& condMask a (.divLoop f) ≠ 0 → a.stack.length < 16 →
      GoesOn (.divLoop f) s a (s.setMe { a with
        stack := ⟨a.mask, 0, .loop, a.pc + 8, false⟩ :: a.stack, mask := a.mask &&& condMask a (.divLoop f) })) ∧
    (∀ leave, leave = a.mask &&& condMask a (.divBrk f) →
      (∀ above e below, Ready s a (.divBrk f) → a.stack ++ a.spilled = above ++ e :: below → (∀ x ∈ above, x.kind ≠ .loop) → e.kind = .loop →
        ∃ b, GoesOn (.divBrk f) s a (s.setMe b) ∧
          b.stack ++ b.spilled = above.map (fun x => { x with outer := x.outer &&& ~~~leave, alt := x.alt &&& ~~~leave }) ++
            { e with alt := e.alt ||| leave } :: below ∧
          b.stack.length = a.stack.length ∧ { b with stack := a.stack, spilled := a.spilled, mask := a.mask } = a ∧ b.mask = a.mask &&& ~~~leave) ∧
      (Ready s a (.divBrk f) → (∀ x ∈ a.stack ++ a.spilled, x.kind ≠ .loop) → GoesOn (.divBrk f) s a s)) ∧
    (∀ e es, Ready s a (.divNext f) → a.stack = e :: es → e.kind = .loop →
      (a.mask &&& condMask a (.divNext f) ≠ 0 → e.addr.toNat % 8 = 0 →
        GoesTo (.divNext f) s (s.setMe { a with mask := a.mask &&& condMask a (.divNext f) }) e.addr) ∧
      (a.mask &&& condMask a (.divNext f) ≠ 0 → e.addr.toNat % 8 ≠ 0 → Traps (.divNext f) s .misaligned e.addr.toNat) ∧
      (a.mask &&& condMask a (.divNext f) = 0 → GoesOn (.divNext f) s a (popEntry s { a with mask := e.outer }))) ∧
    (∀ i, i = .divElse f ∨ i = .divJoin f ∨ i = .divNext f → Ready s a i →
      (a.stack = [] → a.spilled = [] → GoesOn i s a s) ∧
      (∀ e es, a.stack = e :: es → (i = .divElse f ∧ e.kind ≠ .ifArm ∨ i = .divJoin f ∧ e.kind = .loop ∨ i = .divNext f ∧ e.kind ≠ .loop) →
        GoesOn i s a s)) ∧
    (∀ e es, a.stack = [] → a.spilled = e :: es → e.spoilt = false →
      (Ready s a (.divElse f) → e.kind = .ifArm → e.alt ≠ 0 → GoesOn (.divElse f) s a
        ((s.used 3).setMe { a with spilled := { e with kind := .elseArm } :: es, mask := e.alt })) ∧
      (Ready s a (.divJoin f) → e.kind ≠ .loop → GoesOn (.divJoin f) s a
        (popEntry (s.used 3) { leaveBytes { a with mask := e.outer } es.length e with stack := [e], spilled := es })))) ∧
  (∀ (s : State) (a : Agent) (f : FArgs) (e old : MaskEntry),
    (a.stack.length = 16 → a.stack.getLast? = some old →
      (280 * (a.spilled.length + 1) ≤ a.stackSize →
        pushEntry a e = some { a with stack := e :: a.stack.dropLast, spilled := old :: a.spilled }) ∧
      (a.stackSize < 280 * (a.spilled.length + 1) → pushEntry a e = none ∧
        (Ready s a (.divIf f) → Traps (.divIf f) s .stackOverflow 0) ∧
        (Ready s a (.divLoop f) → a.mask &&& condMask a (.divLoop f) ≠ 0 → Traps (.divLoop f) s .stackOverflow 0))) ∧
    (∀ x xs top, a.stack = [top] → a.spilled = x :: xs →
      (x.spoilt = false → popEntry s a = (s.setMe { leaveBytes a xs.length x with stack := [x], spilled := xs }).used 3) ∧
      (x.spoilt = true → ∃ y, popEntry s a = (s.setMe { a with stack := [y], spilled := xs }).used 3 ∧ y.spoilt = false ∧
        y.outer &&& ~~~teamLanes a = 0 ∧ y.alt &&& ~~~teamLanes a = 0)))

/-- R117 to R120, R301: EXIT of an agent with nothing outstanding takes it off its slot after a close at grove scope. LAUNCH makes
the child grid of a good record, counts a refused one, traps `NEST_DEPTH` at level 10, and waits while 4,096 child grids are live.
CWAIT goes on with the count of refused launches once no child is left; it issues, and waits, until then. The model's choice: LAUNCH has
no effect with no lane in the mask (log entry 72); a child reads what its parent had not closed by a view that its grid holds, and
what the device has closed goes home before it (log entry 45); the join is an open at `.d` (log entry 40). -/
def Obligations.ChildGridResults : Prop := ∀ (s : State) (a : Agent) (f : FArgs),
  (∀ w, Ready s a (.exit f) → guardOn a (.exit f) = true → a.mxq = [] → a.mxErrors = [] → a.lahead.all (·.done) = true →
    (s.core a.core).tileQueue.any (fun x => x.agent == s.cur) = false → Releases (joinMx s s.cur (fun _ => true)) w 1 →
    exec (.exit f) s = .next (dropAgent w w.cur).marked) ∧
  (Ready s a (.exit f) → guardOn a (.exit f) = false → GoesOn (.exit f) s a s) ∧
  (Ready s a (.launch f) → actLanes a (.launch f) = [] ∨ a.mask = 0 → GoesOn (.launch f) s a s) ∧
  (∀ l ls r u b, Ready s a (.launch f) → actLanes a (.launch f) = l :: ls → a.mask ≠ 0 → rdN a f.a.toNat 2 l % 256 = 0 →
    ReadsNow s a (readAtIssue s a (rdN a f.a.toNat 2 l) 256) r u b →
    (a.depth = 10 → Traps (.launch f) s .nestDepth 0) ∧
    (a.depth ≠ 10 → 4096 ≤ (s.grids.filter (fun e => e.2.parent.isSome && !e.2.done)).length →
      exec (.launch f) s = .next (u.setMe u.me.heldBack)) ∧
    (a.depth ≠ 10 → (s.grids.filter (fun e => e.2.parent.isSome && !e.2.done)).length < 4096 →
      let named := wrN b f.d.toNat 1 (fun _ => some (childHandle s))
      (recordOk s r true = true → ∃ t, GoesOn (.launch f) s a t ∧
        let v := pushAll (drainAll (({ u with nextChild := childHandle s + 1 } : State).setMe named) s.cur) s.cur a.asid
        { t with grids := v.grids, nextOrder := v.nextOrder } = v ∧
        ∃ g, Tab.find t.grids v.nextOrder = some g ∧ g.record = r ∧ g.gridId = BitVec.ofNat 32 (childHandle s) ∧ g.asid = a.asid ∧
          g.depth = a.depth + 1 ∧ g.prio = max (recPrio r) a.prio ∧ g.parent = some (s.cur, a.wg, a.grid) ∧
          g.view = privateView v v.me) ∧
      (recordOk s r true = false → GoesOn (.launch f) s a (({ u with nextChild := childHandle s + 1 } : State).setMe
        { named with refused := b.refused + 1 })))) ∧
  (∀ l ls, Ready s a (.launch f) → actLanes a (.launch f) = l :: ls → a.mask ≠ 0 → rdN a f.a.toNat 2 l % 256 ≠ 0 →
    Traps (.launch f) s .misaligned (rdN a f.a.toNat 2 l)) ∧
  (Ready s a (.cwait f) → guardOn a (.cwait f) = true → childrenOf s s.cur a = [] →
    GoesOn (.cwait f) s a (openJoin (s.setMe { wrN a f.d.toNat 1 (fun _ => some a.refused) with refused := 0 }) s.cur)) ∧
  (Ready s a (.cwait f) → guardOn a (.cwait f) = true → childrenOf s s.cur a ≠ [] →
    (a.counted = false → Stays (.cwait f) s s) ∧ (a.counted = true → exec (.cwait f) s = .next (s.setMe a.unchosen))) ∧
  (Ready s a (.cwait f) → guardOn a (.cwait f) = false → GoesOn (.cwait f) s a s)

/-! ### Memory -/

/-- R39, R178, R190: a load whose bytes can all be translated starts with a destination group outstanding in the lanes it acts
on; where no engine that it has not joined writes a byte of it, and every byte needs no fetch and is not poisoned, each lane
will receive the bytes its agent sees, little-endian. R180: a load from the constant bank starts where its bytes lie within
the bank, with those bytes, of which one that software wrote while a team of the grid was resident is a free value; it traps with
`PAGE_PERMISSION` where a byte lies beyond the bank's length. -/
def Obligations.LoadResults : Prop :=
  (∀ (s : State) (a : Agent) (i : Instr) (d : Reg) (sz : Nat) (eas : List (Nat × Nat))
    (ls : List (Nat × Nat × List Nat)), LoadForm a i d sz eas → Ready s a i → Settled s → tokenFree s a = true →
    Unlogged s eas (szBytes sz) → rangeFault eas (szBytes sz) = none → xlateLanes s a eas (szBytes sz) .read = .ok ls →
    Loads i s a d (szRegs sz) (szSext sz) ls) ∧
  (∀ (s : State) (a : Agent) (f : FArgs), Ready s a (.ldk f) →
    let offs := (actLanes a (.ldk f)).map (fun l => (l, wrapN 32 ((rd1 a f.a l : Int) + fOff f)))
    let eas := offs.map (fun e => (e.1, recordField s a.grid 24 8 + e.2))
    (∀ e, offs.find? (fun e => decide (recordField s a.grid 32 4 < e.2 + szBytes f.mod.toNat)) = some e →
      Traps (.ldk f) s .pagePermission (recordField s a.grid 24 8 + e.2)) ∧
    (∀ ls, offs.find? (fun e => decide (recordField s a.grid 32 4 < e.2 + szBytes f.mod.toNat)) = none → tokenFree s a = true →
      Unlogged s eas (szBytes f.mod.toNat) → rangeFault eas (szBytes f.mod.toNat) = none →
      xlateLanes s a eas (szBytes f.mod.toNat) .read = .ok ls →
      ∃ t e, Starts (.ldk f) s a t e ∧ e.dest = f.d ∧ e.lanes = lanesMask (actLanes a (.ldk f)) ∧ e.done = false ∧ e.sext = szSext f.mod.toNat ∧
        e.remain = (shapeOf (.ldk f)).la.toNat ∧
        (Settled s → unjoined s (ls.map (·.2.2)).flatten = [] → (∀ q ∈ ls, ∀ x ∈ q.2.2.zipIdx,
            (loadByte s a (q.2.1 + x.2) x.1).isSome = true ∧ fracture s a x.1 = [] ∧ poisoned s a x.1 = false) →
          e.taint = 0 ∧ e.err = none ∧ ∀ l va locs, ls.find? (fun q => q.1 == l) = some (l, va, locs) →
            l < (if isS f.d then 1 else a.nlanes) → actsIn a (.ldk f) l = true → e.values[l]? = some (ofBytes (locs.zipIdx.map (fun x =>
              if racedFor s a.grid x.1 then BitVec.ofNat 8 (s.free (16 * l + x.2)) else (loadByte s a (va + x.2) x.1).getD 0))))))

/-- R178, R191, R223: a store whose bytes can all be translated goes on at once, its agent's earlier posted REDs to the same
lines having been performed; its bytes are private to the agent, lane after lane in ascending order, and nothing else of the
device changes but what the translations leave in the TLB. Where an address is out of range it traps with `PAGE_NOT_PRESENT`. -/
def Obligations.StoreResults : Prop := ∀ (s : State) (a : Agent) (i : Instr) (d : Reg) (sz : Nat) (eas : List (Nat × Nat)),
  StoreForm a i d sz eas → Ready s a i →
  (∀ x, rangeFault eas (szBytes sz) = some x → Traps i s .pageNotPresent x) ∧
  ∀ ls, sideEntries s s.cur = [] → rangeFault eas (szBytes sz) = none → xlateLanes s a eas (szBytes sz) .write = .ok ls →
    let locs := (ls.map (·.2.2)).flatten
    let u := drainPosted s s.cur (redTouches locs)
    u.posted.any (fun e => e.2.agent == u.cur && redTouches (locs.filter (fun x => reachable u (homeOf x))) e.2.job) = false →
    GoesOn i s a (performStore (fillTlbs u a.unit a.asid (eas.map (·.2))) u.me
      (((storeCells a d (szRegs sz) (szBytes sz) eas).zip locs).map (fun c => (c.1.1, c.2, c.1.2))))

/-- R191, R222, R223: after an agent's store the agent reads at each stored location the byte stored there last, every other
location reads for it as before, and memory and what every other agent has stored are as they were; of another agent only
spilled mask-stack entries that the store went over differ (R31). -/
def Obligations.StoreSeen : Prop := ∀ (s : State) (a : Agent) (cells : List (Nat × Nat × Byte)), Tab.find s.agents s.cur = some a →
  ∃ b, Tab.find (performStore s a cells).agents s.cur = some b ∧
    (∀ pre va loc x post, cells = pre ++ (va, loc, x) :: post → (∀ c ∈ post, c.2.1 ≠ loc) →
      seeByte (performStore s a cells) b loc = some x) ∧
    (∀ loc, (∀ c ∈ cells, c.2.1 ≠ loc) → seeByte (performStore s a cells) b loc = seeByte s a loc) ∧
    (∀ x, (performStore s a cells).mem.read x = s.mem.read x) ∧ b.sregs = a.sregs ∧ b.vregs = a.vregs ∧ b.fstat = a.fstat ∧
    ∀ k x, k ≠ s.cur → Tab.find s.agents k = some x → ∃ y, Tab.find (performStore s a cells).agents k = some y ∧
      { y with spilled := x.spilled, spill := x.spill } = x

/-- The frame of the global store, for every form: registers, flags, special registers, and every byte of memory are
unchanged, and every other agent but for spilled mask-stack entries that the store went over (R31); for each location that the
agent sees, only those stored to differ. -/
def Obligations.StoreFrame : Prop := ∀ (s : State) (a : Agent) (i : Instr) (d : Reg) (sz : Nat) (eas : List (Nat × Nat))
  (ls : List (Nat × Nat × List Nat)), StoreForm a i d sz eas → Ready s a i → Quiet s a i → sideEntries s s.cur = [] →
  rangeFault eas (szBytes sz) = none → xlateLanes s a eas (szBytes sz) .write = .ok ls →
  (∀ e ∈ s.posted, e.2.agent = s.cur → redTouches (ls.map (·.2.2)).flatten e.2.job = false) →
  ∃ t b, Issues i s t b ∧ b.pc = nextPc a i ∧ b.vregs = a.vregs ∧ b.sregs = a.sregs ∧ b.fstat = a.fstat ∧ b.mask = a.mask ∧
    b.stack = a.stack ∧ b.priv = a.priv ∧ b.trapPc = a.trapPc ∧ b.trapCause = a.trapCause ∧ b.closes = a.closes ∧
    (∀ x, t.mem.read x = s.mem.read x) ∧
    (∀ k x, k ≠ s.cur → Tab.find s.agents k = some x →
      ∃ y, Tab.find t.agents k = some y ∧ { y with spilled := x.spilled, spill := x.spill } = x) ∧
    ∀ loc, loc ∉ (ls.map (·.2.2)).flatten → seeByte t b loc = seeByte s a loc

/-- R179, R190 to R192: both forms of the scratchpad load start, its agent's earlier stores to the same ports having been
performed, with the bytes of the scratchpads outstanding where no engine writes them and they are not poisoned; both forms of
the scratchpad store go on, the bytes at the agent's own core's port stored at once and those at another core's posted, one
access to each port; they are open to other agents' reads until the agent's next close (R235). Either traps with `BANK_MODE` at the first byte that is not in a scratchpad bank the workgroup holds. -/
def Obligations.ScratchResults : Prop := ∀ (s : State) (a : Agent) (i : Instr) (d : Reg) (sz : Nat) (eas : List (Nat × Nat)),
  (ScratchLoadForm a i d sz eas → Ready s a i → scratchBad s a eas (szBytes sz) = none →
    ((∀ e ∈ eas, ownPort a e.2 = true) ∨ tokenFree s a = true) →
    let v := drainPosted s s.cur (scratchTouches (eas.map (fun e => portOf a e.2)))
    ∃ t e, Starts i s a t e ∧ e.dest = d ∧ e.nreg = (if 0xFE ≤ d.toNat then 0 else szRegs sz) ∧ e.lanes = lanesMask (actLanes a i) ∧
      e.sext = szSext sz ∧ e.remain = (shapeOf i).la.toNat ∧ e.done = false ∧
      ((∀ q ∈ eas, hotScratch v (portOf a q.2) (q.2 % 2 ^ 21) (szBytes sz) = [] ∧ scratchPoison v a.grove q.2 (szBytes sz) = none) →
        e.err = none ∧ e.taint = 0 ∧ ∀ l x, eas.find? (fun q => q.1 == l) = some (l, x) → l < (if isS d then 1 else a.nlanes) →
          actsIn a i l = true → e.values[l]? = some (scratchRead v a.grove x (szBytes sz)))) ∧
  (ScratchStoreForm a i d sz eas → Ready s a i → scratchBad s a eas (szBytes sz) = none →
    let cells := storeCells a d (szRegs sz) (szBytes sz) eas
    let at_ := fun (cs : List (Nat × Byte)) => cs.map (fun x => (x.1 % 2 ^ 21, x.2))
    ∃ t b, GoesOn i s a t ∧ t.mem = s.mem ∧ Tab.find t.agents s.cur = some b ∧ { b with scratchOpen := a.scratchOpen } = a ∧
      (∀ k, k ≠ s.cur → Tab.find t.agents k = Tab.find s.agents k) ∧
      (∀ p, p ∈ b.scratchOpen ↔ p ∈ a.scratchOpen ∨ p ∈ cells.map (fun x => scratchPosAt a.grove x.1)) ∧
      (∀ j, t.core j = if j = a.core then (s.core j).store (at_ (cells.filter (fun x => ownPort a x.1))) else s.core j) ∧
      (s.posted = [] → t.posted.map (·.2) = ((List.range 8).filter (fun c =>
          cells.any (fun x => scratchCore x.1 == c && !ownPort a x.1))).map (fun c =>
        ⟨s.cur, a.asid, a.order + 1, .scratch (8 * a.grove + c) (at_ (cells.filter (fun x => scratchCore x.1 == c)))⟩))) ∧
  (∀ x, ScratchLoadForm a i d sz eas ∨ ScratchStoreForm a i d sz eas → Ready s a i →
    scratchBad s a eas (szBytes sz) = some x → Traps i s .bankMode x)

/-- R196 to R198, R200, R201, R232: the four atomics with return start, once their lanes are translated, a release has made
its close, and no bytes of their lines are on their way to another device; one lane at its local home returns what stood
there, to ATOMAG's lanes with the sum of the lanes below, where its line is not poisoned; bytes in conflict with an unordered access
of another base or size come as free values (R233). A misaligned lane traps with `MISALIGNED` at its address, before any address is
translated and after every one was held to the range: that order is the model's choice (log entry 27). -/
def Obligations.AtomicResults : Prop := ∀ (s : State) (a : Agent) (f : FArgs) (i : Instr) (n : Nat) (eas : List (Nat × Nat))
  (new : Nat → Nat → Option Nat) (val : Nat → Nat → Nat), AtomForm a f i n eas new val → Ready s a i →
  (eas = [] → ∃ e, Starts i s a s e ∧ e.dest = f.d ∧ e.lanes = 0) ∧
  (∀ e, tokenFree s a = true → rangeFault eas 1 = none → eas.find? (fun e => e.2 % n != 0) = some e → Traps i s .misaligned e.2) ∧
  (∀ ls u, eas ≠ [] → tokenFree s a = true → rangeFault eas 1 = none → eas.find? (fun e => e.2 % n != 0) = none →
    xlateLanes s a eas n .update = .ok ls → Unlogged s eas n → Orders s u (modOrd f.mod) (modScope f.mod) →
    let locs := ls.map (fun e => e.2.2.headD 0)
    let v := drainPosted u u.cur (redTouches locs)
    let far := locs.filter (fun x => homeOf x != v.device)
    let w := far.foldl (fun s x => flushLine s s.cur x) v
    far.any (fun x => lineHeld w x && reachable w (homeOf x)) = false →
    ∃ t e, Starts i s a t e ∧ e.dest = f.d ∧ e.lanes = lanesMask (actLanes a i) ∧ e.remain = (shapeOf i).la.toNat ∧ e.done = false ∧
      ∀ l va xs, ls = [(l, va, xs)] → homeOf (xs.headD 0) = v.device →
        let r := strongAt v v.cur a.asid (xs.headD 0) n (new l)
        r.err = none → r.loose = false → e.err = none ∧ e.taint = 0 ∧ (modOrd f.mod % 2 = 0 → t.mem = r.s.mem) ∧
          ∀ j, j < (if isS f.d then 1 else a.nlanes) → actsIn a i j = true → (j = l ∨ i = .atomag f) →
            e.values[j]? = some (val j r.old)) ∧
  (Ready s a (.atomag f) → actLanes a (.atomag f) = [] → GoesOn (.atomag f) s a s)

/-- R196: the operations of the integer atomics on an n-byte word. -/
def Obligations.AtomicOperations : Prop := ∀ (sz m x : Nat), sz = 2 ∨ sz = 3 → m < 2 ^ (8 * 2 ^ sz) → x < 2 ^ (8 * 2 ^ sz) →
  atomNew 0 sz m x = m ∧ atomNew 1 sz m x = x ∧ atomNew 2 sz m x = (m + x) % 2 ^ (8 * 2 ^ sz) ∧ atomNew 3 sz m x = m &&& x ∧
  atomNew 4 sz m x = m ||| x ∧ atomNew 5 sz m x = m ^^^ x ∧
  atomNew 6 sz m x = (if signedN (8 * 2 ^ sz) m ≤ signedN (8 * 2 ^ sz) x then m else x) ∧
  atomNew 7 sz m x = (if signedN (8 * 2 ^ sz) m ≤ signedN (8 * 2 ^ sz) x then x else m) ∧ atomNew 8 sz m x = min m x ∧ atomNew 9 sz m x = max m x ∧
  atomNew 10 sz m x = (if m ≥ x then 0 else m + 1) ∧ atomNew 11 sz m x = (if m = 0 ∨ m > x then x else m - 1)

/-- R199, R202 to R204: RED posts one access for each lane and goes on; FPUSH and FPOP move words through a FIFO bank in lane
order, and wait where the bank has not room, or words, for all of them; prefetch, write-back and invalidation go on with no effect but
placement. R183: BANKSET of banks that no resident workgroup and no matrix array holds, within 24 cache banks, puts them in the new
mode and keeps its agent until BANK_DRAIN_END, which lets any agent it keeps go on; without a bank to move it goes on at once; of a bank
to move that a resident workgroup holds, of one that a macro-operation names, and beyond 24 cache banks it traps with `BANK_MODE`. -/
def Obligations.PostedAndFifo : Prop :=
  (∀ (s : State) (a : Agent) (f : FArgs),
    (Ready s a (.red f) → globalEas a (.red f) f.a 0 = [] → GoesOn (.red f) s a s) ∧
    (∀ ls u, Ready s a (.red f) → globalEas a (.red f) f.a 0 ≠ [] → rangeFault (globalEas a (.red f) f.a 0) 1 = none →
      (globalEas a (.red f) f.a 0).find? (fun e => e.2 % atomSzBytes (f.b.toNat / 8) (f.b.toNat % 8) != 0) = none →
      xlateLanes s a (globalEas a (.red f) f.a 0) (atomSzBytes (f.b.toNat / 8) (f.b.toNat % 8)) .update = .ok ls →
      Orders s u (modOrd f.mod) (modScope f.mod) → sideEntries s s.cur = [] →
      ∃ t, GoesOn (.red f) s a t ∧ t.mem = u.mem ∧ t.agents = u.agents ∧ (u.posted = [] → t.posted.map (·.2) = ls.map (fun e =>
        ⟨u.cur, a.asid, nowNum u u.cur, .red f.b.toNat (4 * modOrd f.mod + modScope f.mod) (e.2.2.headD 0) e.2.1
          (rdN a f.d.toNat (atomSzRegs (f.b.toNat / 8) (f.b.toNat % 8)) e.1)⟩))) ∧
    (Ready s a (.fpush f) → fifoBad s a f.mod.toNat = false →
      (Tab.get (s.core a.core).fifos f.mod.toNat []).length + (actLanes a (.fpush f)).length ≤ 16384 →
      let q := Tab.get (s.core a.core).fifos f.mod.toNat [] ++ (actLanes a (.fpush f)).map (fun l => regGet a f.a.toNat l)
      GoesOn (.fpush f) s a (s.setCore a.core { (s.core a.core) with fifos := Tab.put (s.core a.core).fifos f.mod.toNat q })) ∧
    (Ready s a (.fpop f) → fifoBad s a f.mod.toNat = false →
      (actLanes a (.fpop f)).length ≤ (Tab.get (s.core a.core).fifos f.mod.toNat []).length →
      ∃ t, GoesOn (.fpop f) s a t ∧
        Tab.get (t.core a.core).fifos f.mod.toNat [] = (Tab.get (s.core a.core).fifos f.mod.toNat []).drop (actLanes a (.fpop f)).length ∧
        (∀ (j l : Nat), (actLanes a (.fpop f))[j]? = some l → f.d.toNat < 192 → l < a.nlanes →
          some (regGet t.me f.d.toNat l) = (Tab.get (s.core a.core).fifos f.mod.toNat [])[j]?)) ∧
    (Ready s a (.fpush f) → fifoBad s a f.mod.toNat = false →
      16384 < (Tab.get (s.core a.core).fifos f.mod.toNat []).length + (actLanes a (.fpush f)).length →
      exec (.fpush f) s = .next (s.setMe a.heldBack)) ∧
    (Ready s a (.fpop f) → fifoBad s a f.mod.toNat = false →
      (Tab.get (s.core a.core).fifos f.mod.toNat []).length < (actLanes a (.fpop f)).length →
      exec (.fpop f) s = .next (s.setMe a.heldBack)) ∧
    (Ready s a (.fpush f) → fifoBad s a f.mod.toNat = true → Traps (.fpush f) s .bankMode 0) ∧
    (Ready s a (.fpop f) → fifoBad s a f.mod.toNat = true → Traps (.fpop f) s .bankMode 0) ∧
    (Ready s a (.pref f) → GoesOn (.pref f) s a s) ∧ (Ready s a (.cwb f) → GoesOn (.cwb f) s a s) ∧
    (Ready s a (.cinv f) → GoesOn (.cinv f) s a s)) ∧
  (∀ (s : State) (a : Agent) (f : FArgs), Ready s a (.bankset f) → guardOn a (.bankset f) = true →
    let picked := (List.range 32).filter (fun b => (rd1 a f.a 0).testBit b)
    let moved := picked.filter (fun b => (s.core a.core).mode b != f.b.toNat)
    (moved.any (bitN (heldBanks s a.grove)) = false → picked.any (mxBanks s a.core).contains = false →
      cacheBanks (setBanks (s.core a.core) moved f.b.toNat) ≤ 24 →
      (moved = [] → GoesOn (.bankset f) s a s) ∧
      (moved ≠ [] → ∃ t b, exec (.bankset f) s = .next t ∧ Tab.find t.agents s.cur = some b ∧ b.pc = a.pc ∧ heldByEvent b = true ∧
        b.hold = .bankDrain (BitVec.ofNat 32 (moved.foldl (fun x b => x + 2 ^ b) 0)) f.b.toNat ∧ (∀ k ∈ moved, (t.core a.core).mode k = f.b.toNat) ∧
        (∀ k, k < 32 → k ∉ moved → (t.core a.core).mode k = (s.core a.core).mode k))) ∧
    (moved.any (bitN (heldBanks s a.grove)) = true ∨ picked.any (mxBanks s a.core).contains = true → Traps (.bankset f) s .bankMode 0) ∧
    (24 < cacheBanks (setBanks (s.core a.core) moved f.b.toNat) → Traps (.bankset f) s .bankMode 0)) ∧
  (∀ (s : State) (a : Agent) (f : FArgs), Ready s a (.bankset f) → guardOn a (.bankset f) = false → GoesOn (.bankset f) s a s) ∧
  (∀ (s : State) (k : Nat) (b : Agent) (bs : Word) (m : Nat), Tab.find s.agents k = some b → b.hold = .bankDrain bs m →
    exec (.bankDrainEnd k) s = .next (resumeAfter s k) ∧
    ∃ c, Tab.find (resumeAfter s k).agents k = some c ∧ c.pc = b.pc + 8 ∧ c.hold = .none ∧ c.counted = false)

/-! ### Asynchronous copies and rings -/

/-- R205, R206, R214: CPY with a live ring that has room enters the copy unit, its pairs taken at issue and its slot credited,
where no address offends; the checks in their order, each at its first offender, are address range, alignment, scratchpad.
R207 to R210: CPYT with its guard and a ring with room reads its descriptor, which lies at a multiple of 64, and enters the
copy unit if the descriptor is good, with TRL taking the trailer's registers; a descriptor that breaks its field rules traps
with `RESERVED_FIELD`; without its guard it only goes on. R205, R236, R297: one line operation of a copy of words of
scratchpad to scratchpad, of which no source byte is poisoned or raced, moves one lane's bytes; one of a copy with nothing
left ends it. That the handle is checked before the addresses, and that the traps are taken though the unit or the ring is full, is
the model's choice (log entries 33, 71). -/
def Obligations.CopyResults : Prop :=
  (∀ (s : State) (a : Agent) (f : FArgs), Ready s a (.cpy f) →
    let n := 4 * 2 ^ (f.mod.toNat % 4)
    let h := rd1 a f.d 0
    let bank := fun (p : Nat × Nat) => (if mb f.mod 2 then scratchFault s a p.1 n else none).or (if mb f.mod 3 then scratchFault s a p.2 n else none)
    (ringOf s a h = none → Traps (.cpy f) s .privilege 0) ∧
    (∀ r, ringOf s a h = some r → unitFull s a.grove = false → ringFull r = false →
      (∀ p ∈ cpyPairs a f, p.1 % n = 0 ∧ p.2 % n = 0 ∧ (mb f.mod 2 = false → p.1 + n ≤ 2 ^ 50) ∧ (mb f.mod 3 = false → p.2 + n ≤ 2 ^ 50) ∧
        bank p = none) →
      GoesOn (.cpy f) s a (startCopy s a h (n * (cpyPairs a f).length) (mb f.mod 4) (.lanes n (mb f.mod 2) (mb f.mod 3) (cpyPairs a f)))) ∧
    (∀ r x, ringOf s a h = some r → firstOffender (cpyPairs a f) (beyond (mb f.mod 2) · n) (beyond (mb f.mod 3) · n) = some x →
      Traps (.cpy f) s .pageNotPresent x) ∧
    (∀ r x, ringOf s a h = some r → firstOffender (cpyPairs a f) (beyond (mb f.mod 2) · n) (beyond (mb f.mod 3) · n) = none →
      firstOffender (cpyPairs a f) (· % n != 0) (· % n != 0) = some x → Traps (.cpy f) s .misaligned x) ∧
    (∀ r x, ringOf s a h = some r → firstOffender (cpyPairs a f) (beyond (mb f.mod 2) · n) (beyond (mb f.mod 3) · n) = none →
      firstOffender (cpyPairs a f) (· % n != 0) (· % n != 0) = none → (cpyPairs a f).findSome? bank = some x → Traps (.cpy f) s .bankMode x)) ∧
  (∀ (s : State) (a : Agent) (l : LArgs) (r : Ring), Ready s a (.cpyt l) →
    let addr := rdN a l.b.toNat 2 0
    (guardOn a (.cpyt l) = false → GoesOn (.cpyt l) s a s) ∧
    (guardOn a (.cpyt l) = true → ringOf s a (rd1 a l.d 0) = none → Traps (.cpyt l) s .privilege 0) ∧
    (guardOn a (.cpyt l) = true → ringOf s a (rd1 a l.d 0) = some r → addr % 64 ≠ 0 → Traps (.cpyt l) s .misaligned addr) ∧
    (∀ d v b, guardOn a (.cpyt l) = true → ringOf s a (rd1 a l.d 0) = some r → addr % 64 = 0 →
      ReadsNow s a (readAtIssue s a addr 64) d v b →
      let u := v.setMe b
      let box := rdN b l.a.toNat (if mb l.mod 1 then 1 else 2) 0
      let x := (List.range 5).map (fun k => signedN 32 (regGet b (l.c.toNat + k) 0).toNat)
      (tdBad d = true → Traps (.cpyt l) s .reservedField 0) ∧
      (unitFull s a.grove = false → ringFull r = false → tdBad d = false → (mb l.mod 1 = false → box < 2 ^ 50) →
        (∀ t, tensorTop d x = some t → t < 2 ^ 50) → tdFlagsBad d = false →
        (tdTrl d = true → slotBad (slotOf u b.grid (tdSlot d)) = false) → imageBad d x = false →
        (mb l.mod 1 = true → scratchFault u b box (tdExtent d) = none) →
        let tr := takeTrailer u b d
        GoesOn (.cpyt l) s a (startCopy (u.setMe tr.2) tr.2 (rd1 b l.d 0) (tdBytes d + (if tdTrailer d then 16 else 0))
          (mb l.mod 2) (.tensor d x box (mb l.mod 1) (mb l.mod 0) tr.1)) ∧ tr.2.sregs = a.sregs ∧ tr.2.vregs = a.vregs ∧ tr.2.stores = a.stores))) ∧
  (∀ (s : State) (id : Nat) (c : Copy) (n : Nat) (ps : List (Nat × Nat)),
    Tab.find s.copies id = some c → c.suspended = false → (c.cmd = none → dieStopped s (c.grove / 8) = false) →
    (∀ w, Tab.find s.wgs c.wg = some w → w.saved = false) → c.job = .lanes n true true ps →
    (∀ dst src, ps[c.cursor]? = some (dst, src) → scratchPoison s c.grove src n = none → (∀ p ∈ ps, p.2 + n ≤ dst ∨ dst + n ≤ p.2) →
      (∀ i, i < n → racedAt s id (some (true, src)) i = false) →
      exec (.copyLineOperation id) s = .next (stepTo id (c.cursor + 1)
        ((numberWrite (scratchWrite s c.grove dst (scratchBytes s c.grove src n))
          ((List.range n).map (fun j => scratchPosAt c.grove (dst + j)))).used (2 * n)))) ∧
    (ps[c.cursor]? = none → exec (.copyLineOperation id) s = .next (endCopy s id c (n * ps.length) 0)))

/-- R212 to R219: the ring instructions, in the forms that complete and in those that wait or report, and the handle that none
of the workgroup's rings has. The model's choice: a wait's or a query's join is an open of the whole phase at `.d` (log entry 40), the
handle is checked before all else (log entry 33), and before a continuation's alignment and the wait for loads (log entry 75). -/
def Obligations.RingResults : Prop := ∀ (s : State) (a : Agent) (f : FArgs),
  (∀ o u b, Ready s a (.ringInit f) → guardOn a (.ringInit f) = true → rdN a f.a.toNat 2 0 % 64 = 0 →
    ReadsNow s a (readAtIssue s a (rdN a f.a.toNat 2 0) 16) o u b →
    let ssize := sliceN o 8 4
    let scount := sliceN o 12 4
    (0 < ssize → ssize % 16 = 0 → ssize ≤ 2 ^ 24 → 0 < scount → scount ≤ 256 →
      (∀ h, (List.range 256).find? (fun h => !((s.grove a.grove).rings.any (fun r => r.1 % 256 == h))) = some h →
        ∃ r, GoesOn (.ringInit f) s a ((u.setGrove a.grove { (s.grove a.grove) with
            rings := Tab.put (s.grove a.grove).rings (ringKey a.wg h) r }).setMe (wrN b f.d.toNat 1 (fun _ => some h))) ∧
          r.wg = a.wg ∧ r.buf = BitVec.ofNat 64 (sliceN o 0 8) ∧ r.ssize = ssize ∧ r.scount = scount ∧
          r.wseq = 0 ∧ r.rseq = 0 ∧ r.aseq = 0 ∧ r.slots = []) ∧
      ((List.range 256).find? (fun h => !((s.grove a.grove).rings.any (fun r => r.1 % 256 == h))) = none →
        GoesOn (.ringInit f) s a (u.setMe (wrN b f.d.toNat 1 (fun _ => some 0xFFFFFFFF))))) ∧
    (ssize = 0 ∨ ssize % 16 ≠ 0 ∨ 2 ^ 24 < ssize ∨ scount = 0 ∨ 256 < scount →
      Traps (.ringInit f) s .reservedField (rdN a f.a.toNat 2 0))) ∧
  (∀ i r, (i = .ringWait f ∨ i = .ringPark f ∧ rdN a f.b.toNat 2 0 % 8 = 0) → Ready s a i → guardOn a i = true →
    ringOf s a (rd1 a f.a 0) = some r →
    (∀ w, a.ringGot = none → ringSeen r = .result w → GoesOn i s a (ringEnd s a f.d (rd1 a f.a 0) r.rseq w)) ∧
    (∀ seq w, a.ringGot = some (seq, w, none) → (i = .ringWait f ∨ a.parkPc = none) →
      GoesOn i s a (ringEnd s a f.d (rd1 a f.a 0) seq w)) ∧
    (∀ seq w pc, a.ringGot = some (seq, w, none) → i = .ringPark f → a.parkPc = some pc →
      GoesTo i s (ringEnd s a f.d (rd1 a f.a 0) seq w) pc) ∧
    (∀ seq w c x, a.ringGot = some (seq, w, some (c, x)) → Traps i s c x) ∧
    (∀ c x r', a.ringGot = none → ringSeen r = .report c x r' → exec i s = .next (takeTrap (putRing s a.wg (rd1 a f.a 0) r') s.cur c x))) ∧
  (∀ r, Ready s a (.ringWait f) → guardOn a (.ringWait f) = true → ringOf s a (rd1 a f.a 0) = some r → a.ringGot = none →
    r.wseq ≤ r.rseq → a.kind = .team → Stays (.ringWait f) s (s.setMe { a.onRing (rd1 a f.a 0) with state := .parked })) ∧
  (∀ r, Ready s a (.ringWait f) → guardOn a (.ringWait f) = true → ringOf s a (rd1 a f.a 0) = some r → a.ringGot = none →
    r.wseq ≤ r.rseq → a.kind = .forester →
    let t := s.setMe (a.onRing (rd1 a f.a 0))
    exec (.ringWait f) s = .next (t.setMe t.me.unchosen)) ∧
  (∀ r, Ready s a (.ringPark f) → guardOn a (.ringPark f) = true → ringOf s a (rd1 a f.a 0) = some r →
    rdN a f.b.toNat 2 0 % 8 = 0 → a.ringGot = none → r.wseq ≤ r.rseq → Stays (.ringPark f) s
      (s.setMe { a.onRing (rd1 a f.a 0) with state := .parked, parkPc := some (BitVec.ofNat 64 (rdN a f.b.toNat 2 0)) })) ∧
  (∀ r, Ready s a (.ringRel f) → guardOn a (.ringRel f) = true → ringOf s a (rd1 a f.a 0) = some r →
    a.lahead.all (fun e => !e.mem || e.done) = true →
    (r.rseq < r.wseq →
      GoesOn (.ringRel f) s a (settleRing s a.wg (rd1 a f.a 0) { r.setAt r.rseq RingSlot.empty with rseq := r.rseq + 1 })) ∧
    (r.wseq ≤ r.rseq → GoesOn (.ringRel f) s a s)) ∧
  (∀ r, Ready s a (.ringQ f) → guardOn a (.ringQ f) = true → ringOf s a (rd1 a f.a 0) = some r →
    let t := s.setMe (wrN a f.d.toNat 1 (fun _ => some (ringValue r (f.mod.toNat % 8))))
    (f.mod.toNat % 8 ≠ 0 ∨ r.wseq = 0 → GoesOn (.ringQ f) s a t) ∧
    (f.mod.toNat % 8 = 0 → 0 < r.wseq → GoesOn (.ringQ f) s a (joinCopies (openJoin t s.cur)
      (fun x => x.wg == a.wg && x.handle == rd1 a f.a 0 && decide (x.slot < r.wseq))))) ∧
  (∀ i, (i = .ringInit f ∨ i = .ringWait f ∨ i = .ringRel f ∨ i = .ringQ f ∨ i = .ringPark f) → Ready s a i → guardOn a i = false →
    GoesOn i s a s) ∧
  (∀ i, (i = .ringWait f ∨ i = .ringRel f ∨ i = .ringQ f ∨ i = .ringPark f) → Ready s a i → guardOn a i = true →
    ringOf s a (rd1 a f.a 0) = none → Traps i s .privilege 0)

/-! ### Synchronisation -/

/-- R224 to R230, R250, R253, R333, R399: closes issue once the agent's earlier closes have completed and its bundles
committed, its posted accesses having been performed, and wait until then; one that cannot place its bytes traps with
`FABRIC_UNREACHABLE`. Opens and fences go on. The model's choice (log entry 72): a close at `.d` or `.f` that covers bytes bound for
other devices issues and holds its agent until they are there, or cannot be placed. -/
def Obligations.CloseResults : Prop := ∀ (s : State) (a : Agent) (f : FArgs),
  let u := beginClose s
  (∀ i sc, (i = .pclose f ∧ sc = fScope f ∧ a.hold ≠ .placing ∨ i = .phase f ∧ sc = fScope f ∧ a.hold ≠ .placing ∨ i = .wake f ∧ sc = 2) →
    Ready s a i → guardOn a i = true →
    ((2 ≤ sc → unplaceable u u.cur = none) → closesPending u u.cur = false → openBundle u u.cur = none →
      let t := issueClose u u.cur sc (if i = .wake f then some (wakeTarget a f) else none)
      (i = .wake f ∨ sc < 2 ∨ coversAway u u.cur = false → GoesOn i s a (if i = .phase f then openPhase t t.cur sc else t)) ∧
      (i ≠ .wake f → 2 ≤ sc → coversAway u u.cur = true →
        let v := (if t.me.closes.all (closeFree t t.cur) then completeClose t t.cur else t).modAgent t.cur (fun b => { b with hold := .placing })
        Stays i s v)) ∧
    ((2 ≤ sc → unplaceable u u.cur = none) → closesPending u u.cur = true ∨ openBundle u u.cur ≠ none →
      exec i s = .next (u.setMe u.me.heldBack)) ∧
    (∀ x, 2 ≤ sc → unplaceable u u.cur = some x → exec i s = .next (takeTrap
      (if closesPending u u.cur || (openBundle u u.cur).isSome then u else placePart u u.cur) s.cur .fabricUnreachable x))) ∧
  (∀ i, (i = .pclose f ∨ i = .phase f) → Ready s a i → guardOn a i = true → a.hold = .placing →
    let v := s.setMe { a with hold := .none }
    (closesPending s s.cur = false → GoesOn i s a (if i = .phase f then openPhase v v.cur (fScope f) else v)) ∧
    (closesPending s s.cur = true → unplaceable s s.cur = none → exec i s = .next (s.setMe s.me.heldBack)) ∧
    (∀ x, closesPending s s.cur = true → unplaceable s s.cur = some x → Traps i s .fabricUnreachable x)) ∧
  (Ready s a (.popen f) → guardOn a (.popen f) = true → GoesOn (.popen f) s a (openPhase (drainAll s s.cur) s.cur (fScope f))) ∧
  (Ready s a (.fence f) → guardOn a (.fence f) = true →
    let v := drainAll s s.cur
    (unperformed v v.cur = false → GoesOn (.fence f) s a v) ∧ (unperformed v v.cur = true → exec (.fence f) s = .next (v.setMe v.me.heldBack))) ∧
  (∀ i, (i = .pclose f ∨ i = .phase f ∨ i = .wake f ∨ i = .popen f ∨ i = .fence f) → Ready s a i → guardOn a i = false → GoesOn i s a s)

/-- R224, R226, R229, R250: what a close and an open do. A close at `.t` leaves the agent's stores its own, for its next
close; a wider one takes all its unclosed stores; an open ends the stability of what was read; a close at `.g` that nothing
holds back puts its bytes where its grove sees them, where nothing else is closed: what is would go home first, the model's choice (log entry
72). -/
def Obligations.CloseEffects : Prop := ∀ (s : State) (k sc : Nat) (w : Option (Nat × Nat)) (a : Agent), Tab.find s.agents k = some a →
  issueClose s k 0 w = s.setAgent k { a with stores := [], kept := overlay a.kept a.stores, keptSeq := a.sideSeq } ∧
  (sc ≠ 0 → ∃ b, Tab.find (issueClose s k sc w).agents k = some b ∧ b.stores = [] ∧ b.kept = [] ∧ b.storeAt = [] ∧
    b.scratchOpen = [] ∧ b.closes = a.closes ++ [⟨sc, overlay a.kept a.stores, w, openBundle s k, a.sideSeq, false⟩]) ∧
  (∃ b, Tab.find (openPhase s k sc).agents k = some b ∧ b.seen = [] ∧ b.seenVer = [] ∧ b.stores = a.stores ∧ b.kept = a.kept) ∧
  (∀ c, a.closes = [c] → c.scope = 1 → c.wake = none → closeFree s k c = true → forkedViews s k = false →
    dieStopped s a.die = false → s.orphans = [] → (∀ j x, j ≠ k → Tab.find s.agents j = some x → ∀ y ∈ x.closes, y.bytes = []) →
    (∀ g x, Tab.find s.groves g = some x → x.staging = [] ∧ x.poison = []) → c.begun = false →
    ∃ t b, exec (.closeCompletion k) s = .next t ∧ Tab.find t.agents k = some b ∧ b.closes = [] ∧ t.mem = s.mem ∧
      ∀ loc, sharedByte t a.grove loc = ((c.bytes.filter (fun e => e.1 == loc)).getLast?.map (·.2)).or (sharedByte s a.grove loc))

/-- R237 to R239, R244, R251, R252: BCLOSE of at most 4,096 lines forms a bundle of the agent's unclosed stores, and goes on
with its identity once its versions are placed, or the bundle is withdrawn, until when it stays; more lines trap with `BUNDLE_LIMIT`, and
bytes beside the bundle that cannot be placed with `FABRIC_UNREACHABLE`; BQUERY of a bundle of this device starts with its state or
name. -/
def Obligations.BundleResults : Prop := ∀ (s : State) (a : Agent) (f : FArgs),
  let u := beginClose s
  (Ready s a (.bclose f) → guardOn a (.bclose f) = true → (∀ id, a.hold ≠ .bundle id) →
    (4096 < bundleLines s a → Traps (.bclose f) s .bundleLimit 0) ∧
    (∀ x, bundleLines s a ≤ 4096 → unplaceableBeside u u.cur = some x →
      let waits := closesPending u u.cur || (openBundle u u.cur).isSome || !(sideEntries u u.cur).isEmpty
      exec (.bclose f) s = .next (takeTrap (if waits then u else placeBeside u u.cur) s.cur .fabricUnreachable x)) ∧
    (bundleLines s a ≤ 4096 → unplaceableBeside u u.cur = none →
      (closesPending u u.cur = true ∨ openBundle u u.cur ≠ none ∨ sideEntries u u.cur ≠ [] →
        exec (.bclose f) s = .next (u.setMe u.me.heldBack)) ∧
      (∀ b, closesPending u u.cur = false → openBundle u u.cur = none → sideEntries u u.cur = [] →
        let r := formBundle u (fScope f) (regGet a f.a.toNat 0)
        let v := r.1.setMe { r.1.me with hold := .bundle r.2 }
        Tab.find r.1.bundles r.2 = some b →
        (b.state ≠ .pending → GoesOn (.bclose f) s a (r.1.setMe (wrN { r.1.me with hold := .none } f.d.toNat 2 (fun _ => some b.ident)))) ∧
        (b.state = .pending → r.1.me.counted = false → Stays (.bclose f) s v)))) ∧
  (∀ id b, Ready s a (.bclose f) → guardOn a (.bclose f) = true → a.hold = .bundle id →
    let t := placeVersions s id
    let v := t.setMe { t.me with hold := .bundle id }
    Tab.find t.bundles id = some b →
    (b.state ≠ .pending → GoesOn (.bclose f) s a (t.setMe (wrN { t.me with hold := .none } f.d.toNat 2 (fun _ => some b.ident)))) ∧
    (b.state = .pending → t.me.counted = true → exec (.bclose f) s = .next (v.setMe v.me.heldBack))) ∧
  (Ready s a (.bclose f) → guardOn a (.bclose f) = false → GoesOn (.bclose f) s a s) ∧
  (Ready s a (.bquery f) → tokenFree s a = true → guardOn a (.bquery f) = true →
    let v := republish s s.cur
    let ident := rdN a f.a.toNat 2 0 % 2 ^ 48
    ident / 2 ^ 37 = v.device → LongFrom (.bquery f) s a v f.d 1 (fun _ => (bundleAnswer v (mb f.mod 0) ident, 0)))

/-- R231, R246 to R248, R254: BAR.INIT and BAR.ARV on an object at its local home release first, then make one access to the
object's 64 bytes as they stand there; the arrival is recorded with the generation it read. BAR.INIT with a count of 0 or
above 128, and an arrival with an index above 127 or at an object whose EXPECT is 0 or above 128, trap with `RESERVED_FIELD`;
BAR.SYNC arrives and then waits. R22, R248, R254: a wait at a barrier object of this device goes on, with an open, where the
agent has no arrival there or its generation is over, and otherwise puts the agent in BARRIER, which a completion notice ends
once the generation is over. The model's choice: the notice as an event that asks again for objects of other devices (log entries 31, 69),
and a close that stays performed where the access after it traps (log entry 75). A misaligned object address traps with `MISALIGNED`, and an instruction whose guard is false has
no effect. -/
def Obligations.BarrierResults : Prop :=
  (∀ (s w : State) (a : Agent) (f : FArgs) (loc : Nat),
    let addr := rdN a f.a.toNat 2 0
    objectLoc s a addr = .ok loc → a.hold = .none → Releases s w (fScope f) → homeOf loc = w.device →
    (∀ op, let x := flushLine (resolveReads w (w.agent w.cur) [loc]) w.cur loc
      let r := objectAct w w.cur w.me.asid loc op
      lineBad x (portOfAgent x w.cur) (lineOf (loc % 2 ^ 40)) = false → mismatched x loc 64 = none →
      racedBytes x w.cur loc 64 = [] →
      r.err = none ∧ r.old = (List.range 64).map (fun i => homeByte x (loc + i)) ∧
      ∀ o, x.held = [] → Memory.wf x.mem = true → op.new r.old = some o → o.length = 64 →
        ∀ i, i < 64 → homeByte r.s (loc + i) = o.getD i 0) ∧
    (Ready s a (.barInit f) → guardOn a (.barInit f) = true →
      let r := objectAct w w.cur w.me.asid loc (.init (rd1 a f.b 0))
      (0 < rd1 a f.b 0 → rd1 a f.b 0 ≤ 128 → r.err = none → GoesOn (.barInit f) s a (afterObject r)) ∧
      (rd1 a f.b 0 = 0 ∨ 128 < rd1 a f.b 0 → Traps (.barInit f) s .reservedField 0)) ∧
    (∀ i, (i = .barArv f ∨ i = .barSync f ∧ a.syncWait = false) → Ready s a i → guardOn a i = true →
      let r := objectAct w w.cur w.me.asid loc (.arrive (arrivalIndex a f))
      let v := afterObject r
      let t := v.setMe { v.me with arrivals := (recordArrival v v.me addr (sliceN r.old 8 4)).getD v.me.arrivals }
      let t' := t.setMe { t.me with syncWait := true }
      (128 ≤ arrivalIndex a f → Traps i s .reservedField 0) ∧
      (arrivalIndex a f < 128 → recordArrival s a addr 0 ≠ none → r.err = none →
        (expectBad r.old = true → exec i s = .next (takeTrap v s.cur .reservedField addr)) ∧
        (expectBad r.old = false → i = .barArv f → GoesOn i s a t) ∧
        (expectBad r.old = false → i = .barSync f → objectLoc t' t'.me addr = .ok loc → homeOf loc = t'.device →
          BarEnds i s t' a (fScope f) addr loc)))) ∧
  (∀ (s : State) (a : Agent) (f : FArgs) (loc : Nat),
    let addr := rdN a f.a.toNat 2 0
    (∀ i, (i = .barWait f ∨ i = .barSync f ∧ a.syncWait = true) → Ready s a i → guardOn a i = true →
      objectLoc s a addr = .ok loc → homeOf loc = s.device → BarEnds i s s a (fScope f) addr loc) ∧
    (∀ i, (i = .barInit f ∨ i = .barArv f ∨ i = .barWait f ∨ i = .barSync f) → Ready s a i →
      (guardOn a i = true → addr % 64 ≠ 0 → Traps i s .misaligned addr) ∧ (guardOn a i = false → GoesOn i s a s)) ∧
    (∀ k b e g, s.agent k = b → b.hold = .barrier addr → b.state = .barrier → b.arrivals.find? (fun e => e.1 == addr) = some e →
      genAt s b addr = some g → dieStopped s b.die = false →
      (g ≠ e.2 → exec (.barrierCompletionNotice k) s = .next (s.setAgent k { b with state := .ready, hold := .none })) ∧
      (g = e.2 → exec (.barrierCompletionNotice k) s = .next (pollObjects s k))))

/-- R247: an arrival with an index that has not arrived raises ARRIVED and sets the index's bit; the arrival that makes
ARRIVED equal to EXPECT clears both and raises the generation; a second arrival of an index in one generation changes none of
them. -/
def Obligations.ArrivalRule : Prop := ∀ (o : List Byte) (k : Nat), o.length = 64 → k < 128 → sliceN o 4 4 < sliceN o 0 4 → sliceN o 0 4 ≤ 128 →
  let p := arriveObject o k
  p.length = 64 ∧ sliceN p 0 4 = sliceN o 0 4 ∧ sliceN p 32 32 = sliceN o 32 32 ∧
  (bitN (sliceN o 16 16) k = false → sliceN o 4 4 + 1 < sliceN o 0 4 →
    sliceN p 4 4 = sliceN o 4 4 + 1 ∧ sliceN p 8 4 = sliceN o 8 4 ∧ sliceN p 16 16 = sliceN o 16 16 + 2 ^ k) ∧
  (bitN (sliceN o 16 16) k = false → sliceN o 4 4 + 1 = sliceN o 0 4 →
    sliceN p 4 4 = 0 ∧ sliceN p 8 4 = (sliceN o 8 4 + 1) % 2 ^ 32 ∧ sliceN p 16 16 = 0) ∧
  (bitN (sliceN o 16 16) k = true → sliceN p 4 4 = sliceN o 4 4 ∧ sliceN p 8 4 = sliceN o 8 4 ∧ sliceN p 16 16 = sliceN o 16 16)

/-! ### Accumulators and macro-operations -/

/-- R144, R148, R171 to R174: the accumulator accesses of a team whose core's array is bound for its workgroup, on a tile that
is free: reads start with the tile's words, or the row's reductions, outstanding; writes and scalings take effect at once.
R144, R148, R172: an array that is not bound for the workgroup traps with `PRIVILEGE`, a column that is no multiple of the
element count with `MISALIGNED`; an access to a taken tile waits at the array until it is performed. The model's choice: the first of
these traps with no active lane too (log entry 71), and the column is checked before any tile is looked at (log entry 48). -/
def Obligations.AccumulatorResults : Prop :=
  (∀ (s : State) (a : Agent) (f : FArgs), arrayBound s a = true →
    let c := s.core a.core
    let t := f.mod.toNat % 8
    tileBusy s a.core t = false →
    (Ready s a (.accrd f) → colBad a (.accrd f) f = false →
      ∃ e, Starts (.accrd f) s a (s.setCore a.core c) e ∧ e.dest = f.d ∧ e.lanes = lanesMask (actLanes a (.accrd f)) ∧ (∀ w ∈ e.flags, w = 0) ∧
        ∀ l k, isV f.d = true → l < a.nlanes → actsIn a (.accrd f) l = true → k < accN f →
          e.value l / 2 ^ (32 * k) % 2 ^ 32 = (c.tile t (fieldN (rd1 a f.a l) 7 7) (fieldN (rd1 a f.a l) 0 7 + k)).toNat) ∧
    (Ready s a (.accwr f) → colBad a (.accwr f) f = false →
      ∃ u, GoesOn (.accwr f) s a u ∧ u.me.sregs = a.sregs ∧ u.me.vregs = a.vregs ∧ u.me.fstat = a.fstat ∧ u.mem = s.mem ∧
        (∀ pre l post k, actLanes a (.accwr f) = pre ++ l :: post → k < accN f →
          (∀ m ∈ post, fieldN (rd1 a f.a m) 0 14 ≠ fieldN (rd1 a f.a l) 0 14) →
          (u.core a.core).tile t (fieldN (rd1 a f.a l) 7 7) (fieldN (rd1 a f.a l) 0 7 + k) = regGet a (f.b.toNat + k) l) ∧
        (∀ i j, i < 128 → j < 128 → (∀ l ∈ actLanes a (.accwr f), fieldN (rd1 a f.a l) 7 7 = i →
          j < fieldN (rd1 a f.a l) 0 7 ∨ fieldN (rd1 a f.a l) 0 7 + accN f ≤ j) → (u.core a.core).tile t i j = c.tile t i j)) ∧
    (Ready s a (.rowst f) →
      ∃ e, Starts (.rowst f) s a (s.setCore a.core c) e ∧ e.dest = f.d ∧ e.lanes = lanesMask (actLanes a (.rowst f)) ∧
        ∀ l, isV f.d = true → l < a.nlanes → actsIn a (.rowst f) l = true → (e.value l, e.flags.getD l 0) =
          rowStat (f.mod.toNat / 8) c t (fieldN (rd1 a f.a l) 0 7) (fieldN (rd1 a f.a l) 8 7 + 1)) ∧
    (Ready s a (.accsc f) →
      ∃ r, r = tileEffect c ⟨s.cur, 65536, .accsc f, tileRows a (.accsc f) f, s.tileSeq⟩ ∧
        GoesOn (.accsc f) s a ((s.setCore a.core r.1).setMe { a with fstat := a.fstat ||| r.2.2 }))) ∧
  (∀ (s : State) (a : Agent) (f : FArgs),
    (∀ i, (i = .accrd f ∨ i = .accwr f ∨ i = .rowst f ∨ i = .accsc f) → Ready s a i → arrayBound s a = false → Traps i s .privilege 0) ∧
    (∀ i, (i = .accrd f ∨ i = .accwr f) → Ready s a i → arrayBound s a = true → colBad a i f = true → Traps i s .misaligned 0) ∧
    (∀ i, (i = .accwr f ∧ colBad a i f = false ∨ i = .accsc f) → Ready s a i → arrayBound s a = true →
      tileBusy s a.core (f.mod.toNat % 8) = true →
      ∃ x, GoesOn i s a { s.setCore a.core { (s.core a.core) with tileQueue := (s.core a.core).tileQueue ++ [x] } with
          tileSeq := s.tileSeq + 1 } ∧ x.op = i ∧ x.agent = s.cur ∧ x.rows = tileRows a i f) ∧
    (∀ i, (i = .accrd f ∧ colBad a i f = false ∨ i = .rowst f) → Ready s a i → arrayBound s a = true →
      tileBusy s a.core (f.mod.toNat % 8) = true →
      ∃ x e, Starts i s a { s.setCore a.core { (s.core a.core) with tileQueue := (s.core a.core).tileQueue ++ [x] } with
          tileSeq := s.tileSeq + 1 } e ∧ x.op = i ∧ x.agent = s.cur ∧ x.rows = tileRows a i f ∧ x.token = e.token ∧ e.dest = f.d) ∧
    (∀ c x xs, tileReady s c = x :: xs → dieStopped s (c / 64) = false → exec (.tileAccessPerformed c) s = .next (performTile s c x)))

/-- R154, R155, R160, R161, R165 to R167, R179: a macro-operation of a forester context with room in its queue, whose core
mask, descriptors, fields, slots and banks are good and whose codebooks and group tables can be read, takes the next ticket,
writes it to d, and stands at the end of the queue. It waits for room, and traps with `RESERVED_FIELD` or `PRIVILEGE` for its
core mask, then with `RESERVED_FIELD` for its fields, `FORMAT_SLOT` for its slots, and `BANK_MODE` at the first byte that is
not its workgroup's. That it waits for room before it checks any of these is the model's choice (log entry 13). -/
def Obligations.MacroOperationIssue : Prop := ∀ (s : State) (a : Agent) (i : Instr), Ready s a i →
  (∀ f, i = .mxZero f ∨ i = .mxScale f →
    (guardOn a i = false → GoesOn i s a s) ∧
    (guardOn a i = true → queueFull a = true → exec i s = .next (s.setMe s.me.heldBack)) ∧
    (guardOn a i = true → queueFull a = false →
      (∀ c, maskTrap a (rd1 a f.a 0 % 256) = some c → Traps i s c 0) ∧
      (maskTrap a (rd1 a f.a 0 % 256) = none → Enqueues i s a f.d (rd1 a f.a 0 % 256) false))) ∧
  (∀ l, i = .mxMma l ∨ i = .mxSmma l ∨ i = .mxQmma l ∨ i = .mxLdacc l ∨ i = .mxStacc l →
    (guardOn a i = false → GoesOn i s a s) ∧
    (guardOn a i = true → queueFull a = true → exec i s = .next (s.setMe s.me.heldBack)) ∧
    (guardOn a i = true → queueFull a = false → ∀ c, maskTrap a (xMask l) = some c → Traps i s c 0)) ∧
  (∀ l, i = .mxMma l ∨ i = .mxSmma l ∨ i = .mxQmma l → guardOn a i = true → queueFull a = false → maskTrap a (xMask l) = none →
    let ia := aImage s a.grid i (rdN a l.a.toNat 2 0)
    let ib := bImage s a.grid i (rdN a l.b.toNat 2 0)
    let bank := [ia, ib].findSome? (fun m => tileImageFault s a (xMask l) (imageTrl i m) m)
    (mmaFields i ia ib = false → Traps i s .reservedField 0) ∧
    (mmaFields i ia ib = true → mmaSlots i ia.slot ib.slot = false → Traps i s .formatSlot 0) ∧
    (∀ x, mmaFields i ia ib = true → mmaSlots i ia.slot ib.slot = true → bank = some x → Traps i s .bankMode x) ∧
    (∀ u b v c, mmaFields i ia ib = true → mmaSlots i ia.slot ib.slot = true → bank = none → BookReads s a ia.slot u b →
      BookReads u b ib.slot v c → (i = .mxQmma l → ∃ w d, TableReads (slotAddr ib.slot) (rd1 c l.e 0) (rd1 c (l.e + 1) 0) (32 * xKg l / groupLen ib.slot)
        (dRows (rdN a l.b.toNat 2 0)) 0 v c w d) →
      Enqueues i s a l.d (xMask l) false)) ∧
  (∀ l st, i = .mxLdacc l ∧ st = false ∨ i = .mxStacc l ∧ st = true → guardOn a i = true → queueFull a = false → maskTrap a (xMask l) = none →
    let m := aImage s a.grid i (rdN a l.a.toNat 2 0)
    let bank := tileImageFault s a (xMask l) (imageTrl i m) m
    (accFields l st m = false → Traps i s .reservedField 0) ∧
    (accFields l st m = true → accSlots l st m.slot = false → Traps i s .formatSlot 0) ∧
    (∀ x, accFields l st m = true → accSlots l st m.slot = true → bank = some x → Traps i s .bankMode x) ∧
    (accFields l st m = true → accSlots l st m.slot = true → bank = none → xRaw l = true → Enqueues i s a l.d (xMask l) false) ∧
    (∀ u b, accFields l st m = true → accSlots l st m.slot = true → bank = none → xRaw l = false → BookReads s a m.slot u b →
      Enqueues i s a l.d (xMask l) (st && slotRnd m.slot == 2)))

/-- R155, R156, R159: an entry is dispatched after the accesses that wait at its arrays, makes its steps on all of them, and
leaves the queue after the last, each step of operands that are not poisoned; a checked operand whose CRC does not match ends
it with `TILE_INTEGRITY` at its address. -/
def Obligations.MacroOperationSteps : Prop := ∀ (s : State) (k : Nat) (t : Word) (a : Agent) (e : MxEntry), s.agent k = a →
  findMx a t = some e → a.state ≠ .saved → dieStopped s a.die = false →
  (e.running = false → mxReady a e = true → ∃ u,
    u = (coresOf e.cmask).foldl (fun s c => drainTiles s (8 * a.grove + c)) s ∧
    exec (.mxDispatch k t) s = .next (u.setAgent k (putMx (u.agent k) { e with running := true }))) ∧
  (e.running = true → e.next < mxSteps e.op → (e.next = 0 → crcFailure s a e = none) → poisonedArrays s a e = [] →
    ∃ u, u = loosenRaced (mxEffect s a e) a e (coresOf e.cmask) ∧
    exec (.mxStep k t) s = .next (u.setAgent k (putMx (u.agent k) { e with next := e.next + 1 }))) ∧
  (∀ x, e.running = true → 0 < mxSteps e.op → e.next = 0 → crcFailure s a e = some x → ∃ b,
    b = { dropMx a t with mxErrors := a.mxErrors ++ [(t, .tileIntegrity, x)] } ∧ exec (.mxStep k t) s = .next (s.setAgent k b)) ∧
  (e.running = true → mxSteps e.op ≤ e.next → exec (.mxEntryComplete k t) s = .next (s.setAgent k (dropMx a t))) ∧
  (∀ f n, e.op = .mxZero f → (mxTiles (.mxZero f))[e.next]? = some n → ∀ c, c < 8 → bitN e.cmask c = true → ∀ i j, i < 128 → j < 128 →
    ((mxEffect s a e).core (8 * a.grove + c)).tile n i j = 0)

/-- R147, R168 to R170: waiting for, querying, cancelling and binding. The model's choice: the join of MX.WAIT is an open of the whole
phase at `.d` (log entry 40), and MX.Q's field a names an s register whatever it selects (log entry 25). -/
def Obligations.MacroOperationControl : Prop := ∀ (s : State) (a : Agent) (f : FArgs),
  let x := regGet a f.a.toNat 0
  (Ready s a (.mxWait f) → guardOn a (.mxWait f) = true → (∀ e ∈ a.mxq, upTo x e.ticket = false) →
    ((∀ e ∈ a.mxErrors, upTo x e.1 = false) → GoesOn (.mxWait f) s a (openJoin (joinMx s s.cur (fun e => upTo x e.ticket)) s.cur)) ∧
    (∀ e, a.mxErrors.find? (fun e => upTo x e.1) = some e →
      exec (.mxWait f) s = .next (takeTrap (s.setMe { a with mxErrors := a.mxErrors.filter (· != e) }) s.cur e.2.1 e.2.2))) ∧
  (Ready s a (.mxWait f) → guardOn a (.mxWait f) = true → (∃ e ∈ a.mxq, upTo x e.ticket = true) →
    exec (.mxWait f) s = .next (s.setMe s.me.heldBack)) ∧
  (Ready s a (.mxQ f) → guardOn a (.mxQ f) = true →
    GoesOn (.mxQ f) s a (s.setMe (wrN a f.d.toNat 1 (fun _ => some (mxQuery s a (f.mod.toNat % 8) (rd1 a f.a 0)))))) ∧
  (Ready s a (.mxCancel f) → guardOn a (.mxCancel f) = true →
    let out := a.mxq.filter (fun e => upTo e.ticket x)
    GoesOn (.mxCancel f) s a (s.setMe { wrN a f.d.toNat 1 (fun _ => some out.length) with
      mxq := a.mxq.filter (fun e => !upTo e.ticket x), mxDone := a.mxDone ++ a.mxq.filter (fun e => upTo e.ticket x && e.running)
      mxErrors := a.mxErrors.filter (fun e => !a.mxq.any (fun y => upTo y.ticket x && y.ticket == e.1)) })) ∧
  (Ready s a (.mxBind f) → guardOn a (.mxBind f) = true → a.mxq = [] → ∃ t, GoesOn (.mxBind f) s a t ∧
    t.me.bound = rd1 a f.a 0 % 256 - (rd1 a f.a 0 % 256 &&& otherBound s s.cur a.grove) ∧
    ∀ c, c < 8 → bitN t.me.bound c = true → bitN a.bound c = false → ∀ n i j, (t.core (8 * a.grove + c)).tile n i j = 0) ∧
  (Ready s a (.mxBind f) → guardOn a (.mxBind f) = true → a.mxq ≠ [] → exec (.mxBind f) s = .next (s.setMe s.me.heldBack)) ∧
  (∀ i, (i = .mxWait f ∨ i = .mxQ f ∨ i = .mxCancel f ∨ i = .mxBind f) → Ready s a i → guardOn a i = false → GoesOn i s a s)

/-! ### Clearings -/

/-- R255 to R259, R276, R277: a claim within the limits takes a free table entry and the highest-numbered free ways, drains,
and then gives its handle; a refused one gives 0xFFFFFFFF at once; a clearing is freed once no command to it is outstanding, and no
transfer to it is held for a fault, until when CLR.FREE stays. -/
def Obligations.ClaimResults : Prop := ∀ (s : State) (a : Agent) (f : FArgs),
  (Ready s a (.clrClaim f) → guardOn a (.clrClaim f) = true → claimRefused s a (rd1 a f.a 0) = true →
    GoesOn (.clrClaim f) s a (s.setMe (wrN a f.d.toNat 1 (fun _ => some 0xFFFFFFFF)))) ∧
  (Ready s a (.clrClaim f) → guardOn a (.clrClaim f) = true → claimRefused s a (rd1 a f.a 0) = false → ∃ i c,
    Stays (.clrClaim f) s (((s.setClearing i c).used 1).setMe { a with hold := .claimDrain i f.d }) ∧ i < 12 ∧
    (s.clearing i).ranks = 0 ∧ c.ranks = rd1 a f.a 0 ∧ c.ways = claimWays s (rd1 a f.a 0) ∧ c.asid = a.asid ∧
    c.gen = ((s.clearing i).gen + 1) % 65536 ∧ c.live = false ∧ c.freeing = false ∧ c.poison = false ∧ c.mats = [] ∧ c.unset = none) ∧
  (∀ k i d, (s.agent k).hold = .claimDrain i d → ∃ u b, u = s.setClearing i { (s.clearing i) with live := true, mats := [], unset := none } ∧
    b = wrN (s.agent k) d.toNat 1 (fun _ => some (handleOf (s.clearing i) i)) ∧
    exec (.claimDrainEnd k) s = .next (resumeAfter (u.setAgent k b) k)) ∧
  (∀ i, Ready s a (.clrFree f) → guardOn a (.clrFree f) = true → a.hold = .none → validHandle s a (rd1 a f.a 0) a.priv = some i →
    let u := s.setClearing i { (s.clearing i) with live := false, freeing := true }
    let v := u.setMe { u.me with hold := .freeing i }
    (freesNow u i = true →
      ∃ t, GoesOn (.clrFree f) s a t ∧ (t.clearing i).ranks = 0 ∧ (t.clearing i).live = false ∧ claimedRanks t ≤ claimedRanks s) ∧
    (freesNow u i = false → (a.counted = false → Stays (.clrFree f) s v) ∧
      (a.counted = true → exec (.clrFree f) s = .next (v.setMe v.me.heldBack)))) ∧
  (∀ i, Ready s a (.clrFree f) → guardOn a (.clrFree f) = true → a.hold = .freeing i →
    (freesNow s i = true → GoesOn (.clrFree f) s a (freeClearing (s.setMe { a with hold := .none }) i)) ∧
    let v := s.setMe { a with hold := .freeing i }
    (freesNow s i = false → (a.counted = false → Stays (.clrFree f) s v) ∧
      (a.counted = true → exec (.clrFree f) s = .next (v.setMe v.me.heldBack)))) ∧
  (Ready s a (.clrFree f) → guardOn a (.clrFree f) = true → a.hold = .none → validHandle s a (rd1 a f.a 0) a.priv = none →
    Traps (.clrFree f) s .privilege 0) ∧
  (∀ i, (i = .clrClaim f ∨ i = .clrFree f) → Ready s a i → guardOn a i = false → GoesOn i s a s)

/-- R275, R278 to R282, R291: a mat command with an active lane on a live clearing that is not poisoned, whose fields, entry,
mats and addresses are good, enters the queues of the slices its mats lie in, where its team and the slices have room, and
waits for room else; CLR.RDROW starts with its words outstanding, the others go on. Without an active lane it has no effect.
The traps, in their order: the handle, which a transfer that was held for a fault has shown before, the poisoned clearing, the fields or
entry, the mats, then alignment and range. Commands of different teams enter every queue in the order of issue: the model's choice (log
entry 75). -/
def Obligations.MatCommands : Prop := ∀ (s : State) (a : Agent) (i : Instr), Ready s a i →
  (∀ l p, i = .clrTload l ∧ p = .read ∨ i = .clrTstore l ∧ p = .write →
    let ls := (actLanes a i).map (fun x => (rd1 a l.a x % 65536, rdN a l.b.toNat 2 x))
    (ls = [] → GoesOn i s a s) ∧
    (∀ x, ls ≠ [] → validHandle s a (rd1 a l.d 0) false = some x → (s.clearing x).poison = false →
      (transferBad l = true → Traps i s .reservedField 0) ∧
      (∀ m, transferBad l = false → matBeyond (s.clearing x) (ls.map (·.1)) = some m → Traps i s .privilege m) ∧
      (transferBad l = false → matBeyond (s.clearing x) (ls.map (·.1)) = none →
        (∀ e, ls.find? (fun e => e.2 % tElem l != 0) = some e → Traps i s .misaligned e.2) ∧
        (∀ y, ls.find? (fun e => e.2 % tElem l != 0) = none → rangeFault ls (1024 * tElem l) = some y → Traps i s .pageNotPresent y) ∧
        (∀ lanes, ls.find? (fun e => e.2 % tElem l != 0) = none → rangeFault ls (1024 * tElem l) = none →
          transferLanes s a (1024 * tElem l) p ls = .ok lanes →
          MatIssues i s (fillTlbs s a.unit a.asid (ls.map (·.2))) a (rd1 a l.d 0) (ls.map (·.1))
            (if p = .read then .load (tRow l) (tWidth l) (tElem l) lanes
              else .store (tRow l) (tWidth l) (tElem l) (mb l.mod 0) (l.imm33.getLsbD 16) lanes) (GoesOn i s a))))) ∧
  (∀ l, i = .clrCall l →
    let mats := ((actLanes a i).map (fun x => rd1 a l.a x % 65536)).dedup
    let args := ((List.range 4).map (fun k => let x := (regGet a (l.c.toNat + k) 0).toNat; [x % 65536, x / 65536])).flatten
    let entry := fieldN l.imm33.toNat 0 5
    (mats = [] → GoesOn i s a s) ∧
    (∀ x, mats ≠ [] → validHandle s a (rd1 a l.d 0) false = some x → (s.clearing x).poison = false →
      (entryValid s entry = false → Traps i s .reservedField 0) ∧
      (∀ m, entryValid s entry = true → matBeyond (s.clearing x) mats = some m → Traps i s .privilege m) ∧
      (entryValid s entry = true → matBeyond (s.clearing x) mats = none → MatIssues i s s a (rd1 a l.d 0) mats
        (.call entry (fieldN l.imm33.toNat 5 9) (fieldN l.imm33.toNat 14 9) (fieldN l.imm33.toNat 23 9) (mb l.mod 0) args mats)
        (GoesOn i s a)))) ∧
  (∀ f, i = .clrPred f →
    let ls := (actLanes a i).map (fun x => (rd1 a f.a x % 65536, fieldN (rd1 a f.a x) 16 5, regGet a f.b.toNat x))
    (ls = [] → GoesOn i s a s) ∧
    (∀ x, ls ≠ [] → validHandle s a (rd1 a f.d 0) false = some x → (s.clearing x).poison = false →
      (∀ m, matBeyond (s.clearing x) (ls.map (·.1)) = some m → Traps i s .privilege m) ∧
      (matBeyond (s.clearing x) (ls.map (·.1)) = none →
        MatIssues i s s a (rd1 a f.d 0) (ls.map (·.1)) (.pred (f.mod.toNat % 4) ls) (GoesOn i s a)))) ∧
  (∀ f, i = .clrRdrow f →
    let ls := (actLanes a i).map (fun x => (x, rd1 a f.a x))
    let mats := ls.map (fun e => e.2 % 65536)
    let starts := fun t => ∃ e, Starts i s a t e ∧ e.dest = f.d ∧ e.token = freshToken a ∧ e.lanes = lanesMask (actLanes a i) ∧ e.done = false
    (ls = [] → starts s) ∧
    (∀ x, ls ≠ [] → validHandle s a (rd1 a f.b 0) false = some x → (s.clearing x).poison = false →
      (∀ m, matBeyond (s.clearing x) mats = some m → Traps i s .privilege m) ∧
      (matBeyond (s.clearing x) mats = none → MatIssues i s s a (rd1 a f.b 0) mats (.read (freshToken a) ls) starts))) ∧
  (∀ l f h, a.hold ≠ .matFault h → (i = .clrTload l ∧ h = rd1 a l.d 0 ∨ i = .clrTstore l ∧ h = rd1 a l.d 0 ∨ i = .clrCall l ∧ h = rd1 a l.d 0 ∨
      i = .clrPred f ∧ h = rd1 a f.d 0 ∨ i = .clrRdrow f ∧ h = rd1 a f.b 0) → actLanes a i ≠ [] →
    (validHandle s a h false = none → Traps i s .privilege 0) ∧
    (∀ x, validHandle s a h false = some x → (s.clearing x).poison = true → Traps i s .clearingFault 0))

/-- R272, R283, R284: CLR.WAIT of a handle whose commands have all completed reports the earliest status not reported yet, and
else gives it, joins and forgets the commands; CLR.Q; and CLR.CSLOAD: of a good image with no live clearing it waits for its
load to end, which replaces the control store if the signature holds; with a live clearing it gives 3. The model's choice: what CLR.Q
counts down to does not go below 0 (log entry 50), the join of CLR.WAIT is an open of the whole phase at `.d` (log entry 40), and a
clearing is live from its handle to its CLR.FREE (log entry 75). -/
def Obligations.ClearingControl : Prop := ∀ (s : State) (a : Agent) (f : FArgs),
  (∀ i, Ready s a (.clrWait f) → guardOn a (.clrWait f) = true → validHandle s a (rd1 a f.a 0) false = some i →
    let cs := coveredCmds s s.cur (rd1 a f.a 0)
    ((∃ e ∈ cs, e.2.slices ≠ []) → exec (.clrWait f) s = .next (s.setMe s.me.heldBack)) ∧
    ((∀ e ∈ cs, e.2.slices = []) →
      (∀ e, firstStatus (cs.filter (fun e => !e.2.reported)) = some e → ∃ u, u = { s with matCmds := s.matCmds.map (fun y =>
          if cs.any (fun x => x.1 == y.1) then (y.1, { y.2 with reported := true }) else y) } ∧
        exec (.clrWait f) s = .next (takeTrap u s.cur (causeOfCode e.2.status) e.2.addr)) ∧
      (firstStatus (cs.filter (fun e => !e.2.reported)) = none →
        let u := joinMats s cs
        let v : State := { u with matCmds := u.matCmds.filter (fun e => !(e.2.agent == u.cur && e.2.handle.toNat == rd1 a f.a 0)) }
        GoesOn (.clrWait f) s a (openJoin (v.setMe (wrN v.me f.d.toNat 1
          (fun _ => some (((firstStatus cs).map (fun e => e.2.status)).getD 0)))) v.cur)))) ∧
  (Ready s a (.clrWait f) → guardOn a (.clrWait f) = true → validHandle s a (rd1 a f.a 0) false = none → Traps (.clrWait f) s .privilege 0) ∧
  (∀ i, (i = .clrWait f ∨ i = .clrQ f ∨ i = .clrCsload f) → Ready s a i → guardOn a i = false → GoesOn i s a s) ∧
  (Ready s a (.clrQ f) → guardOn a (.clrQ f) = true →
    let put := fun v => GoesOn (.clrQ f) s a (s.setMe (wrN a f.d.toNat 1 (fun _ => some v)))
    (f.mod.toNat % 8 = 3 → put (min s.clrLimit 12 - claimedRanks s)) ∧
    (f.mod.toNat % 8 = 4 → put (quotaOf s a.asid - asidRanks s a.asid)) ∧ (f.mod.toNat % 8 = 5 → put (loadedVersion s)) ∧
    (∀ i, validHandle s a (rd1 a f.a 0) false = some i →
      (f.mod.toNat % 8 = 0 → put ((coveredCmds s s.cur (rd1 a f.a 0)).filter (fun e => !e.2.slices.isEmpty)).length) ∧
      (f.mod.toNat % 8 = 1 → put (s.clearing i).ranks) ∧ (f.mod.toNat % 8 = 2 → put (b2n (s.clearing i).poison))) ∧
    (validHandle s a (rd1 a f.a 0) false = none → f.mod.toNat % 8 < 3 → Traps (.clrQ f) s .privilege 0)) ∧
  (∀ img u b rest v c, let va := rdN a f.a.toNat 2 0
    Ready s a (.clrCsload f) → guardOn a (.clrCsload f) = true → va % 64 = 0 → ReadsNow s a (readAtIssue s a va 144) img u b →
    let gives := fun x => GoesOn (.clrCsload f) s a (u.setMe (wrN b f.d.toNat 1 (fun _ => some x)))
    ((∃ e ∈ s.clearings, e.2.live = true) → gives 3) ∧
    ((∀ e ∈ s.clearings, e.2.live = false) → imageMalformed img = true → gives 2) ∧
    ((∀ e ∈ s.clearings, e.2.live = false) → imageMalformed img = false →
      ReadsNow u b (readAtIssue u b (va + 144) (16 * imageWords img + 64)) rest v c →
      Stays (.clrCsload f) s (v.setMe { c with hold := .controlStore (img ++ rest) f.d }))) ∧
  (∀ k ok img d, (s.agent k).hold = .controlStore img d → ∃ u b, u = (if ok then loadImage s img else s) ∧
    b = wrN (s.agent k) d.toNat 1 (fun _ => some (b2n (!ok))) ∧ exec (.controlStoreLoadEnd k ok) s = .next (resumeAfter (u.setAgent k b) k))

/-- R286, R289: the sequencer of a slice runs the command at the head of its queue in all its mats of the slice and takes it
out; one that hangs stays until the watchdog abandons it, poisons its clearing, leaves the rows of its mats indeterminate and
enters the event. -/
def Obligations.SequencerResults : Prop := ∀ (s : State) (slice id : Nat) (c : MatCmd), headCmd s slice = some (id, c) → jobAway s c slice = none →
  (jobHangs s (c.handle.toNat % 16) slice c = false → jobLogged s c slice = false → exec (.sequencerCommand slice) s =
    .next (endInSlice (matJob (resolveJob s c slice) (c.handle.toNat % 16) id slice c) id slice)) ∧
  (jobHangs s (c.handle.toNat % 16) slice c = true → exec (.sequencerCommand slice) s = .next s ∧
    ∃ t, exec (.clearingWatchdogTrip slice) s = .next t ∧ (t.clearing (c.handle.toNat % 16)).poison = true ∧
      (t.clearing (c.handle.toNat % 16)).mats = [] ∧ (t.clearing (c.handle.toNat % 16)).unset.isSome = true ∧
      ∃ e, t.growth.getLast? = some e ∧ e.code = 0x40)

/-! ### The system block -/

/-- R330, R353, R85: RDSYS starts with the register's value outstanding, once no instruction that may still set flags precedes
a read of FSTAT, and a read of REFTIME is remembered; WRSYS goes on with the register written; either, with a false guard, has
no effect. That any register's value is the one at issue is the model's choice (log entry 61). -/
def Obligations.SystemRegisterAccess : Prop := ∀ (s : State) (a : Agent) (f : FArgs) (r : SysReg), SysReg.ofNum f.b.toNat = some r →
  (Ready s a (.rdsys f) → guardOn a (.rdsys f) = true → (mb f.mod 0 = true → r ≠ .routePair → rd1 a f.a 0 ≤ 511) →
    (r = .fstat → flagsDue s a = false) →
    LongFrom (.rdsys f) s a (if r = .reftime then s.setMe { a with lastRef := refSeen s a } else s) f.d (if mb f.mod 1 then 2 else 1)
      (fun _ => (sysRead s a (mb f.mod 0) (rd1 a f.a 0) r, 0))) ∧
  (Ready s a (.rdsys f) → guardOn a (.rdsys f) = true → mb f.mod 0 = true → r ≠ .routePair → 511 < rd1 a f.a 0 →
    Traps (.rdsys f) s .reservedField 0) ∧
  (Ready s a (.rdsys f) → guardOn a (.rdsys f) = false → LongFrom (.rdsys f) s a s f.d (if mb f.mod 1 then 2 else 1) (fun _ => (0, 0))) ∧
  (∀ v t, Ready s a (.wrsys f) → guardOn a (.wrsys f) = true →
    v = (if mb f.mod 1 then rdN a f.a.toNat 2 0
      else if r.is64 then sysRead s a false 0 r / 2 ^ 32 * 2 ^ 32 + rd1 a f.a 0 else rd1 a f.a 0) →
    t = sysWrite s (mb f.mod 0) (rd1 a f.d 0) v r →
    ((Tab.find t.agents s.cur).isSome = true → GoesOn (.wrsys f) s a t) ∧
    (Tab.find t.agents s.cur = none → exec (.wrsys f) s = .next t.marked)) ∧
  (Ready s a (.wrsys f) → guardOn a (.wrsys f) = false → GoesOn (.wrsys f) s a s)

/-- R7, R85, R134, R257, R328: what each writable register reads after a write of it, and that a write of any other register
leaves the agent as it is. The model's choice (log entry 59): TRAPCAUSE keeps 8 bits of a write, and QNFN 16. -/
def Obligations.SystemRegisterValues : Prop := ∀ (s : State) (a : Agent) (v : Nat),
  sysRead s (agentWrite a v .fstat) false 0 .fstat = v % 2 ^ 6 ∧ sysRead s (agentWrite a v .qmax) false 0 .qmax = v % 2 ^ 32 ∧
  sysRead s (agentWrite a v .qsatn) false 0 .qsatn = v % 2 ^ 32 ∧ sysRead s (agentWrite a v .qnfn) false 0 .qnfn = v % 2 ^ 16 ∧
  sysRead s (agentWrite a v .qctr) false 0 .qctr = v % 2 ^ 32 ∧ sysRead s (agentWrite a v .trapcause) false 0 .trapcause = v % 2 ^ 8 ∧
  sysRead s (agentWrite a v .trappc) false 0 .trappc = v % 2 ^ 64 ∧ sysRead s (agentWrite a v .trapaddr) false 0 .trapaddr = v % 2 ^ 64 ∧
  sysRead s (agentWrite a v .tstate) false 0 .tstate = v % 2 ^ 2 ∧ sysRead s (agentWrite a v .kscr0) false 0 .kscr0 = v % 2 ^ 32 ∧
  sysRead s (agentWrite a v .kscr1) false 0 .kscr1 = v % 2 ^ 32 ∧ sysRead s (agentWrite a v .kscr2) false 0 .kscr2 = v % 2 ^ 32 ∧
  sysRead s (agentWrite a v .kscr3) false 0 .kscr3 = v % 2 ^ 32 ∧
  sysRead (sysWrite s false 0 v .clrLimit) a false 0 .clrLimit = min 12 (v % 16) ∧
  sysRead (sysWrite s false 0 v .clrAsq) a false 0 .clrAsq = 65536 * (v / 65536 % 8192) + min 12 (v % 16) ∧
  sysRead (sysWrite s false 0 v .asidtab) a false 0 .asidtab = v % 2 ^ 64 ∧
  (∀ r, r ∉ [SysReg.fstat, .qmax, .qsatn, .qnfn, .qctr, .trapcause, .trappc, .trapaddr, .tstate, .kscr0, .kscr1, .kscr2, .kscr3] →
    agentWrite a v r = a) ∧ exec (.clrAsqWrite (BitVec.ofNat 32 v)) s = .next (sysWrite s false 0 (v % 2 ^ 32) .clrAsq)

/-- R331, R332: TRAP and BRK trap with `SOFTWARE_TRAP` and `BREAKPOINT`, TRAPADDR zero, when their guard holds, and have no effect
otherwise; bit [1] of TRAP must be 1, bit [1] and b of BRK zero, and the guard of both a bit of an s register. ERET of a privileged
team goes on at TRAPPC with PPRIV as its level when its guard holds, and has no effect otherwise; it traps with `MISALIGNED` where
TRAPPC is no multiple of 8, with `RESERVED_FIELD` where d, a or b is not zero, and with `PRIVILEGE` at user level. -/
def Obligations.SoftwareTraps : Prop := ∀ (s : State) (a : Agent) (f : FArgs),
  (Ready s a (.trap f) → guardOn a (.trap f) = true → Traps (.trap f) s .softwareTrap 0) ∧
  (Ready s a (.brk f) → guardOn a (.brk f) = true → Traps (.brk f) s .breakpoint 0) ∧
  (Ready s a (.trap f) → guardOn a (.trap f) = false → GoesOn (.trap f) s a s) ∧
  (Ready s a (.brk f) → guardOn a (.brk f) = false → GoesOn (.brk f) s a s) ∧
  (∀ i, (i = .trap f ∧ (f.imm = false ∨ f.g.reg.toNat < 192) ∨ i = .brk f ∧ (f.imm = true ∨ f.b ≠ 0 ∨ f.g.reg.toNat < 192)) →
    Tab.find s.agents s.cur = some a → notYet s a i = none → dueError a = none → a.kind = .team → Traps i s .reservedField 0) ∧
  (Ready s a (.eret f) → guardOn a (.eret f) = true → a.trapPc.toNat % 8 = 0 →
    ∃ b, GoesTo (.eret f) s (s.setMe b) a.trapPc ∧ b.priv = a.ppriv ∧ b.ppriv = a.ppriv ∧ b.sregs = a.sregs ∧ b.vregs = a.vregs ∧
      b.mask = a.mask ∧ b.fstat = a.fstat ∧ b.trapPc = a.trapPc ∧ b.trapCause = a.trapCause ∧ b.trapAddr = a.trapAddr) ∧
  (Ready s a (.eret f) → guardOn a (.eret f) = false → GoesOn (.eret f) s a s) ∧
  (Ready s a (.eret f) → guardOn a (.eret f) = true → a.trapPc.toNat % 8 ≠ 0 → Traps (.eret f) s .misaligned a.trapPc.toNat) ∧
  (Tab.find s.agents s.cur = some a → notYet s a (.eret f) = none → dueError a = none → a.kind = .team →
    (a.priv = false → Traps (.eret f) s .privilege 0) ∧
    (a.priv = true → ¬ (f.d = 0 ∧ f.a = 0 ∧ f.b = 0) → Traps (.eret f) s .reservedField 0))

/-- R328, R330: what an instruction at user level may not change. From every state, whatever it is, in every agent there is before and
after it, the level, the trap registers and the kernel scratch are what they were, unless it is the issuing agent and it has taken a
trap, which saves the user level and this instruction's address; ASIDTAB is what it was. -/
def Obligations.UserLevelKeeps : Prop := ∀ (s t : State) (a : Agent) (i : Instr), Tab.find s.agents s.cur = some a → a.priv = false →
  shapeOf i ≠ .event → exec i s = .next t →
  t.asidtab = s.asidtab ∧ ∀ j b c, Tab.find s.agents j = some b → Tab.find t.agents j = some c →
    c.kscr0 = b.kscr0 ∧ c.kscr1 = b.kscr1 ∧ c.kscr2 = b.kscr2 ∧ c.kscr3 = b.kscr3 ∧
    (c.priv = b.priv ∧ c.ppriv = b.ppriv ∧ c.trapPc = b.trapPc ∧ c.trapCause = b.trapCause ∧ c.trapAddr = b.trapAddr ∨
      j = s.cur ∧ c.priv = true ∧ c.ppriv = false ∧ c.trapPc = a.pc)

/-- R317 to R319: TLBI asks all 641 units and keeps its team; a unit that is not stopped and has no access outstanding
acknowledges with what was to be removed gone, and with the last one the team goes on after its TLBI. R22, R333: SLEEP puts
its agent to sleep, for an interval or until a wake, and goes straight on where a wake is pending; the end of the interval
wakes it, and a wake of an agent that does not sleep is kept. -/
def Obligations.ShootDown : Prop :=
  (∀ (s : State),
    (∀ a f, Ready s a (.tlbi f) → guardOn a (.tlbi f) = true → s.shootdown = none → ∃ t, Stays (.tlbi f) s t ∧
      t.shootdown = some (f.mod.toNat % 4, rd1 a f.b 0 % 2 ^ 13, if f.mod.toNat % 4 = 0 then rdN a f.a.toNat 2 0 else 0, s.cur, List.range 641) ∧
      heldByEvent t.me = true ∧ t.tlbs = s.tlbs) ∧
    (∀ u mode asid va k units, s.shootdown = some (mode, asid, va, k, units) → u ∈ units →
      (unitBusy s u = false ∧ (∀ d, unitDie u = some d → (s.die d).relock = none) ∨ u < 512 ∧ (s.core u).gated = true) →
      ∃ t, exec (.tlbiAcknowledge u) s = .next t ∧ (∀ e ∈ Tab.get t.tlbs u [], removed mode asid va e = false) ∧
        (∀ j, j ≠ u → Tab.get t.tlbs j [] = Tab.get s.tlbs j []) ∧
        (units.filter (· != u) = [] → t.shootdown = none ∧ (∀ b, Tab.find s.agents k = some b → b.hold = .tlbi →
          ∃ c, Tab.find t.agents k = some c ∧ c.hold = .none ∧ c.pc = b.pc + 8)) ∧
        (units.filter (· != u) ≠ [] → t.shootdown = some (mode, asid, va, k, units.filter (· != u)) ∧ t.agents = s.agents))) ∧
  (∀ (s : State) (a : Agent) (f : FArgs),
    (Ready s a (.sleep f) → guardOn a (.sleep f) = true → a.wakePend = false → GoesOn (.sleep f) s a
      (drainAll (s.setMe { a with state := .sleep, sleepEnd := if rd1 a f.a 0 = 0 then 0 else refCopy s a.die + rd1 a f.a 0 }) s.cur)) ∧
    (Ready s a (.sleep f) → guardOn a (.sleep f) = true → a.wakePend = true →
      GoesOn (.sleep f) s a (openPhase (drainAll (s.setMe { a with wakePend := false }) s.cur) s.cur 2)) ∧
    (Ready s a (.sleep f) → guardOn a (.sleep f) = false → GoesOn (.sleep f) s a s) ∧
    (∀ k b, Tab.find s.agents k = some b → b.state = .sleep → b.sleepEnd ≠ 0 → b.sleepEnd ≤ refCopy s b.die →
      ∃ t c, exec (.sleepIntervalExpires k) s = .next t ∧ Tab.find t.agents k = some c ∧ c.state = .ready ∧ c.sleepEnd = 0 ∧ c.seen = []) ∧
    (∀ k b, Tab.find s.agents k = some b → b.state ≠ .sleep →
      ∃ c, Tab.find (wakeAgent s k).agents k = some c ∧ c.wakePend = true ∧ c.state = b.state))

/-- R338, R25: CTXSV and CTXLD of another slot of the core: no effect with a false guard; traps for a slot out of range or its
own and for a misaligned address; status 1 where the slot holds no team, CTXSV of a saved one, CTXLD of one that is not; CTXSV
of a team that stands at a boundary with nothing outstanding stores its area and leaves it SAVED, and waits for any other;
CTXLD of a saved one takes it up from an area whose first 42 bytes match, and gives status 2 otherwise. The model's choice (log entry
52): status 1 for a team that was saved before, and the wait while the target is within an instruction. -/
def Obligations.ContextResults : Prop := ∀ (s : State) (a : Agent) (f : FArgs),
  let slot := rd1 a f.b 0
  let addr := rdN a f.a.toNat 2 0
  let gives := fun (i : Instr) (t : State) (n : Nat) => GoesOn i s a (t.setMe (wrN { t.me with hold := .none } f.d.toNat 1 (fun _ => some n)))
  (∀ i, (i = .ctxsv f ∨ i = .ctxld f) → Ready s a i →
    (guardOn a i = false → GoesOn i s a s) ∧
    (guardOn a i = true → 15 < slot ∨ slot = a.slot → Traps i s .reservedField 0) ∧
    (guardOn a i = true → slot ≤ 15 → slot ≠ a.slot → addr % 256 ≠ 0 → Traps i s .misaligned addr) ∧
    (guardOn a i = true → slot ≤ 15 → slot ≠ a.slot → addr % 256 = 0 →
      (teamAt s a.core slot = none ∨ (∃ k, teamAt s a.core slot = some k ∧
        (i = .ctxsv f ∧ (s.agent k).state = .saved ∨ i = .ctxld f ∧ (s.agent k).state ≠ .saved)) → gives i s 1))) ∧
  (slot ≤ 15 → slot ≠ a.slot → addr % 256 = 0 →
    (∀ k z t bytes, Ready s a (.ctxsv f) → guardOn a (.ctxsv f) = true → teamAt s a.core slot = some k → (s.agent k).state ≠ .saved →
      z = writeDone s k → t = { z.agent k with state := .saved, savedFrom := (s.agent k).state, inPlace := true } → bytes = teamArea z k t [] →
      (mayCtxsv (s.agent k) = false → exec (.ctxsv f) s = .next (s.setMe ({ a with hold := .saveOther slot } : Agent).heldBack)) ∧
      (∀ x m, mayCtxsv (s.agent k) = true → xlateRange z a.unit a.asid addr bytes.length .write (!a.priv) = .error (x, m) →
        Traps (.ctxsv f) s m.cause x) ∧
      (∀ locs v w, mayCtxsv (s.agent k) = true → xlateRange z a.unit a.asid addr bytes.length .write (!a.priv) = .ok locs →
        v = drainPosted z z.cur (redTouches locs) →
        v.posted.any (fun e => e.2.agent == v.cur && redTouches (locs.filter (fun x => reachable v (homeOf x))) e.2.job) = false →
        w = performStore v v.me ((locs.zip bytes).zipIdx.map (fun e => (addr + e.2, e.1.1, e.1.2))) →
        gives (.ctxsv f) (w.setAgent k { t with area := bytes.take 0x5800 }) 0)) ∧
    (∀ k v c u b, Ready s a (.ctxld f) → guardOn a (.ctxld f) = true → teamAt s a.core slot = some k → (s.agent k).state = .saved →
      ReadsNow s a (readAtIssue s a addr (areaSize (s.agent k))) b v c → u = v.setMe c →
      (b.take 42 = (s.agent k).area.take 42 → gives (.ctxld f) (reloadTeam u c k (s.agent k) b) 0) ∧
      (b.take 42 ≠ (s.agent k).area.take 42 → gives (.ctxld f) u 2)))

/-! ### Machine events -/

/-- R320 to R325: answers to a posted fault record free its position. For an agent in FAULT-HOLD, RETRY lets it issue its instruction
again, REJECT makes it take the record's cause, ABORT ends its grid; of a page of the side log, REJECT discards its entries and ABORT ends
the grid; a copy's RETRY lets it go on, its other answers end its command or grid; a queue's RETRY lets it go on, its other answers stop
it; of an INFO record there is nothing more. A write of FAULTRESP is the answer that its RESP names, 3 none; an answer to no record
changes nothing. Pages are taken as they are mapped now: the model's choice (log entry 41). -/
def Obligations.FaultAnswers : Prop := ∀ (s : State) (asid n : Nat),
  (recordAt s asid n = none →
    exec (.faultrespRetry asid n) s = .next s ∧ exec (.faultrespReject asid n) s = .next s ∧ exec (.faultrespAbort asid n) s = .next s) ∧
  (∀ r k b, recordAt s asid n = some r → r.whom = .hold k → Tab.find s.agents k = some b → ∃ u,
    u = { s with faults := s.faults.erase r } ∧ exec (.faultrespRetry asid n) s = .next (u.setAgent k (reissue b)) ∧
    exec (.faultrespReject asid n) s = .next (settleFrees (takeTrap (u.setAgent k (reissue b)) k r.cause r.va)) ∧
    exec (.faultrespAbort asid n) s = .next (abortGrid u b.grid)) ∧
  (∀ r u, recordAt s asid n = some r → u = { s with faults := s.faults.erase r } →
    (∀ j k va, r.whom = .side j k va → exec (.faultrespRetry asid n) s = .next u ∧
      exec (.faultrespReject asid n) s = .next (rejectSide u k r.cause va) ∧
      exec (.faultrespAbort asid n) s = .next (abortGrid u (s.agent k).grid)) ∧
    (∀ id c, r.whom = .copy id → Tab.find s.copies id = some c →
      exec (.faultrespRetry asid n) s = .next { u with copies := Tab.put s.copies id { c with suspended := false } } ∧
      (∀ v, v = (match c.cmd with
          | some q => completeCmd { u with copies := Tab.erase s.copies id } q 4
          | none => abortGrid u c.grid) →
        exec (.faultrespReject asid n) s = .next v ∧ exec (.faultrespAbort asid n) s = .next v)) ∧
    (∀ q, r.whom = .queue q → ∃ v w, exec (.faultrespRetry asid n) s = .next v ∧ v = u.setQueue q { (u.queue q) with blocked := false } ∧
      exec (.faultrespReject asid n) s = .next w ∧ exec (.faultrespAbort asid n) s = .next w ∧ (w.queue q).en = false ∧
      (∀ p, p ≠ q → w.queue p = s.queue p) ∧ w.cmds = s.cmds) ∧
    (r.whom = .info → exec (.faultrespRetry asid n) s = .next u ∧ exec (.faultrespReject asid n) s = .next u ∧
      exec (.faultrespAbort asid n) s = .next u)) ∧
  (∀ v, let w := sysWrite s false 0 v .faultresp
    (fieldN v 30 2 = 0 → exec (.faultrespRetry (fieldN v 0 13) (fieldN v 16 14)) s = .next w) ∧
    (fieldN v 30 2 = 1 → exec (.faultrespReject (fieldN v 0 13) (fieldN v 16 14)) s = .next w) ∧
    (fieldN v 30 2 = 2 → exec (.faultrespAbort (fieldN v 0 13) (fieldN v 16 14)) s = .next w) ∧ (fieldN v 30 2 = 3 → w = s)) ∧
  exec .fqovfClear s = .next { s with fqSticky := false, fqCount := 0 } ∧
  (∀ r rs, s.faults.filter (fun r => r.asid == asid && r.posted.isNone) = r :: rs → queueInForce s asid = true →
    recordAt s asid (fqIndex s asid) = none → exec (.faultRecordPost asid) s = .next (postRecord s r)) ∧
  (∀ k page es, es = (s.core (s.agent k).core).sideLog.filter (fun e => e.agent == k && onPage s (s.agent k) page e.va) → es ≠ [] →
    pageWaits s k page = false → exec (.sideLogReplay k page) s = .next (releaseSide (replayAll s k es))) ∧
  (∀ e p, Tab.find s.posted e = some p → postedReady s e p = true → (s.die (portOfAgent s p.agent)).relock = none →
    exec (.postedAccessPerformed e) s = .next (performPosted s e p))

/-- R294, R389, R391: once STAGE reads 15, a write of QCTL that sets EN of a disabled queue zeroes HEAD and TAIL, and sets EN
only where LOG2N is 4 to 16; one that leaves EN clear stops the queue; a TAIL inside the queue is taken, by every queue at
that position of a virtual function, one outside it is not; before that stage none of them has an effect. -/
def Obligations.QueueRegisters : Prop := ∀ (s : State) (q : Nat) (v : Word), q < 256 →
  (s.bootStage ≠ 15 → exec (.qctlEnable q v) s = .next s ∧ exec (.qctlDisable q v) s = .next s ∧ exec (.qtailDoorbell q v) s = .next s) ∧
  (s.bootStage = 15 →
    (∃ t, exec (.qctlEnable q v) s = .next t ∧
      ((s.queue q).en = true → t = s) ∧
      ((s.queue q).en = false → (4 ≤ fieldN v.toNat 16 5 ∧ fieldN v.toNat 16 5 ≤ 16) → (t.queue q).en = true ∧ (t.queue q).head = 0 ∧
        (t.queue q).tail = 0 ∧ (t.queue q).log2n = fieldN v.toNat 16 5 ∧ (t.queue q).prio = fieldN v.toNat 14 2 ∧
        (t.queue q).asid = fieldN v.toNat 0 13 ∧ (t.queue q).loc = v.getLsbD 30) ∧
      ((s.queue q).en = false → ¬ (4 ≤ fieldN v.toNat 16 5 ∧ fieldN v.toNat 16 5 ≤ 16) → (t.queue q).en = false) ∧
      (∀ p, p ≠ q → t.queue p = s.queue p)) ∧
    (∃ t, exec (.qctlDisable q v) s = .next t ∧ (t.queue q).en = false ∧ (∀ p, p ≠ q → t.queue p = s.queue p) ∧ t.cmds = s.cmds) ∧
    (∃ t, exec (.qtailDoorbell q v) s = .next t ∧ t.cmds = s.cmds ∧ ∀ p, p < 256 →
      (p = q ∨ ((s.queue q).func ≠ 0 ∧ (s.queue p).func = (s.queue q).func ∧ (s.queue p).vslot = (s.queue q).vslot) →
        v.toNat % 2 ^ 16 < 2 ^ (s.queue p).log2n → t.queue p = { (s.queue p) with tail := v.toNat % 2 ^ 16 }) ∧
      (p ≠ q ∧ ((s.queue q).func = 0 ∨ (s.queue p).func ≠ (s.queue q).func ∨ (s.queue p).vslot ≠ (s.queue q).vslot) ∨
        2 ^ (s.queue p).log2n ≤ v.toNat % 2 ^ 16 → t.queue p = s.queue p)))

/-- R295, R296, R300: the queue whose turn it is has its command taken up, after one of an unknown OP that it held has ended:
HEAD advances, and its class has this queue as its last; a LAUNCH has its record read at once; of an unknown OP whose earlier
commands are all complete the STATUS is 1 at once; one of any other OP, where no unknown one stands in its queue, is open and
has not begun. R296, R297, R300: commands that may begin: a launch has its record read, and one of a good record makes its
grid, or completes with STATUS 3 where its handle is live; a signal and a met wait on a semaphore at its local home complete
with STATUS 0, a copy of a range enters the copy unit; a misformed one completes with STATUS 1. The model's choice: a launch's handle is
asked for as it begins, and its producer at the take-up (log entry 54); a signal's close takes all that is closed and waits for all that is
on its way (log entry 72). -/
def Obligations.CommandResults : Prop :=
  (∀ (s u t w : State) (q : Nat) (c : Cmd) (bs : List Byte), u = endUnknown s q → nextQueue u = some q →
    readSlot u (u.queue q) = (t, .bytes bs) →
    c = { queue := q, loc := (u.queue q).loc, asid := (u.queue q).asid, prio := (u.queue q).prio, slotAddr := slotAddrOf (u.queue q), bytes := bs
          order := t.nextOrder, begun := false, done := false, deadline := 0, phase := 0, record := [], verdict := none, producer := none } →
    w = ({ t with cmds := Tab.put t.cmds t.nextOrder c, nextOrder := t.nextOrder + 1, lastQueue := Tab.put t.lastQueue (u.queue q).prio q } : State).setQueue q
      { (u.queue q) with head := ((u.queue q).head + 1) % 2 ^ (u.queue q).log2n } →
    openCmd w t.nextOrder = some c ∧
    (cmdOp c = 1 → exec (.commandTakeUp q) s = .next (readRecord w t.nextOrder c)) ∧
    (knownOp (cmdOp c) = true → cmdOp c ≠ 1 → (∀ e ∈ t.cmds, e.2.queue = q → e.2.done = true ∨ knownOp (cmdOp e.2) = true) →
      exec (.commandTakeUp q) s = .next w) ∧
    (knownOp (cmdOp c) = false → (∀ e ∈ t.cmds, e.2.queue = q → e.2.done = true) →
      exec (.commandTakeUp q) s = .next (completeCmd (beginCmd w t.nextOrder c) t.nextOrder 1))) ∧
  (∀ (s : State) (c : Nat) (x : Cmd), openCmd s c = some x →
    (cmdOp x = 1 → x.verdict = none → exec (.launchCommand c) s = .next (readRecord s c x)) ∧
    (∀ v, cmdOp x = 1 → x.verdict = some v → mayBegin s x false = true →
      (v = 0 → liveGrid (beginCmd s c x) x.asid (recHandle x.record) = none → exec (.launchCommand c) s = .next (addGrid (beginCmd s c x) c x.record x.asid
        (recHandle x.record) (sliceN x.record 13 1) (max (recPrio x.record) x.prio) none (some c) x.producer [])) ∧
      (v = 0 → (liveGrid (beginCmd s c x) x.asid (recHandle x.record)).isSome = true →
        exec (.launchCommand c) s = .next (completeCmd (beginCmd s c x) c 3)) ∧
      (v ≠ 0 → exec (.launchCommand c) s = .next (completeCmd (beginCmd s c x) c v))) ∧
    (cmdOp x = 1 → cmdClean x 16 = false ∨ sliceN x.bytes 8 8 % 256 ≠ 0 ∨ 2 ^ 50 < sliceN x.bytes 8 8 + 256 →
      readRecord s c x = s.setCmd c { x with verdict := some 1 }) ∧
    (∀ u bs, cmdOp x = 1 → cmdClean x 16 = true → sliceN x.bytes 8 8 % 256 = 0 → sliceN x.bytes 8 8 + 256 ≤ 2 ^ 50 →
      frontRead s x.asid (sliceN x.bytes 8 8) 256 = (u, .bytes bs) → readRecord s c x =
        if recordOk u bs false = true ∧ 0 < recHandle bs ∧ recHandle bs < 0x80000000 then
          u.setCmd c { x with record := bs, verdict := some 0, producer := liveProducer u x.asid bs }
        else u.setCmd c { x with verdict := some 2 }) ∧
    (∀ t, cmdOp x = 2 → mayBegin s x true = true → t = carryClosed s 0xFFFFFFFF x.asid →
      (homeward t x.asid = true → exec (.signal c) s = .next t) ∧
      (∀ u m, homeward t x.asid = false → semOk x = true → cmdClean x 32 = true → sliceN x.bytes 24 8 ≤ 1 →
        semAccess (beginCmd t c x) c x.asid (sliceN x.bytes 8 8) (1 + sliceN x.bytes 24 1) (sliceN x.bytes 16 8) 3 = .value u m →
        exec (.signal c) s = .next (completeCmd u c 0)) ∧
      (homeward t x.asid = false → cmdClean x 32 = false → exec (.signal c) s = .next (completeCmd (beginCmd t c x) c 1))) ∧
    (cmdOp x = 3 → mayBegin s x false = true → semOk x = true → cmdClean x 32 = true → sliceN x.bytes 24 8 ≤ 2 →
      exec (.waitsig c) s = .next (readSemaphore (beginCmd s c x) c x)) ∧
    (cmdOp x = 3 → x.begun = true → cmdSent s c = false → exec (.waitsigReread c) s = .next (readSemaphore s c x)) ∧
    (∀ u m, semAccess (s.setCmd c { x with begun := true, deadline := s.reftime + 10000 }) c x.asid (sliceN x.bytes 8 8) 0 0 1 = .value u m →
      readSemaphore s c x = if condHolds x m then completeCmd u c 0 else u) ∧
    (cmdOp x = 4 → mayBegin s x false = true → cmdClean x 32 = true → 0 < sliceN x.bytes 24 8 → sliceN x.bytes 24 8 ≤ 2 ^ 40 →
      sliceN x.bytes 8 8 + sliceN x.bytes 24 8 ≤ 2 ^ 50 → sliceN x.bytes 16 8 + sliceN x.bytes 24 8 ≤ 2 ^ 50 →
      ∃ t k y, exec (.copy c) s = .next t ∧ Tab.find t.copies k = some y ∧ y.cmd = some c ∧ y.cursor = 0 ∧
        y.job = .range (sliceN x.bytes 8 8) (sliceN x.bytes 16 8) (sliceN x.bytes 24 8)) ∧
    (∀ i op, (i = .waitsig c ∧ op = 3 ∨ i = .copy c ∧ op = 4) → cmdClean x 32 = false → cmdOp x = op → mayBegin s x false = true →
      exec i s = .next (completeCmd (beginCmd s c x) c 1)))

/-- R373, R379 to R383: the topology commands of the physical function: PORTDRAIN puts its port in draining, PORTTRAIN one
that is down in training, ROUTELOAD puts a well-formed image in the spare generation, ROUTESWAP makes the loaded generation
current, with its SELF, once its semaphore has reached the count; each ends at its timeout or with its status. -/
def Obligations.TopologyCommands : Prop := ∀ (s : State) (c : Nat) (x : Cmd), openCmd s c = some x →
  (∀ i op, (i = .portdrain c ∧ op = 8 ∨ i = .porttrain c ∧ op = 9 ∨ i = .routeload c ∧ op = 10 ∨ i = .routeswap c ∧ op = 11) →
    cmdOp x = op → mayBegin s x true = true → (s.queue x.queue).func ≠ 0 → exec i s = .next (completeCmd (beginCmd s c x) c 1)) ∧
  ((s.queue x.queue).func = 0 →
    (cmdOp x = 8 → mayBegin s x true = true → portCmdOk x = true → ∃ u, u = runPortCmd (beginCmd s c x) c x ∧
      exec (.portdrain c) s = .next (endDrain (u.setPort (cmdPort x) { u.port (cmdPort x) with pstate := 3 }) (cmdPort x))) ∧
    (cmdOp x = 9 → mayBegin s x true = true → portCmdOk x = true → (s.port (cmdPort x)).pstate = 0 → ∃ u,
      u = (runPortCmd (beginCmd s c x) c x).setPort (cmdPort x) (training (s.port (cmdPort x))) ∧
      exec (.porttrain c) s = .next (sendManagement u (cmdPort x) 0 s.device) ∧ (u.port (cmdPort x)).pstate = 1) ∧
    (∀ op i, (i = .portdrain c ∧ op = 8 ∨ i = .porttrain c ∧ op = 9) → cmdOp x = op → mayBegin s x true = true → portCmdOk x = false →
      exec i s = .next (completeCmd (beginCmd s c x) c 1)) ∧
    (cmdOp x = 9 → mayBegin s x true = true → portCmdOk x = true → (s.port (cmdPort x)).pstate ≠ 0 →
      exec (.porttrain c) s = .next (completeCmd (beginCmd s c x) c 18)) ∧
    (∀ t u head img, cmdOp x = 10 → mayBegin s x true = true → cmdClean x 16 = true → sliceN x.bytes 8 8 % 64 = 0 →
      sliceN x.bytes 8 8 + 64 ≤ 2 ^ 50 → frontRead (beginCmd s c x) x.asid (sliceN x.bytes 8 8) 64 = (t, .bytes head) →
      1 ≤ sliceN head 4 2 → sliceN head 4 2 ≤ 1058 → sliceN x.bytes 8 8 + imageBytes (sliceN head 4 2) ≤ 2 ^ 50 →
      frontRead t x.asid (sliceN x.bytes 8 8) (imageBytes (sliceN head 4 2)) = (u, .bytes img) →
      exec (.routeload c) s = .next (if imageOk u img then completeCmd { u with routes := setAt u.routes (spareGen u) (some img) } c 16
        else completeCmd u c 20)) ∧
    (cmdOp x = 11 → mayBegin s x true = true → semOk x = true → cmdClean x 24 = true → loadedImage s = none →
      exec (.routeswap c) s = .next (completeCmd (beginCmd s c x) c 21)) ∧
    (∀ u m, cmdOp x = 11 → mayBegin s x true = true → semOk x = true → cmdClean x 24 = true → (loadedImage s).isSome = true →
      semAccess ((beginCmd s c x).setCmd c { x with begun := true, phase := 1 }) c x.asid (sliceN x.bytes 8 8) 2 1 3 = .value u m →
      exec (.routeswap c) s = .next (readSwap u c x))) ∧
  (cmdOp x = 11 → x.phase = 2 → cmdSent s c = false → exec (.routeswapSemaphoreRead c) s = .next (readSwap s c x)) ∧
  (∀ v img, sliceN x.bytes 16 8 ≤ v → loadedImage s = some img → swapWhen s c x v = completeCmd (makeCurrent s img) c 16 ∧
    (makeCurrent s img).current = some (spareGen s) ∧ (makeCurrent s img).device = sliceN img 6 2) ∧
  (∀ v, v < sliceN x.bytes 16 8 → swapWhen s c x v = s) ∧
  ((cmdOp x = 8 ∨ cmdOp x = 9) → x.begun = true → x.deadline ≤ s.reftime → ∃ u,
    u.pstate = (if (s.port (cmdPort x)).pstate = 3 then 2 else if (s.port (cmdPort x)).pstate = 1 then 0 else (s.port (cmdPort x)).pstate) ∧
    exec (.portCommandTimeout c) s = .next (completeCmd (s.setPort (cmdPort x) u) c 17))

/-- R365, R371, R376, R377, R394, R197, R239, R241: the line operations that a home performs: the oldest of its sort whose
source, class and granule have none older, once the devices that must give up its line have answered; they are asked first; a
write by its source leaves that source no copy. R239, R242 to R244: the messages of bundles at a home, a version taken or
refused; and the steps of a bundle of this device: commit once all is placed, or withdrawal where a home cannot be reached;
settle once every home has applied it; withdrawal of a refused one after its time, and another try. The model's choices stated here: the
identity as the eight data octets of a bundle's acknowledge (log entry 43), the discard of a withdrawn bundle's versions on a
settle and what is sent home when (log entry 72), how a home recalls a line and takes the answers (log entry 29), and what a request
that is not answered in time does (log entry 68). -/
def Obligations.FabricRequests : Prop :=
  (∀ (s : State),
    (∀ (i : Instr) (p : FabOp → Bool) (act : State → FabOp → State) (o : FabOp),
      (i = .readLine ∧ p = (fun o => o.kind == 1 && o.flags / 2 == 0) ∧ act = answerLine ∨
       i = .versionFetch ∧ p = (fun o => o.kind == 1 && bitN o.flags 1) ∧ act = fetchVersion ∨
       i = .resolvingFetch ∧ p = (fun o => o.kind == 1 && !bitN o.flags 1 && bitN o.flags 2) ∧
         act = (fun t o => answerLine (resolveLine t o.asid (opLine t o)) o) ∨
       i = .writeLine ∧ p = (fun o => o.kind == 2) ∧ act = writeLineOp ∨
       i = .atomic ∧ p = (fun o => o.kind == 3) ∧ act = performAtomic ∨
       i = .bundleCommit ∧ p = (fun o => o.kind == 7 && !bitN o.flags 0) ∧ act = commitOp) →
      s.inbox.find? (fun o => p o && inOrder s o && !recalling s (o.addr / 128)) = some o →
      (mustRecall s o = false → exec i s = .next (act { s with inbox := s.inbox.erase o } o)) ∧
      (mustRecall s o = true →
        exec i s = .next (recallLine s o.asid (o.addr / 128) (if o.kind ≤ 2 ∧ o.flags < 2 then o.src else s.device)))) ∧
    (∀ o, lineBad s 16 (o.addr / 128) = true → answerLine s o = replyTo s o 0x0C []) ∧
    (∀ o, lineBad s 16 (o.addr / 128) = false → answerLine s o = replyTo (addHolder s (o.addr / 128) o.src (bitN o.flags 0)) o 0 (lineNow s (opLine s o))) ∧
    (∀ o t, takeOp s (fun o => o.kind == 4) = some (o, t) → ∃ u, exec .invalidate s = .next (replyTo u o 0
        (if bitN o.flags 0 then Tab.get s.peers ((o.src * 2 ^ 40 + o.addr) / 128) [] else [])) ∧
      u.peers = Tab.erase s.peers ((o.src * 2 ^ 40 + o.addr) / 128) ∧ u.mem = s.mem ∧ u.agents = s.agents) ∧
    (∀ o t, takeOp s (fun o => o.kind == 5) = some (o, t) →
      (∀ x, Tab.find s.sent o.tag = some x → x.answers = [] →
        (x.dest = o.src → exec .acknowledge s = .next (answer t x o)) ∧ (x.dest ≠ o.src → exec .acknowledge s = .next t)) ∧
      (∀ x left, Tab.find s.sent o.tag = some x → x.answers ≠ [] → left = x.answers.filter (fun d => d != o.src) →
        (o.src ∉ x.answers → exec .acknowledge s = .next t) ∧
        (o.src ∈ x.answers → left = [] → exec .acknowledge s = .next (answer t x o)) ∧
        (o.src ∈ x.answers → left ≠ [] → exec .acknowledge s = .next { t with sent := Tab.put s.sent o.tag { x with answers := left } })) ∧
      (Tab.find s.sent o.tag = none → exec .acknowledge s = .next t)) ∧
    (∀ tag x, Tab.find s.sent tag = some x → x.deadline ≤ s.reftime → exec (.fabricTimeout tag) s = .next (timedOut s tag x)) ∧
    (∀ k a line, Tab.find s.agents k = some a →
      (dieStopped s a.die = false → exec (.lineEviction k line) s =
        .next (flushWhere (fun x => x / 128 == line) (pushWhere s a.grove k a.asid (fun x => x / 128 == line)) k)) ∧
      (dieStopped s a.die = true → exec (.lineEviction k line) s = .next s)) ∧
    (∀ line, homeOf (128 * line) = s.device →
      (lineShared s (line % 2 ^ 33) = false → exec (.heldBytesPlaced line) s =
        .next (writeHome { s with held := s.held.filter (fun e => e.1 / 128 != line) } (s.held.filter (fun e => e.1 / 128 == line)))) ∧
      (lineShared s (line % 2 ^ 33) = true → exec (.heldBytesPlaced line) s = .next s)) ∧
    (∀ line, homeOf (128 * line) ≠ s.device → exec (.heldBytesPlaced line) s = .next (pushHeld s 0xFFFFFFFF (lineAsid s line 0) line))) ∧
  (∀ (s : State),
    (∀ m t d u, takeOp s (fun o => o.kind == 6 && bitN o.flags 0) = some (m, t) →
      takeOp t (fun o => o.kind == 6 && !bitN o.flags 0 && o.src == m.src && o.arg == m.arg && o.addr == m.addr) = some (d, u) →
      ∀ others, others = u.versions.filter (fun w => !(w.line == opLine u m && w.ident == m.arg && !w.retained)) →
      (takesVersion { u with versions := others } m.arg (opLine u m) = true → ∃ w, exec .bundlePending s = .next (replyTo w m 0 (toBytes 8 m.arg)) ∧
        w.versions = others ++ [⟨opLine u m, m.arg, pairCells u m d, sliceN m.data 24 2, BitVec.ofNat 64 (sliceN m.data 16 8), false, none⟩]) ∧
      (takesVersion { u with versions := others } m.arg (opLine u m) = false → ∃ w, exec .bundlePending s = .next (replyTo w m 0x12 (toBytes 8 m.arg)) ∧
        w.versions = u.versions ∧ (sliceOfLine (opLine u m), m.arg) ∈ w.refusals)) ∧
    (∀ o t, s.inbox.find? (fun o => o.kind == 7 && bitN o.flags 0 && inOrder s o) = some o → t = { s with inbox := s.inbox.erase o } →
      exec .bundleSettle s = .next (settleOp t o)) ∧
    (∀ id b, Tab.find s.bundles id = some b →
      (b.state = .placed → b.lines.find? (fun ln => !reachable s (homeOf (128 * ln))) = none →
        exec (.bundleCommitSend id) s = .next (commitBundle s id b)) ∧
      (∀ ln, b.state = .placed → b.lines.find? (fun ln => !reachable s (homeOf (128 * ln))) = some ln →
        exec (.bundleCommitSend id) s = .next (abandonBundle s id ln b)) ∧
      (b.state = .committed → (∀ ln ∈ b.unacked, reachable s (homeOf (128 * ln)) = true → ∃ e ∈ s.sent, e.2.why = .bundle id ln) →
        exec (.bundleCommitSend id) s = .next s) ∧
      (b.state = .committed → b.unacked = [] → (∀ ln ∈ bundleHomes s b true, recalling s (ln % 2 ^ 33) = false) → ∃ t c,
        exec (.bundleSettleSend id) s = .next t ∧ Tab.find t.bundles id = some c ∧ c.state = .settled ∧ c.ident = b.ident) ∧
      (∀ r, b.refusedAt = some r → b.state = .pending → r + 2000 ≤ s.reftime → ∃ u, exec (.bundleWithdrawal id) s = .next (placeVersions
        { u with bundles := Tab.put s.bundles id { b with refusedAt := none, unacked := bundleHomes s b false } } id) ∧
        u = discardVersions (logWithdrawal s b) id b)))

/-- R364 to R370, R381: what a port does with a frame, with a management frame, with silence, with its width and with its
wavelengths: frames of a wrong FCS or of no legal form are counted or asked for again; a management frame ends the training of
a port, which then is up, knows its neighbour and has every wavelength locked, and on one that runs sets the width, not below
FLOOR; frames unacknowledged for 4 µs are sent again; each decision on the width, and a loss that narrows it, is told to the
far end; a frame in its turn is not taken while the transit pool has no room for it, else it is acknowledged and goes where its header
says. R385 to R387: a context is bound and unbound by CCCTL, at once or when its collectives end; it takes the shards sent to it; it
ends a slot of an all-to-all once its own shards are acknowledged, and completes, refused or with all its data. The model's choices
stated here: a width held between FLOOR and what the locked wavelengths carry, and a frame refused for want of transit room (log entry
74), the state in which training leaves a port (log entry 63), and the empty frame that carries ACK and NAK (log entry 62). -/
def Obligations.LinkEvents : Prop :=
  (∀ (s : State) (p : Nat), p < 36 →
    let x := s.port p
    let m := fun (wl : Nat) => x.lmask - 2 ^ wl
    let w := fun (wl : Nat) => min x.width (widestFor (countBits (m wl) 8))
    (∀ bs, x.pstate ≠ 0 → exec (.frameReceived p bs) s = .next (receiveFrame s p bs) ∧
      (fcsOk bs = false → receiveFrame s p bs = s.setPort p { x with nakDue := true }) ∧
      (fcsOk bs = true → frameParse bs = none → receiveFrame s p bs = s.setPort p { x with drops := min 255 (x.drops + 1) }) ∧
      (∀ ops, fcsOk bs = true → frameParse bs = some ops → (readHead bs).seq ≠ x.rxSeq → receiveFrame s p bs = s.setPort p { x with nakDue := true }) ∧
      (∀ ops, fcsOk bs = true → frameParse bs = some ops → (readHead bs).seq = x.rxSeq → noTransit s (readHead bs) (frameOps bs) = true →
        receiveFrame s p bs = s) ∧
      (∀ ops u, fcsOk bs = true → frameParse bs = some ops → (readHead bs).seq = x.rxSeq → noTransit s (readHead bs) (frameOps bs) = false →
        u = takeLink (s.setPort p { x with rxSeq := (x.rxSeq + 1) % 512, ackDue := true }) p (frameLink bs) →
        receiveFrame s p bs = routeFrame (endDrain (refillPort u p) p) (readHead bs) ops (frameOps bs))) ∧
    (∀ n v u, x.pstate = 1 → u = refillPort (s.setPort p { x with pstate := 2, neigh := n % 2048, lmask := 0xFF, width := x.floor, nextWidth := none }) p →
      exec (.managementFrame p n v) s = .next ((portCmds u 9 p).foldl (fun s c => completeCmd s c (16 + 65536 * (n % 2048))) u)) ∧
    (∀ n v, 2 ≤ x.pstate → exec (.managementFrame p n v) s =
      .next (s.setPort p (setWidth s.reftime x (min (max (v % 4) x.floor) (widestFor (countBits x.lmask 8)))))) ∧
    (∀ n, x.pstate ≠ 0 → x.replay.findIdx? (fun f => decide (f.since + 4000 ≤ s.reftime)) = some n → ∃ y,
      exec (.linkReplayTimeout p) s = .next (s.setPort p y) ∧ y.replay.map (·.octets) = x.replay.map (·.octets) ∧
      y.replay.drop n = (x.replay.drop n).map (fun f => { f with since := s.reftime }) ∧ y.replay.take n = x.replay.take n ∧
      y.retries = min 0xFFFF (x.retries + (x.replay.length - n))) ∧
    (x.pstate ≠ 0 → (x.ackDue = true ∨ x.nakDue = true) → x.replay.length < 256 → ∃ y, exec (.emptyAckFrame p) s = .next (s.setPort p y) ∧
      y.ackDue = false ∧ y.nakDue = false ∧ y.txSeq = (x.txSeq + 1) % 512 ∧ y.replay.length = x.replay.length + 1 ∧ y.out = x.out) ∧
    (2 ≤ x.pstate → x.band = 2 → x.bandSince + 1000 ≤ s.reftime → x.nextWidth = none → x.width < widestFor (countBits x.lmask 8) →
      exec (.portWiden p) s =
        .next (sendManagement (s.setPort p { x with nextWidth := some (x.width + 1), widenAt := s.reftime + 1200 }) p 1 (x.width + 1))) ∧
    (2 ≤ x.pstate → x.band = 0 → x.bandSince + 20000 ≤ s.reftime → x.floor < x.width →
      exec (.portNarrow p) s = .next (sendManagement (s.setPort p { x with width := x.width - 1, nextWidth := none }) p 1 (x.width - 1))) ∧
    (∀ v, x.nextWidth = some v → x.widenAt ≤ s.reftime →
      exec (.portWidthTakesEffect p) s = .next (s.setPort p { x with width := v, nextWidth := none })) ∧
    (∀ wl cause u, wl < 8 → cause < 2 → bitN x.lmask wl = true →
      u = (logEvent s 0x20 p 0 [BitVec.ofNat 8 wl, BitVec.ofNat 8 cause]).setPort p { x with
        lmask := m wl, width := w wl, nextWidth := x.nextWidth.filter (fun v => decide (v ≤ widestFor (countBits (m wl) 8))) } →
      (2 ≤ countBits (m wl) 8 ∨ x.pstate < 2) → w wl = x.width → exec (.wavelengthLoss p wl cause) s = .next u) ∧
    (∀ wl cause, wl < 8 → cause < 2 → bitN x.lmask wl = true → exec (.wavelengthLoss p wl cause) s = .next (loseWavelength s p wl cause)) ∧
    (∀ wl n, wl < 8 → bitN x.lmask wl = false → x.neigh ≠ 0x7FF → exec (.wavelengthRelock p wl n) s =
      .next ((logEvent s 0x22 p 0 [BitVec.ofNat 8 wl, BitVec.ofNat 8 n]).setPort p { x with
        lmask := x.lmask + 2 ^ wl, relocks := min 255 (x.relocks + 1) }))) ∧
  (∀ (s : State) (c : Nat), c < 64 →
    (∀ v, let y := { s.coll c with err := (s.coll c).err && !bitN v.toNat 29 }
      ((s.coll c).en = false → exec (.ccctlEnable c v) s =
        .next (s.setColl c { y with en := true, unbind := false, runs := 0, asid := fieldN v.toNat 0 13 })) ∧
      ((s.coll c).en = true → exec (.ccctlEnable c v) s = .next (s.setColl c y)) ∧
      ((s.coll c).en = true → (s.coll c).forked = false → exec (.ccctlDisable c v) s = .next (s.setColl c { y with en := false, unbind := false })) ∧
      ((s.coll c).en = true → (s.coll c).forked = true → exec (.ccctlDisable c v) s = .next (s.setColl c { y with unbind := true })) ∧
      ((s.coll c).en = false → ∃ t, exec (.ccctlDisable c v) s = .next t ∧ (t.coll c).en = false ∧ (t.coll c).asid = fieldN v.toNat 0 13)) ∧
    (∀ o t j, takeOp s (fun o => o.kind == 8) = some (o, t) → j = shardCtx o % 64 →
      exec .collectiveShard s = .next (replyTo (t.setColl j { t.coll j with shards := (t.coll j).shards ++ [o] }) o 0 [])) ∧
    (∀ u, u = startSlot (beginForks s) c → (u.coll c).busy = true → (u.coll c).bad = false → collOp (u.coll c).fork = 1 → (u.coll c).sent = true →
      (u.coll c).slot ≤ collSlots (collRanks (u.coll c).fork) → shardsAcked u c = true → exec (.collectiveSlotEnd c) s = .next (endSlot u c)) ∧
    (∀ u, u = startSlot (beginForks s) c → (u.coll c).busy = true →
      ((u.coll c).bad = true → exec (.collectiveCompletion c) s = .next (completeColl u c) ∧ ∃ e,
        (completeColl u c).growth.getLast? = some e ∧ e.code = 0x70) ∧
      ((u.coll c).bad = false → (u.coll c).sent = true → shardsAcked u c = true →
        (collOp (u.coll c).fork = 0 → exec (.collectiveCompletion c) s = .next (finishReduce u c)) ∧
        (collOp (u.coll c).fork = 1 → (u.coll c).slot = collSlots (collRanks (u.coll c).fork) + 1 →
          exec (.collectiveCompletion c) s = .next (finishExchange u c)))))

/-- R341 to R350: each event of a pair of the interposer completes: a flit is delivered in its order, held when it comes ahead of its
turn, discarded when it has come before, or counted as failed; a colour is lost, for replays after sixteen failed ones of one flit; colour B is gated and woken;
a drain ends with the routing chosen, once nothing is unacknowledged on a colour that is left, and what has failed is marked for
resending; ROUTE_PAIR is written; a retrain starts, and ends with the colours that relocked; the
routings are then chosen again. R351 to R360, R394, R396, R157, R312: each event of the clocks, of power and temperature, and
of the memories' errors completes, with what it records: decisions on frequencies and relocks, the one an emergency left due
included; sensors, ALLOW and emergencies; the states of DRAM stacks; power classes and windows; scrubs, uncorrectable and
corrected errors. The model's choices stated here: the temperatures that an emergency leaves in the sensors, and no relock at the
frequency in force (log entry 49); the relay chosen at a drain's end (log entry 51); which errors make an entry (log entry 36). -/
def Obligations.PackageEvents : Prop :=
  (∀ (s : State) (sel : Nat), pairOf sel = true →
    let p := s.pair sel
    (∀ cls colour seq ok, cls ≤ 3 → colour ≤ 1 → p.active ≠ 4 → ∃ q, exec (.flitReceived sel ⟨cls, colour, seq⟩ ok) s = .next (s.setPair sel q) ∧
      (seq < Tab.get p.recvSeq cls 0 ∨ 4 * seq + cls ∈ p.early → q = p) ∧
      (seq = Tab.get p.recvSeq cls 0 → 4 * seq + cls ∉ p.early → ok = true → seq < Tab.get q.recvSeq cls 0 ∧
        (∀ m, seq < m → m < Tab.get q.recvSeq cls 0 → 4 * m + cls ∈ p.early) ∧
        Tab.find q.failed (4 * seq + cls) = none ∧ 4 * seq + cls ∉ q.marked) ∧
      (Tab.get p.recvSeq cls 0 < seq → 4 * seq + cls ∉ p.early → ok = true → q.recvSeq = p.recvSeq ∧ q.early = p.early ++ [4 * seq + cls] ∧
        Tab.find q.failed (4 * seq + cls) = none ∧ 4 * seq + cls ∉ q.marked) ∧
      (Tab.get p.recvSeq cls 0 ≤ seq → 4 * seq + cls ∉ p.early → ok = false →
        q.recvSeq = p.recvSeq ∧ Tab.find q.failed (4 * seq + cls) = some colour ∧
        (Tab.find p.failed (4 * seq + cls) ≠ none →
          Tab.get q.tries (2 * (4 * seq + cls) + colour) 0 = Tab.get p.tries (2 * (4 * seq + cls) + colour) 0 + 1) ∧
        (Tab.find p.failed (4 * seq + cls) = none → q.tries = p.tries)) ∧
      q.alost = p.alost ∧ q.blost = p.blost ∧ q.active = p.active) ∧
    (∀ cls colour seq ok, cls ≤ 3 → colour ≤ 1 → p.active = 4 → exec (.flitReceived sel ⟨cls, colour, seq⟩ ok) s = .next s) ∧
    (∀ colour cause, colour ≤ 1 → cause ≤ 3 → (if colour = 0 then p.alost else p.blost) = false → (cause = 3 → replaysFailed p colour = true) →
      ∃ q, exec (.colourLost sel colour cause) s = .next (reroute (logEvent (s.setPair sel q) 0x10 sel 0
          (toBytes 1 colour ++ toBytes 1 cause ++ toBytes 1 (min 255 (p.losts + 1))))) ∧
        q.alost = (p.alost || colour == 0) ∧ q.blost = (p.blost || colour == 1) ∧ q.losts = min 255 (p.losts + 1) ∧ q.active = p.active ∧
        replaysFailed q colour = false) ∧
    (s.record.gating = true → p.alost = false → p.blost = false →
      exec (.colourBGateOff sel) s = .next (s.setPair sel { p with bgated := true })) ∧
    exec (.colourBWake sel) s = .next (s.setPair sel { p with bgated := false }) ∧
    (∀ r k q, p.drained = true → p.next = some r → k = (if r = 2 then p.relayk else if r = 3 then (relayOf s sel).getD 255 else 255) →
      q = (if r = 4 then { p with active := r, next := none, failed := [], marked := [], early := [], tries := [] }
        else { p with active := r, next := none, marked := p.failed.map (fun e => e.1) }) →
      (r = p.active → exec (.pairDrainEnd sel) s = .next (reroute (s.setPair sel q))) ∧
      (r ≠ p.active → exec (.pairDrainEnd sel) s =
        .next (reroute (logEvent (s.setPair sel q) 0x11 sel 0 (toBytes 1 p.active ++ toBytes 1 r ++ toBytes 1 k))))) ∧
    (p.drained = false → exec (.pairDrainEnd sel) s = .next s) ∧
    (p.drained = true ↔ ∀ e ∈ p.failed, (if e.2 = 0 then p.alost else p.blost) = true) ∧
    (∀ v : Word, exec (.routePairWrite sel v) s = .next (reroute (s.setPair sel
      { p with relayk := fieldN v.toNat 16 5, mode := if fieldN v.toNat 8 2 ≤ 1 then fieldN v.toNat 8 2 else p.mode }))) ∧
    ((p.alost = true ∨ p.blost = true) →
      exec (.routePairRetrain sel) s = .next (s.setPair sel { p with retraining := b2n p.alost + 2 * b2n p.blost })) ∧
    (∀ m a b, p.retraining ≠ 0 → a = (p.alost && !bitN (m &&& p.retraining) 0) → b = (p.blost && !bitN (m &&& p.retraining) 1) →
      exec (.pairRetrainEnd sel m) s = .next (reroute (logEvent (s.setPair sel { p with alost := a, blost := b, retraining := 0 }) 0x12 sel 0
        (toBytes 1 (m &&& p.retraining) ++ toBytes 1 (b2n a + 2 * b2n b)))))) ∧
  (∀ (s : State),
    (∀ d, d < 8 → let x := s.die d
      (∀ f, f % 25 = 0 → 600 ≤ f → f ≤ 2200 → x.emergency = false → exec (.frequencyDecision d f) s = .next (s.setDie d { x with wanted := some f })) ∧
      (∀ f, x.wanted = some f → x.relock = none → (∀ t, x.lastRelock = some t → t + 100000 ≤ s.reftime) →
        (f ≠ x.mhz → exec (.relockStart d) s = .next (beginRelock (s.setDie d { x with wanted := none }) d f)) ∧
        (f = x.mhz → exec (.relockStart d) s = .next (s.setDie d { x with wanted := none }))) ∧
      (∀ t0 n0 r0 f1 u, x.relock = some (t0, n0, r0, f1) →
        u = s.setDie d { x with relock := none, ncyc := ncycAt s.reftime t0 n0 r0 f1, res := resAt s.reftime t0 r0 f1 x.mhz, rest := 0
                                emergencyDue := false } →
        (x.emergencyDue = false → exec (.relockEnd d) s = .next u) ∧ (x.emergencyDue = true → exec (.relockEnd d) s = .next (beginRelock u d 600))) ∧
      (x.emergency = true → ∃ t e, exec (.thermalEmergencyEnd d) s = .next t ∧ (t.die d).emergency = false ∧ (t.die d).mhz = x.mhz ∧
        (∀ j, j < 64 → (t.core (64 * d + j)).temp < 1520) ∧ t.growth.getLast? = some e ∧ e.code = 0x31 ∧ e.source = d)) ∧
    (∃ t, exec .allowUpdate s = .next t ∧
      (∀ c, c < 512 → (t.core c).allow = allowOf (t.core c).temp ∧ 32 ≤ (t.core c).allow ∧ (t.core c).allow ≤ 256) ∧
      (∀ d j, d < 8 → j < 64 → (s.die d).emergency = false → 1680 ≤ (t.core (64 * d + j)).temp → (t.die d).emergency = true) ∧
      (∀ d, d < 8 → (s.die d).emergency = true → (∀ j, j < 64 → (t.core (64 * d + j)).temp < 1520) → (t.die d).emergency = false)) ∧
    (∀ c, c < 512 → (s.die (c / 64)).emergency = false → ∃ t e, exec (.thermalEmergency c) s = .next t ∧ (t.die (c / 64)).emergency = true ∧
      1680 ≤ (t.core c).temp ∧ ((s.die (c / 64)).relock = none → (t.die (c / 64)).mhz = 600) ∧
      ((s.die (c / 64)).relock.isSome = true → (t.die (c / 64)).emergencyDue = true) ∧
      t.growth.getLast? = some e ∧ e.code = 0x30 ∧ e.source = c / 64) ∧
    (∀ k x, k < 16 → dramNext (Tab.get s.drams k 0) x ≠ Tab.get s.drams k 0 → exec (.dramStackStateChange k x) s = .next (logEvent
      { s with drams := Tab.put s.drams k (dramNext (Tab.get s.drams k 0) x), dramTemps := Tab.put s.dramTemps k x } 0x32 k 0
      (toBytes 1 (dramNext (Tab.get s.drams k 0) x) ++ [0] ++ toBytes 2 x))) ∧
    (∀ k x, k < 16 → dramNext (Tab.get s.drams k 0) x = Tab.get s.drams k 0 →
      exec (.dramStackStateChange k x) s = .next { s with dramTemps := Tab.put s.dramTemps k x }) ∧
    (exec .powerClassChange s = .next { s with pclass := ((classGrid s).map (fun x => x.2.2)).getD 0 }) ∧
    (s.budgetSince + 1000000 ≤ s.reftime → ∃ t, exec .budgetWindow s = .next t ∧ t.rails.length = 17 ∧
      t = { s with budget := s.pclass, budgetSince := s.reftime, rails := t.rails, freeCtr := t.freeCtr }) ∧
    (∀ line, exec (.patrolScrub line) s = .next s) ∧
    (∀ x, x < 2 ^ 40 → ∃ t e, exec (.uncorrectableError x) s = .next t ∧ (x / 128) ∈ t.poison ∧ (∀ ln, ln ≠ x / 128 → (ln ∈ t.poison ↔ ln ∈ s.poison)) ∧
      t.mem = s.mem ∧ t.growth.getLast? = some e ∧ e.code = 0x90 ∧ e.source = sliceOfLine (x / 128)) ∧
    (∀ k u n j, n ≠ 0 → k ≤ 4 → j = k % 16 * 4096 + u % 4096 → (∀ t, Tab.find s.softSince j = some t → t + 1000000 ≤ s.reftime) →
      exec (.correctedSoftErrors k u n) s = .next (logEvent { s with softSince := Tab.put s.softSince j s.reftime } 0x80 j 0 (toBytes 4 n))))

/-- R319, R388 to R393, R397: the window, power-on, the boot, attestation, resets, register writes, the debugger and the power
gate: each event completes with what it records; the window reaches no address past its bounds, whose bytes read as ones and
take no write, and reads in the clear only what is not under another key; an image below MINVER is refused. R303 to R310, R399: what
the distributor does when it comes to act: a workgroup that is a gang of its own is placed in the room found, one of a larger gang is
reserved room until all have it, and a saved gang is restored so as well; the fewest victims are saved; a workgroup and a grid retire
when all of theirs has ended and what they closed is at home. The model's choices stated here: what power-on and a reset leave (log
entry 66), and what the distributor does with a reservation and with a workgroup that does not fit (log entries 57 and 58). -/
def Obligations.HostEvents : Prop :=
  (∀ (s : State),
    (∀ x n, ∃ t, exec (.bar2Read x n) s = .next t ∧ t.hostRead.length = n ∧ t.mem = s.mem ∧ ∀ i, i < n →
      (windowOk s (windowAddr s (x + i)) = false → t.hostRead[i]? = some 0xFF) ∧
      (windowOk s (windowAddr s (x + i)) = true → lineBad s 16 (lineOf (windowAddr s (x + i))) = false →
        (∀ key, Tab.find s.windowKeys (s.device * 2 ^ 40 + windowAddr s (x + i)) = some key → key = windowKey s) →
        t.hostRead[i]? = some (homeByte s (s.device * 2 ^ 40 + windowAddr s (x + i))))) ∧
    (∀ x bs cells t, cells = windowCells s x bs →
      t = writeLocal (softwareWrote s 0xFFFFFFFF (cells.map (·.1))) (fieldN s.w2ctl.toNat 0 13) cells →
      exec (.bar2Write x bs) s =
        .next { t with windowKeys := cells.foldl (fun t e => Tab.put t e.1 (if bitN s.w2ctl.toNat 13 then 0 else fieldN s.w2ctl.toNat 0 13 + 1)) t.windowKeys } ∧
      ∀ e, e ∈ cells ↔ ∃ j, bs[j]? = some e.2 ∧ windowOk s (windowAddr s (x + j)) = true ∧ e.1 = s.device * 2 ^ 40 + windowAddr s (x + j)) ∧
    (∃ t, exec .powerOn s = .next t ∧ t.powered = true ∧ t.bootStage = 0 ∧ t.growth = [] ∧ t.agents = [] ∧ t.grids = [] ∧ t.reftime = 0) ∧
    (s.powered = true → s.bootFail = 0 → s.bootStage ≤ 4 →
      (∀ v, v = 0 ∨ v = 3 →
        (belowMin s = false → ∃ t, exec (.bootStage v) s = .next t ∧ t.bootStage = (if s.bootStage = 4 then 15 else s.bootStage + 1) ∧
          t.bootFail = 0 ∧ t.digests = s.digests ++ [sha256 (stageBytes s)]) ∧
        (belowMin s = true → exec (.bootStage v) s = .next (logEvent { s with bootFail := 3 } 0x01 s.bootStage 0 [3]))) ∧
      (∀ v, v = 1 ∨ v = 2 ∨ v = 4 ∨ v = 5 →
        exec (.bootStage v) s = .next (logEvent { s with bootFail := v } 0x01 s.bootStage 0 [BitVec.ofNat 8 v]))) ∧
    (∀ im, 1 ≤ s.bootStage → s.flash[s.bootStage - 1]? = some im → (belowMin s = true ↔ im.version < s.record.minver.getD (s.bootStage - 1) 0)) ∧
    (∃ t, exec .packageResetRequest s = .next t ∧ t.agents = [] ∧ t.bootStage = 0 ∧ t.mem = s.mem ∧ t.poison = s.poison ∧
      ∃ e, t.growth.getLast? = some e ∧ e.code = 0xA0) ∧
    (s.go = false → ∀ bs, bs.length = 32 → exec (.attestationGo bs) s = .next { s with go := true, nonce := bs }) ∧
    (s.go = true → s.bootStage = 15 → exec .attestationReport s = .next { s with report := reportBytes s, go := false }) ∧
    (∀ o v w, exec (.registerWrite o v w) s = .next (writeBar0 s o v w)) ∧
    (exec .uncorrectableLinkError s = .next { s with aer := true }) ∧
    (∀ c, c < 512 → exec (.debuggerHalt c) s = .next (s.setCore c { s.core c with halted := true }) ∧
      exec (.debuggerResume c) s = .next (s.setCore c { s.core c with halted := false }) ∧
      (∃ t, exec (.corePowerGating c true) s = .next t ∧ (t.core c).gated = true ∧ Tab.get t.tlbs c [] = []) ∧
      exec (.corePowerGating c false) s = .next (s.setCore c { s.core c with gated := false }))) ∧
  (∀ (s u : State), u = dropReservation s →
    (∀ c xs all v, nextAct u = some (.room c xs) → all = (if u.reservation = some (c.grid, c.gang) then u.reserved else []) ++ xs →
      v = (if u.reservation = some (c.grid, c.gang) ∨ c.prio < reservedClass u then freeReservation u else u) →
      (c.wgids.all (fun w => all.any (fun x => x.wgid == w)) = true →
        (c.saved = [] → c.wgids.length = 1 → exec .placement s = .next (placeAll v c.grid all)) ∧
        (c.saved = [] → 1 < c.wgids.length → exec .gangReservation s = .next (placeAll v c.grid all)) ∧
        (c.saved ≠ [] → exec .restore s = .next ((c.saved.zip c.wgids).foldl (fun s e =>
          ((all.find? (fun x => x.wgid == e.2)).map (restoreWg s e.1)).getD s) v))) ∧
      (c.wgids.all (fun w => all.any (fun x => x.wgid == w)) = false → ∃ t,
        (c.saved = [] → c.wgids.length = 1 → exec .placement s = .next t) ∧
        (c.saved = [] → 1 < c.wgids.length → exec .gangReservation s = .next t) ∧ (c.saved ≠ [] → exec .restore s = .next t) ∧
        t.reservation = some (c.grid, c.gang) ∧ t.reserved = all ∧ t.agents = u.agents ∧ t.wgs = u.wgs)) ∧
    (∀ ws, nextAct u = some (.save ws) → (∀ w ∈ ws, ∀ k ∈ wgAgents s w, maySave (s.agent k) = true) →
      exec .preemption s = .next (ws.foldl saveWg u)) ∧
    (∀ k g, Tab.find s.grids k = some g → g.done = false → recProducer g.record ≠ 0 → ∃ ws,
      ws = (List.range (max 1 (recCount g.record))).filter (fun w => !g.placed.contains w) ∧
      exec (.dependenceEvaluation k) s = .next (ws.foldl (evaluateOne k) s)) ∧
    (∀ w x g v t h, Tab.find s.wgs w = some x → Tab.find s.grids x.grid = some g → x.saved = false → wgOver s w = true →
      v = retireClose s x.grid g.asid → homeward v g.asid = false →
      t = freeWg (if sliceN g.record 48 8 = 0 then v else setDoneBit v x.grid g.asid (recRscope g.record) (sliceN g.record 48 8) x.wgid) w →
      Tab.find t.grids x.grid = some h →
      exec (.workgroupRetirement w) s = .next { t with grids := Tab.put t.grids x.grid { h with retired := h.retired + 1 } }) ∧
    (∀ w x g, Tab.find s.wgs w = some x → Tab.find s.grids x.grid = some g → x.saved = false → wgOver s w = true →
      homeward (retireClose s x.grid g.asid) g.asid = true → exec (.workgroupRetirement w) s = .next (retireClose s x.grid g.asid)) ∧
    (∀ k g v, Tab.find s.grids k = some g → gridOver s g = true → (∀ e ∈ s.sent, e.2.why ≠ .doneBit k) → v = retireClose s k g.asid →
      homeward v g.asid = false → ∃ t, exec (.gridRetirement k) s = .next t ∧ Tab.find t.grids k = none ∧
        (∀ c, g.cmd = some c → ∃ n, t = joinMembers { completeCmd v c n with grids := Tab.erase (completeCmd v c n).grids k } g)))
end

