-- ==== Sys2Proof/Laws/Tab.lean ====
section
/-! SUPPORT. Laws of keyed tables: what is found after an entry is set or removed. -/

namespace Sys2Proof.Machine

@[simp] theorem Tab.find_nil {α : Type} (k : Nat) : Tab.find ([] : Tab α) k = none := rfl
@[simp] theorem Tab.get_nil {α : Type} (k : Nat) (d : α) : Tab.get ([] : Tab α) k d = d := rfl

theorem Tab.get_eq_find {α : Type} (t : Tab α) (k : Nat) (d : α) : Tab.get t k d = (Tab.find t k).getD d := by
  induction t with
  | nil => rfl
  | cons e t ih => simp only [Tab.get, Tab.find]; split <;> simp_all

@[simp] theorem Tab.find_put_same {α : Type} (t : Tab α) (k : Nat) (x : α) : Tab.find (Tab.put t k x) k = some x := by
  induction t with
  | nil => simp [Tab.put, Tab.find]
  | cons e t ih =>
    simp only [Tab.put]
    split
    · simp [Tab.find]
    · split
      · simp [Tab.find]
      · rename_i h _; simp [Tab.find, h, ih]

theorem Tab.find_put_other {α : Type} (t : Tab α) {k j : Nat} (x : α) (h : j ≠ k) :
    Tab.find (Tab.put t k x) j = Tab.find t j := by
  induction t with
  | nil => simp [Tab.put, Tab.find, Ne.symm h]
  | cons e t ih =>
    simp only [Tab.put]
    split
    · rename_i he; simp [Tab.find, he, Ne.symm h]
    · split
      · simp [Tab.find, Ne.symm h]
      · simp only [Tab.find]; split <;> simp_all

@[simp] theorem Tab.get_put_same {α : Type} (t : Tab α) (k : Nat) (x d : α) : Tab.get (Tab.put t k x) k d = x := by
  simp [Tab.get_eq_find]

theorem Tab.get_put_other {α : Type} (t : Tab α) {k j : Nat} (x d : α) (h : j ≠ k) :
    Tab.get (Tab.put t k x) j d = Tab.get t j d := by
  simp [Tab.get_eq_find, Tab.find_put_other t x h]

@[simp] theorem Tab.find_erase_same {α : Type} (t : Tab α) (k : Nat) : Tab.find (Tab.erase t k) k = none := by
  induction t with
  | nil => rfl
  | cons e t ih =>
    unfold Tab.erase at *
    by_cases h : e.1 = k <;> simp [h, Tab.find, ih]

theorem Tab.find_erase_other {α : Type} (t : Tab α) {k j : Nat} (h : j ≠ k) : Tab.find (Tab.erase t k) j = Tab.find t j := by
  induction t with
  | nil => rfl
  | cons e t ih =>
    unfold Tab.erase at *
    by_cases he : e.1 = k
    · have : e.1 ≠ j := fun h' => h (h' ▸ he)
      simp [he, Tab.find, ih, Ne.symm h]
    · simp only [bne_iff_ne, ne_eq, he, not_false_eq_true, List.filter_cons_of_pos, Tab.find]
      split <;> simp_all

end Sys2Proof.Machine
end

