-- ==== Sys2Proof/Laws/Regs.lean ====
section
/-! SUPPORT. Laws of registers: what a register reads after the one operation that writes a destination, and that this
operation changes nothing but registers. -/

namespace Sys2Proof.Machine

open Sys2Proof.Safety

theorem sGet_sPut_same (a : Agent) (n : Nat) (x : Word) (h : n ≠ 62 ∧ n ≠ 63) : sGet (sPut a n x) n = x := by
  simp [sGet, sPut, h.1, h.2]

theorem sGet_sPut_other (a : Agent) {n m : Nat} (x : Word) (h : m ≠ n) : sGet (sPut a n x) m = sGet a m := by
  unfold sPut
  split
  · rfl
  · split
    · rfl
    · simp only [sGet, Tab.get_put_other a.sregs x 0 h]

theorem vGet_vPut_same (a : Agent) (n l : Nat) (f : Nat → Option Word) (h : l < a.nlanes) :
    vGet (vPut a n f) n l = (f l).getD (vGet a n l) := by
  simp [vGet, vPut, List.getD, h]

theorem vGet_vPut_other (a : Agent) {n m : Nat} (l : Nat) (f : Nat → Option Word) (h : m ≠ n) :
    vGet (vPut a n f) m l = vGet a m l := by
  simp [vGet, vPut, Tab.get_put_other _ _ _ h]

@[simp] theorem nlanes_sPut (a : Agent) (n : Nat) (x : Word) : (sPut a n x).nlanes = a.nlanes := by
  unfold sPut; split
  · rfl
  · split <;> rfl

@[simp] theorem nlanes_regPut (a : Agent) (r : Nat) (f : Nat → Option Word) : (regPut a r f).nlanes = a.nlanes := by
  unfold regPut
  split
  · rfl
  · split
    · rfl
    · exact nlanes_sPut a _ _

/-- A register after it is written, in a lane; an s register as lane 0 has it. -/
theorem regGet_regPut_same (a : Agent) (r l : Nat) (f : Nat → Option Word) (hl : l < a.nlanes) (hv : r < 192 ∨ l = 0) :
    regGet (regPut a r f) r l = if fixedReg r then regGet a r l else (f l).getD (regGet a r l) := by
  unfold regPut regGet fixedReg
  by_cases hr : r < 192
  · simp only [hr, if_true]
    rw [vGet_vPut_same a r l f hl, if_neg (by omega)]
  · obtain rfl : l = 0 := by omega
    simp only [hr, if_false]
    cases hf : f 0 with
    | none => simp
    | some x =>
      by_cases h62 : r - 192 = 62 <;> by_cases h63 : r - 192 = 63
      · omega
      · rw [if_pos (by omega)]; simp [sPut, h62]
      · rw [if_pos (by omega)]; simp [sPut, h63]
      · rw [if_neg (by omega), sGet_sPut_same a _ x ⟨h62, h63⟩]; rfl

theorem regGet_regPut_other (a : Agent) {r r' : Nat} (l : Nat) (f : Nat → Option Word) (h : r' ≠ r) :
    regGet (regPut a r f) r' l = regGet a r' l := by
  unfold regPut
  split
  · rename_i hr
    unfold regGet
    split
    · exact vGet_vPut_other a l f h
    · rfl
  · rename_i hr
    split
    · rfl
    · rename_i x _
      unfold regGet
      split
      · unfold sPut vGet; split
        · rfl
        · split <;> rfl
      · exact sGet_sPut_other a x (by omega)

@[simp] theorem nlanes_wrN (n : Nat) : ∀ (a : Agent) (r : Nat) (f : Nat → Option Nat), (wrN a r n f).nlanes = a.nlanes := by
  induction n with
  | zero => intro a r f; rfl
  | succ n ih => intro a r f; simp [wrN, ih]

/-- Registers below or above those written are unchanged. -/
theorem regGet_wrN_other (n : Nat) : ∀ (a : Agent) (r r' l : Nat) (f : Nat → Option Nat), (r' < r ∨ r + n ≤ r') →
    regGet (wrN a r n f) r' l = regGet a r' l := by
  induction n with
  | zero => intro a r r' l f _; rfl
  | succ n ih =>
    intro a r r' l f h
    rw [wrN, ih _ _ _ _ _ (by omega), regGet_regPut_other _ _ _ (by omega)]

/-- Register j of n written ones, in a lane; an s register as lane 0 has it. -/
theorem regGet_wrN (n : Nat) : ∀ (a : Agent) (r j l : Nat) (f : Nat → Option Nat), j < n → l < a.nlanes → (r + j < 192 ∨ l = 0) →
    regGet (wrN a r n f) (r + j) l =
      if fixedReg (r + j) then regGet a (r + j) l
      else ((f l).map (fun x => BitVec.ofNat 32 (x / 2 ^ (32 * j)))).getD (regGet a (r + j) l) := by
  induction n with
  | zero => intro a r j l f h; omega
  | succ n ih =>
    intro a r j l f hj hl hv
    cases j with
    | zero =>
      rw [wrN, regGet_wrN_other _ _ _ _ _ _ (by omega), Nat.add_zero, regGet_regPut_same a r l _ hl (by simpa using hv)]
      simp
    | succ j =>
      have e : r + (j + 1) = r + 1 + j := by omega
      rw [wrN, e, ih _ _ _ _ _ (by omega) (by simpa using hl) (by omega), regGet_regPut_other _ _ _ (by omega)]
      simp only [Option.map_map]
      congr 3
      funext x
      simp only [Function.comp]
      rw [Nat.div_div_eq_div_mul, ← Nat.pow_add, show 32 + 32 * j = 32 * (j + 1) by omega]

/-- Only registers change. -/
theorem regPut_only (a : Agent) (r : Nat) (f : Nat → Option Word) :
    { regPut a r f with vregs := a.vregs, sregs := a.sregs } = a := by
  unfold regPut
  split
  · rfl
  · split
    · rfl
    · unfold sPut
      split
      · rfl
      · split <;> rfl

/-- Writing a destination changes nothing but registers. -/
theorem wrN_only (n : Nat) : ∀ (a : Agent) (r : Nat) (f : Nat → Option Nat),
    { wrN a r n f with vregs := a.vregs, sregs := a.sregs } = a := by
  induction n with
  | zero => intro a r f; rfl
  | succ n ih =>
    intro a r f
    have h := ih (regPut a r (fun l => (f l).map (BitVec.ofNat 32))) (r + 1) (fun l => (f l).map (· / 2 ^ 32))
    have g := regPut_only a r (fun l => (f l).map (BitVec.ofNat 32))
    rw [wrN]
    generalize hx : wrN (regPut a r (fun l => (f l).map (BitVec.ofNat 32))) (r + 1) n (fun l => (f l).map (· / 2 ^ 32)) = x at h
    rw [← h] at g
    exact g

end Sys2Proof.Machine
end

