-- ==== Sys2Proof/Laws/State.lean ====
section
/-! SUPPORT. One lemma for each field of the state under each of its named updates. -/

namespace Sys2Proof.Machine

@[simp] theorem setAgent_agenda (s : State) (k : Nat) (a : Agent) : (s.setAgent k a).agenda = s.agenda := rfl
@[simp] theorem setAgent_cur (s : State) (k : Nat) (a : Agent) : (s.setAgent k a).cur = s.cur := rfl
@[simp] theorem setAgent_issued (s : State) (k : Nat) (a : Agent) : (s.setAgent k a).issued = s.issued := rfl
@[simp] theorem setAgent_freeCtr (s : State) (k : Nat) (a : Agent) : (s.setAgent k a).freeCtr = s.freeCtr := rfl
@[simp] theorem setAgent_record (s : State) (k : Nat) (a : Agent) : (s.setAgent k a).record = s.record := rfl
@[simp] theorem setAgent_flash (s : State) (k : Nat) (a : Agent) : (s.setAgent k a).flash = s.flash := rfl
@[simp] theorem setAgent_reftime (s : State) (k : Nat) (a : Agent) : (s.setAgent k a).reftime = s.reftime := rfl
@[simp] theorem setAgent_agents (s : State) (k : Nat) (a : Agent) : (s.setAgent k a).agents = Tab.put s.agents k a := rfl
@[simp] theorem setAgent_cores (s : State) (k : Nat) (a : Agent) : (s.setAgent k a).cores = s.cores := rfl
@[simp] theorem setAgent_groves (s : State) (k : Nat) (a : Agent) : (s.setAgent k a).groves = s.groves := rfl
@[simp] theorem setAgent_dies (s : State) (k : Nat) (a : Agent) : (s.setAgent k a).dies = s.dies := rfl
@[simp] theorem setAgent_mem (s : State) (k : Nat) (a : Agent) : (s.setAgent k a).mem = s.mem := rfl
@[simp] theorem setAgent_poison (s : State) (k : Nat) (a : Agent) : (s.setAgent k a).poison = s.poison := rfl
@[simp] theorem setAgent_held (s : State) (k : Nat) (a : Agent) : (s.setAgent k a).held = s.held := rfl
@[simp] theorem setAgent_covers (s : State) (k : Nat) (a : Agent) : (s.setAgent k a).covers = s.covers := rfl
@[simp] theorem setAgent_lineVer (s : State) (k : Nat) (a : Agent) : (s.setAgent k a).lineVer = s.lineVer := rfl
@[simp] theorem setAgent_refusals (s : State) (k : Nat) (a : Agent) : (s.setAgent k a).refusals = s.refusals := rfl
@[simp] theorem setAgent_lastStrong (s : State) (k : Nat) (a : Agent) : (s.setAgent k a).lastStrong = s.lastStrong := rfl
@[simp] theorem setAgent_strongSeq (s : State) (k : Nat) (a : Agent) : (s.setAgent k a).strongSeq = s.strongSeq := rfl
@[simp] theorem setAgent_codeSeq (s : State) (k : Nat) (a : Agent) : (s.setAgent k a).codeSeq = s.codeSeq := rfl
@[simp] theorem setAgent_codeWrites (s : State) (k : Nat) (a : Agent) : (s.setAgent k a).codeWrites = s.codeWrites := rfl
@[simp] theorem setAgent_codeGrids (s : State) (k : Nat) (a : Agent) : (s.setAgent k a).codeGrids = s.codeGrids := rfl
@[simp] theorem setAgent_guestArrivals (s : State) (k : Nat) (a : Agent) : (s.setAgent k a).guestArrivals = s.guestArrivals := rfl
@[simp] theorem setAgent_fullStores (s : State) (k : Nat) (a : Agent) : (s.setAgent k a).fullStores = s.fullStores := rfl
@[simp] theorem setAgent_orphans (s : State) (k : Nat) (a : Agent) : (s.setAgent k a).orphans = s.orphans := rfl
@[simp] theorem setAgent_goneUnits (s : State) (k : Nat) (a : Agent) : (s.setAgent k a).goneUnits = s.goneUnits := rfl
@[simp] theorem setAgent_savePool (s : State) (k : Nat) (a : Agent) : (s.setAgent k a).savePool = s.savePool := rfl
@[simp] theorem setAgent_windowKeys (s : State) (k : Nat) (a : Agent) : (s.setAgent k a).windowKeys = s.windowKeys := rfl
@[simp] theorem setAgent_tlbs (s : State) (k : Nat) (a : Agent) : (s.setAgent k a).tlbs = s.tlbs := rfl
@[simp] theorem setAgent_asidCache (s : State) (k : Nat) (a : Agent) : (s.setAgent k a).asidCache = s.asidCache := rfl
@[simp] theorem setAgent_shootdown (s : State) (k : Nat) (a : Agent) : (s.setAgent k a).shootdown = s.shootdown := rfl
@[simp] theorem setAgent_asidtab (s : State) (k : Nat) (a : Agent) : (s.setAgent k a).asidtab = s.asidtab := rfl
@[simp] theorem setAgent_fqSticky (s : State) (k : Nat) (a : Agent) : (s.setAgent k a).fqSticky = s.fqSticky := rfl
@[simp] theorem setAgent_fqCount (s : State) (k : Nat) (a : Agent) : (s.setAgent k a).fqCount = s.fqCount := rfl
@[simp] theorem setAgent_faults (s : State) (k : Nat) (a : Agent) : (s.setAgent k a).faults = s.faults := rfl
@[simp] theorem setAgent_queues (s : State) (k : Nat) (a : Agent) : (s.setAgent k a).queues = s.queues := rfl
@[simp] theorem setAgent_cmds (s : State) (k : Nat) (a : Agent) : (s.setAgent k a).cmds = s.cmds := rfl
@[simp] theorem setAgent_nextOrder (s : State) (k : Nat) (a : Agent) : (s.setAgent k a).nextOrder = s.nextOrder := rfl
@[simp] theorem setAgent_lastQueue (s : State) (k : Nat) (a : Agent) : (s.setAgent k a).lastQueue = s.lastQueue := rfl
@[simp] theorem setAgent_grids (s : State) (k : Nat) (a : Agent) : (s.setAgent k a).grids = s.grids := rfl
@[simp] theorem setAgent_nextChild (s : State) (k : Nat) (a : Agent) : (s.setAgent k a).nextChild = s.nextChild := rfl
@[simp] theorem setAgent_wgs (s : State) (k : Nat) (a : Agent) : (s.setAgent k a).wgs = s.wgs := rfl
@[simp] theorem setAgent_reservation (s : State) (k : Nat) (a : Agent) : (s.setAgent k a).reservation = s.reservation := rfl
@[simp] theorem setAgent_reserved (s : State) (k : Nat) (a : Agent) : (s.setAgent k a).reserved = s.reserved := rfl
@[simp] theorem setAgent_reservedOver (s : State) (k : Nat) (a : Agent) : (s.setAgent k a).reservedOver = s.reservedOver := rfl
@[simp] theorem setAgent_lastGrove (s : State) (k : Nat) (a : Agent) : (s.setAgent k a).lastGrove = s.lastGrove := rfl
@[simp] theorem setAgent_pclass (s : State) (k : Nat) (a : Agent) : (s.setAgent k a).pclass = s.pclass := rfl
@[simp] theorem setAgent_budget (s : State) (k : Nat) (a : Agent) : (s.setAgent k a).budget = s.budget := rfl
@[simp] theorem setAgent_budgetSince (s : State) (k : Nat) (a : Agent) : (s.setAgent k a).budgetSince = s.budgetSince := rfl
@[simp] theorem setAgent_clearings (s : State) (k : Nat) (a : Agent) : (s.setAgent k a).clearings = s.clearings := rfl
@[simp] theorem setAgent_clrLimit (s : State) (k : Nat) (a : Agent) : (s.setAgent k a).clrLimit = s.clrLimit := rfl
@[simp] theorem setAgent_clrSel (s : State) (k : Nat) (a : Agent) : (s.setAgent k a).clrSel = s.clrSel := rfl
@[simp] theorem setAgent_quotas (s : State) (k : Nat) (a : Agent) : (s.setAgent k a).quotas = s.quotas := rfl
@[simp] theorem setAgent_control (s : State) (k : Nat) (a : Agent) : (s.setAgent k a).control = s.control := rfl
@[simp] theorem setAgent_entries (s : State) (k : Nat) (a : Agent) : (s.setAgent k a).entries = s.entries := rfl
@[simp] theorem setAgent_imageVersion (s : State) (k : Nat) (a : Agent) : (s.setAgent k a).imageVersion = s.imageVersion := rfl
@[simp] theorem setAgent_standard (s : State) (k : Nat) (a : Agent) : (s.setAgent k a).standard = s.standard := rfl
@[simp] theorem setAgent_matCmds (s : State) (k : Nat) (a : Agent) : (s.setAgent k a).matCmds = s.matCmds := rfl
@[simp] theorem setAgent_sliceQueue (s : State) (k : Nat) (a : Agent) : (s.setAgent k a).sliceQueue = s.sliceQueue := rfl
@[simp] theorem setAgent_bundles (s : State) (k : Nat) (a : Agent) : (s.setAgent k a).bundles = s.bundles := rfl
@[simp] theorem setAgent_versions (s : State) (k : Nat) (a : Agent) : (s.setAgent k a).versions = s.versions := rfl
@[simp] theorem setAgent_copies (s : State) (k : Nat) (a : Agent) : (s.setAgent k a).copies = s.copies := rfl
@[simp] theorem setAgent_traces (s : State) (k : Nat) (a : Agent) : (s.setAgent k a).traces = s.traces := rfl
@[simp] theorem setAgent_posted (s : State) (k : Nat) (a : Agent) : (s.setAgent k a).posted = s.posted := rfl
@[simp] theorem setAgent_tileSeq (s : State) (k : Nat) (a : Agent) : (s.setAgent k a).tileSeq = s.tileSeq := rfl
@[simp] theorem setAgent_device (s : State) (k : Nat) (a : Agent) : (s.setAgent k a).device = s.device := rfl
@[simp] theorem setAgent_routes (s : State) (k : Nat) (a : Agent) : (s.setAgent k a).routes = s.routes := rfl
@[simp] theorem setAgent_current (s : State) (k : Nat) (a : Agent) : (s.setAgent k a).current = s.current := rfl
@[simp] theorem setAgent_inbox (s : State) (k : Nat) (a : Agent) : (s.setAgent k a).inbox = s.inbox := rfl
@[simp] theorem setAgent_sent (s : State) (k : Nat) (a : Agent) : (s.setAgent k a).sent = s.sent := rfl
@[simp] theorem setAgent_sentSeq (s : State) (k : Nat) (a : Agent) : (s.setAgent k a).sentSeq = s.sentSeq := rfl
@[simp] theorem setAgent_peers (s : State) (k : Nat) (a : Agent) : (s.setAgent k a).peers = s.peers := rfl
@[simp] theorem setAgent_directory (s : State) (k : Nat) (a : Agent) : (s.setAgent k a).directory = s.directory := rfl
@[simp] theorem setAgent_ports (s : State) (k : Nat) (a : Agent) : (s.setAgent k a).ports = s.ports := rfl
@[simp] theorem setAgent_multicasts (s : State) (k : Nat) (a : Agent) : (s.setAgent k a).multicasts = s.multicasts := rfl
@[simp] theorem setAgent_backlog (s : State) (k : Nat) (a : Agent) : (s.setAgent k a).backlog = s.backlog := rfl
@[simp] theorem setAgent_collectives (s : State) (k : Nat) (a : Agent) : (s.setAgent k a).collectives = s.collectives := rfl
@[simp] theorem setAgent_pairs (s : State) (k : Nat) (a : Agent) : (s.setAgent k a).pairs = s.pairs := rfl
@[simp] theorem setAgent_drams (s : State) (k : Nat) (a : Agent) : (s.setAgent k a).drams = s.drams := rfl
@[simp] theorem setAgent_powered (s : State) (k : Nat) (a : Agent) : (s.setAgent k a).powered = s.powered := rfl
@[simp] theorem setAgent_bootStage (s : State) (k : Nat) (a : Agent) : (s.setAgent k a).bootStage = s.bootStage := rfl
@[simp] theorem setAgent_bootFail (s : State) (k : Nat) (a : Agent) : (s.setAgent k a).bootFail = s.bootFail := rfl
@[simp] theorem setAgent_digests (s : State) (k : Nat) (a : Agent) : (s.setAgent k a).digests = s.digests := rfl
@[simp] theorem setAgent_w2base (s : State) (k : Nat) (a : Agent) : (s.setAgent k a).w2base = s.w2base := rfl
@[simp] theorem setAgent_w2ctl (s : State) (k : Nat) (a : Agent) : (s.setAgent k a).w2ctl = s.w2ctl := rfl
@[simp] theorem setAgent_nonce (s : State) (k : Nat) (a : Agent) : (s.setAgent k a).nonce = s.nonce := rfl
@[simp] theorem setAgent_go (s : State) (k : Nat) (a : Agent) : (s.setAgent k a).go = s.go := rfl
@[simp] theorem setAgent_report (s : State) (k : Nat) (a : Agent) : (s.setAgent k a).report = s.report := rfl
@[simp] theorem setAgent_growth (s : State) (k : Nat) (a : Agent) : (s.setAgent k a).growth = s.growth := rfl
@[simp] theorem setAgent_wraps (s : State) (k : Nat) (a : Agent) : (s.setAgent k a).wraps = s.wraps := rfl
@[simp] theorem setAgent_msix (s : State) (k : Nat) (a : Agent) : (s.setAgent k a).msix = s.msix := rfl
@[simp] theorem setAgent_vectors (s : State) (k : Nat) (a : Agent) : (s.setAgent k a).vectors = s.vectors := rfl
@[simp] theorem setAgent_softSince (s : State) (k : Nat) (a : Agent) : (s.setAgent k a).softSince = s.softSince := rfl
@[simp] theorem setAgent_dramTemps (s : State) (k : Nat) (a : Agent) : (s.setAgent k a).dramTemps = s.dramTemps := rfl
@[simp] theorem setAgent_rails (s : State) (k : Nat) (a : Agent) : (s.setAgent k a).rails = s.rails := rfl
@[simp] theorem setAgent_aer (s : State) (k : Nat) (a : Agent) : (s.setAgent k a).aer = s.aer := rfl
@[simp] theorem setAgent_hostRead (s : State) (k : Nat) (a : Agent) : (s.setAgent k a).hostRead = s.hostRead := rfl
@[simp] theorem setAgent_hostMem (s : State) (k : Nat) (a : Agent) : (s.setAgent k a).hostMem = s.hostMem := rfl
@[simp] theorem setCore_agenda (s : State) (c : Nat) (x : Core) : (s.setCore c x).agenda = s.agenda := rfl
@[simp] theorem setCore_cur (s : State) (c : Nat) (x : Core) : (s.setCore c x).cur = s.cur := rfl
@[simp] theorem setCore_issued (s : State) (c : Nat) (x : Core) : (s.setCore c x).issued = s.issued := rfl
@[simp] theorem setCore_freeCtr (s : State) (c : Nat) (x : Core) : (s.setCore c x).freeCtr = s.freeCtr := rfl
@[simp] theorem setCore_record (s : State) (c : Nat) (x : Core) : (s.setCore c x).record = s.record := rfl
@[simp] theorem setCore_flash (s : State) (c : Nat) (x : Core) : (s.setCore c x).flash = s.flash := rfl
@[simp] theorem setCore_reftime (s : State) (c : Nat) (x : Core) : (s.setCore c x).reftime = s.reftime := rfl
@[simp] theorem setCore_agents (s : State) (c : Nat) (x : Core) : (s.setCore c x).agents = s.agents := rfl
@[simp] theorem setCore_cores (s : State) (c : Nat) (x : Core) : (s.setCore c x).cores = Tab.put s.cores c x := rfl
@[simp] theorem setCore_groves (s : State) (c : Nat) (x : Core) : (s.setCore c x).groves = s.groves := rfl
@[simp] theorem setCore_dies (s : State) (c : Nat) (x : Core) : (s.setCore c x).dies = s.dies := rfl
@[simp] theorem setCore_mem (s : State) (c : Nat) (x : Core) : (s.setCore c x).mem = s.mem := rfl
@[simp] theorem setCore_poison (s : State) (c : Nat) (x : Core) : (s.setCore c x).poison = s.poison := rfl
@[simp] theorem setCore_held (s : State) (c : Nat) (x : Core) : (s.setCore c x).held = s.held := rfl
@[simp] theorem setCore_covers (s : State) (c : Nat) (x : Core) : (s.setCore c x).covers = s.covers := rfl
@[simp] theorem setCore_lineVer (s : State) (c : Nat) (x : Core) : (s.setCore c x).lineVer = s.lineVer := rfl
@[simp] theorem setCore_refusals (s : State) (c : Nat) (x : Core) : (s.setCore c x).refusals = s.refusals := rfl
@[simp] theorem setCore_lastStrong (s : State) (c : Nat) (x : Core) : (s.setCore c x).lastStrong = s.lastStrong := rfl
@[simp] theorem setCore_strongSeq (s : State) (c : Nat) (x : Core) : (s.setCore c x).strongSeq = s.strongSeq := rfl
@[simp] theorem setCore_codeSeq (s : State) (c : Nat) (x : Core) : (s.setCore c x).codeSeq = s.codeSeq := rfl
@[simp] theorem setCore_codeWrites (s : State) (c : Nat) (x : Core) : (s.setCore c x).codeWrites = s.codeWrites := rfl
@[simp] theorem setCore_codeGrids (s : State) (c : Nat) (x : Core) : (s.setCore c x).codeGrids = s.codeGrids := rfl
@[simp] theorem setCore_guestArrivals (s : State) (c : Nat) (x : Core) : (s.setCore c x).guestArrivals = s.guestArrivals := rfl
@[simp] theorem setCore_fullStores (s : State) (c : Nat) (x : Core) : (s.setCore c x).fullStores = s.fullStores := rfl
@[simp] theorem setCore_orphans (s : State) (c : Nat) (x : Core) : (s.setCore c x).orphans = s.orphans := rfl
@[simp] theorem setCore_goneUnits (s : State) (c : Nat) (x : Core) : (s.setCore c x).goneUnits = s.goneUnits := rfl
@[simp] theorem setCore_savePool (s : State) (c : Nat) (x : Core) : (s.setCore c x).savePool = s.savePool := rfl
@[simp] theorem setCore_windowKeys (s : State) (c : Nat) (x : Core) : (s.setCore c x).windowKeys = s.windowKeys := rfl
@[simp] theorem setCore_tlbs (s : State) (c : Nat) (x : Core) : (s.setCore c x).tlbs = s.tlbs := rfl
@[simp] theorem setCore_asidCache (s : State) (c : Nat) (x : Core) : (s.setCore c x).asidCache = s.asidCache := rfl
@[simp] theorem setCore_shootdown (s : State) (c : Nat) (x : Core) : (s.setCore c x).shootdown = s.shootdown := rfl
@[simp] theorem setCore_asidtab (s : State) (c : Nat) (x : Core) : (s.setCore c x).asidtab = s.asidtab := rfl
@[simp] theorem setCore_fqSticky (s : State) (c : Nat) (x : Core) : (s.setCore c x).fqSticky = s.fqSticky := rfl
@[simp] theorem setCore_fqCount (s : State) (c : Nat) (x : Core) : (s.setCore c x).fqCount = s.fqCount := rfl
@[simp] theorem setCore_faults (s : State) (c : Nat) (x : Core) : (s.setCore c x).faults = s.faults := rfl
@[simp] theorem setCore_queues (s : State) (c : Nat) (x : Core) : (s.setCore c x).queues = s.queues := rfl
@[simp] theorem setCore_cmds (s : State) (c : Nat) (x : Core) : (s.setCore c x).cmds = s.cmds := rfl
@[simp] theorem setCore_nextOrder (s : State) (c : Nat) (x : Core) : (s.setCore c x).nextOrder = s.nextOrder := rfl
@[simp] theorem setCore_lastQueue (s : State) (c : Nat) (x : Core) : (s.setCore c x).lastQueue = s.lastQueue := rfl
@[simp] theorem setCore_grids (s : State) (c : Nat) (x : Core) : (s.setCore c x).grids = s.grids := rfl
@[simp] theorem setCore_nextChild (s : State) (c : Nat) (x : Core) : (s.setCore c x).nextChild = s.nextChild := rfl
@[simp] theorem setCore_wgs (s : State) (c : Nat) (x : Core) : (s.setCore c x).wgs = s.wgs := rfl
@[simp] theorem setCore_reservation (s : State) (c : Nat) (x : Core) : (s.setCore c x).reservation = s.reservation := rfl
@[simp] theorem setCore_reserved (s : State) (c : Nat) (x : Core) : (s.setCore c x).reserved = s.reserved := rfl
@[simp] theorem setCore_reservedOver (s : State) (c : Nat) (x : Core) : (s.setCore c x).reservedOver = s.reservedOver := rfl
@[simp] theorem setCore_lastGrove (s : State) (c : Nat) (x : Core) : (s.setCore c x).lastGrove = s.lastGrove := rfl
@[simp] theorem setCore_pclass (s : State) (c : Nat) (x : Core) : (s.setCore c x).pclass = s.pclass := rfl
@[simp] theorem setCore_budget (s : State) (c : Nat) (x : Core) : (s.setCore c x).budget = s.budget := rfl
@[simp] theorem setCore_budgetSince (s : State) (c : Nat) (x : Core) : (s.setCore c x).budgetSince = s.budgetSince := rfl
@[simp] theorem setCore_clearings (s : State) (c : Nat) (x : Core) : (s.setCore c x).clearings = s.clearings := rfl
@[simp] theorem setCore_clrLimit (s : State) (c : Nat) (x : Core) : (s.setCore c x).clrLimit = s.clrLimit := rfl
@[simp] theorem setCore_clrSel (s : State) (c : Nat) (x : Core) : (s.setCore c x).clrSel = s.clrSel := rfl
@[simp] theorem setCore_quotas (s : State) (c : Nat) (x : Core) : (s.setCore c x).quotas = s.quotas := rfl
@[simp] theorem setCore_control (s : State) (c : Nat) (x : Core) : (s.setCore c x).control = s.control := rfl
@[simp] theorem setCore_entries (s : State) (c : Nat) (x : Core) : (s.setCore c x).entries = s.entries := rfl
@[simp] theorem setCore_imageVersion (s : State) (c : Nat) (x : Core) : (s.setCore c x).imageVersion = s.imageVersion := rfl
@[simp] theorem setCore_standard (s : State) (c : Nat) (x : Core) : (s.setCore c x).standard = s.standard := rfl
@[simp] theorem setCore_matCmds (s : State) (c : Nat) (x : Core) : (s.setCore c x).matCmds = s.matCmds := rfl
@[simp] theorem setCore_sliceQueue (s : State) (c : Nat) (x : Core) : (s.setCore c x).sliceQueue = s.sliceQueue := rfl
@[simp] theorem setCore_bundles (s : State) (c : Nat) (x : Core) : (s.setCore c x).bundles = s.bundles := rfl
@[simp] theorem setCore_versions (s : State) (c : Nat) (x : Core) : (s.setCore c x).versions = s.versions := rfl
@[simp] theorem setCore_copies (s : State) (c : Nat) (x : Core) : (s.setCore c x).copies = s.copies := rfl
@[simp] theorem setCore_traces (s : State) (c : Nat) (x : Core) : (s.setCore c x).traces = s.traces := rfl
@[simp] theorem setCore_posted (s : State) (c : Nat) (x : Core) : (s.setCore c x).posted = s.posted := rfl
@[simp] theorem setCore_tileSeq (s : State) (c : Nat) (x : Core) : (s.setCore c x).tileSeq = s.tileSeq := rfl
@[simp] theorem setCore_device (s : State) (c : Nat) (x : Core) : (s.setCore c x).device = s.device := rfl
@[simp] theorem setCore_routes (s : State) (c : Nat) (x : Core) : (s.setCore c x).routes = s.routes := rfl
@[simp] theorem setCore_current (s : State) (c : Nat) (x : Core) : (s.setCore c x).current = s.current := rfl
@[simp] theorem setCore_inbox (s : State) (c : Nat) (x : Core) : (s.setCore c x).inbox = s.inbox := rfl
@[simp] theorem setCore_sent (s : State) (c : Nat) (x : Core) : (s.setCore c x).sent = s.sent := rfl
@[simp] theorem setCore_sentSeq (s : State) (c : Nat) (x : Core) : (s.setCore c x).sentSeq = s.sentSeq := rfl
@[simp] theorem setCore_peers (s : State) (c : Nat) (x : Core) : (s.setCore c x).peers = s.peers := rfl
@[simp] theorem setCore_directory (s : State) (c : Nat) (x : Core) : (s.setCore c x).directory = s.directory := rfl
@[simp] theorem setCore_ports (s : State) (c : Nat) (x : Core) : (s.setCore c x).ports = s.ports := rfl
@[simp] theorem setCore_multicasts (s : State) (c : Nat) (x : Core) : (s.setCore c x).multicasts = s.multicasts := rfl
@[simp] theorem setCore_backlog (s : State) (c : Nat) (x : Core) : (s.setCore c x).backlog = s.backlog := rfl
@[simp] theorem setCore_collectives (s : State) (c : Nat) (x : Core) : (s.setCore c x).collectives = s.collectives := rfl
@[simp] theorem setCore_pairs (s : State) (c : Nat) (x : Core) : (s.setCore c x).pairs = s.pairs := rfl
@[simp] theorem setCore_drams (s : State) (c : Nat) (x : Core) : (s.setCore c x).drams = s.drams := rfl
@[simp] theorem setCore_powered (s : State) (c : Nat) (x : Core) : (s.setCore c x).powered = s.powered := rfl
@[simp] theorem setCore_bootStage (s : State) (c : Nat) (x : Core) : (s.setCore c x).bootStage = s.bootStage := rfl
@[simp] theorem setCore_bootFail (s : State) (c : Nat) (x : Core) : (s.setCore c x).bootFail = s.bootFail := rfl
@[simp] theorem setCore_digests (s : State) (c : Nat) (x : Core) : (s.setCore c x).digests = s.digests := rfl
@[simp] theorem setCore_w2base (s : State) (c : Nat) (x : Core) : (s.setCore c x).w2base = s.w2base := rfl
@[simp] theorem setCore_w2ctl (s : State) (c : Nat) (x : Core) : (s.setCore c x).w2ctl = s.w2ctl := rfl
@[simp] theorem setCore_nonce (s : State) (c : Nat) (x : Core) : (s.setCore c x).nonce = s.nonce := rfl
@[simp] theorem setCore_go (s : State) (c : Nat) (x : Core) : (s.setCore c x).go = s.go := rfl
@[simp] theorem setCore_report (s : State) (c : Nat) (x : Core) : (s.setCore c x).report = s.report := rfl
@[simp] theorem setCore_growth (s : State) (c : Nat) (x : Core) : (s.setCore c x).growth = s.growth := rfl
@[simp] theorem setCore_wraps (s : State) (c : Nat) (x : Core) : (s.setCore c x).wraps = s.wraps := rfl
@[simp] theorem setCore_msix (s : State) (c : Nat) (x : Core) : (s.setCore c x).msix = s.msix := rfl
@[simp] theorem setCore_vectors (s : State) (c : Nat) (x : Core) : (s.setCore c x).vectors = s.vectors := rfl
@[simp] theorem setCore_softSince (s : State) (c : Nat) (x : Core) : (s.setCore c x).softSince = s.softSince := rfl
@[simp] theorem setCore_dramTemps (s : State) (c : Nat) (x : Core) : (s.setCore c x).dramTemps = s.dramTemps := rfl
@[simp] theorem setCore_rails (s : State) (c : Nat) (x : Core) : (s.setCore c x).rails = s.rails := rfl
@[simp] theorem setCore_aer (s : State) (c : Nat) (x : Core) : (s.setCore c x).aer = s.aer := rfl
@[simp] theorem setCore_hostRead (s : State) (c : Nat) (x : Core) : (s.setCore c x).hostRead = s.hostRead := rfl
@[simp] theorem setCore_hostMem (s : State) (c : Nat) (x : Core) : (s.setCore c x).hostMem = s.hostMem := rfl
@[simp] theorem setGrove_agenda (s : State) (g : Nat) (x : Grove) : (s.setGrove g x).agenda = s.agenda := rfl
@[simp] theorem setGrove_cur (s : State) (g : Nat) (x : Grove) : (s.setGrove g x).cur = s.cur := rfl
@[simp] theorem setGrove_issued (s : State) (g : Nat) (x : Grove) : (s.setGrove g x).issued = s.issued := rfl
@[simp] theorem setGrove_freeCtr (s : State) (g : Nat) (x : Grove) : (s.setGrove g x).freeCtr = s.freeCtr := rfl
@[simp] theorem setGrove_record (s : State) (g : Nat) (x : Grove) : (s.setGrove g x).record = s.record := rfl
@[simp] theorem setGrove_flash (s : State) (g : Nat) (x : Grove) : (s.setGrove g x).flash = s.flash := rfl
@[simp] theorem setGrove_reftime (s : State) (g : Nat) (x : Grove) : (s.setGrove g x).reftime = s.reftime := rfl
@[simp] theorem setGrove_agents (s : State) (g : Nat) (x : Grove) : (s.setGrove g x).agents = s.agents := rfl
@[simp] theorem setGrove_cores (s : State) (g : Nat) (x : Grove) : (s.setGrove g x).cores = s.cores := rfl
@[simp] theorem setGrove_groves (s : State) (g : Nat) (x : Grove) : (s.setGrove g x).groves = Tab.put s.groves g x := rfl
@[simp] theorem setGrove_dies (s : State) (g : Nat) (x : Grove) : (s.setGrove g x).dies = s.dies := rfl
@[simp] theorem setGrove_mem (s : State) (g : Nat) (x : Grove) : (s.setGrove g x).mem = s.mem := rfl
@[simp] theorem setGrove_poison (s : State) (g : Nat) (x : Grove) : (s.setGrove g x).poison = s.poison := rfl
@[simp] theorem setGrove_held (s : State) (g : Nat) (x : Grove) : (s.setGrove g x).held = s.held := rfl
@[simp] theorem setGrove_covers (s : State) (g : Nat) (x : Grove) : (s.setGrove g x).covers = s.covers := rfl
@[simp] theorem setGrove_lineVer (s : State) (g : Nat) (x : Grove) : (s.setGrove g x).lineVer = s.lineVer := rfl
@[simp] theorem setGrove_refusals (s : State) (g : Nat) (x : Grove) : (s.setGrove g x).refusals = s.refusals := rfl
@[simp] theorem setGrove_lastStrong (s : State) (g : Nat) (x : Grove) : (s.setGrove g x).lastStrong = s.lastStrong := rfl
@[simp] theorem setGrove_strongSeq (s : State) (g : Nat) (x : Grove) : (s.setGrove g x).strongSeq = s.strongSeq := rfl
@[simp] theorem setGrove_codeSeq (s : State) (g : Nat) (x : Grove) : (s.setGrove g x).codeSeq = s.codeSeq := rfl
@[simp] theorem setGrove_codeWrites (s : State) (g : Nat) (x : Grove) : (s.setGrove g x).codeWrites = s.codeWrites := rfl
@[simp] theorem setGrove_codeGrids (s : State) (g : Nat) (x : Grove) : (s.setGrove g x).codeGrids = s.codeGrids := rfl
@[simp] theorem setGrove_guestArrivals (s : State) (g : Nat) (x : Grove) : (s.setGrove g x).guestArrivals = s.guestArrivals := rfl
@[simp] theorem setGrove_fullStores (s : State) (g : Nat) (x : Grove) : (s.setGrove g x).fullStores = s.fullStores := rfl
@[simp] theorem setGrove_orphans (s : State) (g : Nat) (x : Grove) : (s.setGrove g x).orphans = s.orphans := rfl
@[simp] theorem setGrove_goneUnits (s : State) (g : Nat) (x : Grove) : (s.setGrove g x).goneUnits = s.goneUnits := rfl
@[simp] theorem setGrove_savePool (s : State) (g : Nat) (x : Grove) : (s.setGrove g x).savePool = s.savePool := rfl
@[simp] theorem setGrove_windowKeys (s : State) (g : Nat) (x : Grove) : (s.setGrove g x).windowKeys = s.windowKeys := rfl
@[simp] theorem setGrove_tlbs (s : State) (g : Nat) (x : Grove) : (s.setGrove g x).tlbs = s.tlbs := rfl
@[simp] theorem setGrove_asidCache (s : State) (g : Nat) (x : Grove) : (s.setGrove g x).asidCache = s.asidCache := rfl
@[simp] theorem setGrove_shootdown (s : State) (g : Nat) (x : Grove) : (s.setGrove g x).shootdown = s.shootdown := rfl
@[simp] theorem setGrove_asidtab (s : State) (g : Nat) (x : Grove) : (s.setGrove g x).asidtab = s.asidtab := rfl
@[simp] theorem setGrove_fqSticky (s : State) (g : Nat) (x : Grove) : (s.setGrove g x).fqSticky = s.fqSticky := rfl
@[simp] theorem setGrove_fqCount (s : State) (g : Nat) (x : Grove) : (s.setGrove g x).fqCount = s.fqCount := rfl
@[simp] theorem setGrove_faults (s : State) (g : Nat) (x : Grove) : (s.setGrove g x).faults = s.faults := rfl
@[simp] theorem setGrove_queues (s : State) (g : Nat) (x : Grove) : (s.setGrove g x).queues = s.queues := rfl
@[simp] theorem setGrove_cmds (s : State) (g : Nat) (x : Grove) : (s.setGrove g x).cmds = s.cmds := rfl
@[simp] theorem setGrove_nextOrder (s : State) (g : Nat) (x : Grove) : (s.setGrove g x).nextOrder = s.nextOrder := rfl
@[simp] theorem setGrove_lastQueue (s : State) (g : Nat) (x : Grove) : (s.setGrove g x).lastQueue = s.lastQueue := rfl
@[simp] theorem setGrove_grids (s : State) (g : Nat) (x : Grove) : (s.setGrove g x).grids = s.grids := rfl
@[simp] theorem setGrove_nextChild (s : State) (g : Nat) (x : Grove) : (s.setGrove g x).nextChild = s.nextChild := rfl
@[simp] theorem setGrove_wgs (s : State) (g : Nat) (x : Grove) : (s.setGrove g x).wgs = s.wgs := rfl
@[simp] theorem setGrove_reservation (s : State) (g : Nat) (x : Grove) : (s.setGrove g x).reservation = s.reservation := rfl
@[simp] theorem setGrove_reserved (s : State) (g : Nat) (x : Grove) : (s.setGrove g x).reserved = s.reserved := rfl
@[simp] theorem setGrove_reservedOver (s : State) (g : Nat) (x : Grove) : (s.setGrove g x).reservedOver = s.reservedOver := rfl
@[simp] theorem setGrove_lastGrove (s : State) (g : Nat) (x : Grove) : (s.setGrove g x).lastGrove = s.lastGrove := rfl
@[simp] theorem setGrove_pclass (s : State) (g : Nat) (x : Grove) : (s.setGrove g x).pclass = s.pclass := rfl
@[simp] theorem setGrove_budget (s : State) (g : Nat) (x : Grove) : (s.setGrove g x).budget = s.budget := rfl
@[simp] theorem setGrove_budgetSince (s : State) (g : Nat) (x : Grove) : (s.setGrove g x).budgetSince = s.budgetSince := rfl
@[simp] theorem setGrove_clearings (s : State) (g : Nat) (x : Grove) : (s.setGrove g x).clearings = s.clearings := rfl
@[simp] theorem setGrove_clrLimit (s : State) (g : Nat) (x : Grove) : (s.setGrove g x).clrLimit = s.clrLimit := rfl
@[simp] theorem setGrove_clrSel (s : State) (g : Nat) (x : Grove) : (s.setGrove g x).clrSel = s.clrSel := rfl
@[simp] theorem setGrove_quotas (s : State) (g : Nat) (x : Grove) : (s.setGrove g x).quotas = s.quotas := rfl
@[simp] theorem setGrove_control (s : State) (g : Nat) (x : Grove) : (s.setGrove g x).control = s.control := rfl
@[simp] theorem setGrove_entries (s : State) (g : Nat) (x : Grove) : (s.setGrove g x).entries = s.entries := rfl
@[simp] theorem setGrove_imageVersion (s : State) (g : Nat) (x : Grove) : (s.setGrove g x).imageVersion = s.imageVersion := rfl
@[simp] theorem setGrove_standard (s : State) (g : Nat) (x : Grove) : (s.setGrove g x).standard = s.standard := rfl
@[simp] theorem setGrove_matCmds (s : State) (g : Nat) (x : Grove) : (s.setGrove g x).matCmds = s.matCmds := rfl
@[simp] theorem setGrove_sliceQueue (s : State) (g : Nat) (x : Grove) : (s.setGrove g x).sliceQueue = s.sliceQueue := rfl
@[simp] theorem setGrove_bundles (s : State) (g : Nat) (x : Grove) : (s.setGrove g x).bundles = s.bundles := rfl
@[simp] theorem setGrove_versions (s : State) (g : Nat) (x : Grove) : (s.setGrove g x).versions = s.versions := rfl
@[simp] theorem setGrove_copies (s : State) (g : Nat) (x : Grove) : (s.setGrove g x).copies = s.copies := rfl
@[simp] theorem setGrove_traces (s : State) (g : Nat) (x : Grove) : (s.setGrove g x).traces = s.traces := rfl
@[simp] theorem setGrove_posted (s : State) (g : Nat) (x : Grove) : (s.setGrove g x).posted = s.posted := rfl
@[simp] theorem setGrove_tileSeq (s : State) (g : Nat) (x : Grove) : (s.setGrove g x).tileSeq = s.tileSeq := rfl
@[simp] theorem setGrove_device (s : State) (g : Nat) (x : Grove) : (s.setGrove g x).device = s.device := rfl
@[simp] theorem setGrove_routes (s : State) (g : Nat) (x : Grove) : (s.setGrove g x).routes = s.routes := rfl
@[simp] theorem setGrove_current (s : State) (g : Nat) (x : Grove) : (s.setGrove g x).current = s.current := rfl
@[simp] theorem setGrove_inbox (s : State) (g : Nat) (x : Grove) : (s.setGrove g x).inbox = s.inbox := rfl
@[simp] theorem setGrove_sent (s : State) (g : Nat) (x : Grove) : (s.setGrove g x).sent = s.sent := rfl
@[simp] theorem setGrove_sentSeq (s : State) (g : Nat) (x : Grove) : (s.setGrove g x).sentSeq = s.sentSeq := rfl
@[simp] theorem setGrove_peers (s : State) (g : Nat) (x : Grove) : (s.setGrove g x).peers = s.peers := rfl
@[simp] theorem setGrove_directory (s : State) (g : Nat) (x : Grove) : (s.setGrove g x).directory = s.directory := rfl
@[simp] theorem setGrove_ports (s : State) (g : Nat) (x : Grove) : (s.setGrove g x).ports = s.ports := rfl
@[simp] theorem setGrove_multicasts (s : State) (g : Nat) (x : Grove) : (s.setGrove g x).multicasts = s.multicasts := rfl
@[simp] theorem setGrove_backlog (s : State) (g : Nat) (x : Grove) : (s.setGrove g x).backlog = s.backlog := rfl
@[simp] theorem setGrove_collectives (s : State) (g : Nat) (x : Grove) : (s.setGrove g x).collectives = s.collectives := rfl
@[simp] theorem setGrove_pairs (s : State) (g : Nat) (x : Grove) : (s.setGrove g x).pairs = s.pairs := rfl
@[simp] theorem setGrove_drams (s : State) (g : Nat) (x : Grove) : (s.setGrove g x).drams = s.drams := rfl
@[simp] theorem setGrove_powered (s : State) (g : Nat) (x : Grove) : (s.setGrove g x).powered = s.powered := rfl
@[simp] theorem setGrove_bootStage (s : State) (g : Nat) (x : Grove) : (s.setGrove g x).bootStage = s.bootStage := rfl
@[simp] theorem setGrove_bootFail (s : State) (g : Nat) (x : Grove) : (s.setGrove g x).bootFail = s.bootFail := rfl
@[simp] theorem setGrove_digests (s : State) (g : Nat) (x : Grove) : (s.setGrove g x).digests = s.digests := rfl
@[simp] theorem setGrove_w2base (s : State) (g : Nat) (x : Grove) : (s.setGrove g x).w2base = s.w2base := rfl
@[simp] theorem setGrove_w2ctl (s : State) (g : Nat) (x : Grove) : (s.setGrove g x).w2ctl = s.w2ctl := rfl
@[simp] theorem setGrove_nonce (s : State) (g : Nat) (x : Grove) : (s.setGrove g x).nonce = s.nonce := rfl
@[simp] theorem setGrove_go (s : State) (g : Nat) (x : Grove) : (s.setGrove g x).go = s.go := rfl
@[simp] theorem setGrove_report (s : State) (g : Nat) (x : Grove) : (s.setGrove g x).report = s.report := rfl
@[simp] theorem setGrove_growth (s : State) (g : Nat) (x : Grove) : (s.setGrove g x).growth = s.growth := rfl
@[simp] theorem setGrove_wraps (s : State) (g : Nat) (x : Grove) : (s.setGrove g x).wraps = s.wraps := rfl
@[simp] theorem setGrove_msix (s : State) (g : Nat) (x : Grove) : (s.setGrove g x).msix = s.msix := rfl
@[simp] theorem setGrove_vectors (s : State) (g : Nat) (x : Grove) : (s.setGrove g x).vectors = s.vectors := rfl
@[simp] theorem setGrove_softSince (s : State) (g : Nat) (x : Grove) : (s.setGrove g x).softSince = s.softSince := rfl
@[simp] theorem setGrove_dramTemps (s : State) (g : Nat) (x : Grove) : (s.setGrove g x).dramTemps = s.dramTemps := rfl
@[simp] theorem setGrove_rails (s : State) (g : Nat) (x : Grove) : (s.setGrove g x).rails = s.rails := rfl
@[simp] theorem setGrove_aer (s : State) (g : Nat) (x : Grove) : (s.setGrove g x).aer = s.aer := rfl
@[simp] theorem setGrove_hostRead (s : State) (g : Nat) (x : Grove) : (s.setGrove g x).hostRead = s.hostRead := rfl
@[simp] theorem setGrove_hostMem (s : State) (g : Nat) (x : Grove) : (s.setGrove g x).hostMem = s.hostMem := rfl
@[simp] theorem setDie_agenda (s : State) (d : Nat) (x : Die) : (s.setDie d x).agenda = s.agenda := rfl
@[simp] theorem setDie_cur (s : State) (d : Nat) (x : Die) : (s.setDie d x).cur = s.cur := rfl
@[simp] theorem setDie_issued (s : State) (d : Nat) (x : Die) : (s.setDie d x).issued = s.issued := rfl
@[simp] theorem setDie_freeCtr (s : State) (d : Nat) (x : Die) : (s.setDie d x).freeCtr = s.freeCtr := rfl
@[simp] theorem setDie_record (s : State) (d : Nat) (x : Die) : (s.setDie d x).record = s.record := rfl
@[simp] theorem setDie_flash (s : State) (d : Nat) (x : Die) : (s.setDie d x).flash = s.flash := rfl
@[simp] theorem setDie_reftime (s : State) (d : Nat) (x : Die) : (s.setDie d x).reftime = s.reftime := rfl
@[simp] theorem setDie_agents (s : State) (d : Nat) (x : Die) : (s.setDie d x).agents = s.agents := rfl
@[simp] theorem setDie_cores (s : State) (d : Nat) (x : Die) : (s.setDie d x).cores = s.cores := rfl
@[simp] theorem setDie_groves (s : State) (d : Nat) (x : Die) : (s.setDie d x).groves = s.groves := rfl
@[simp] theorem setDie_dies (s : State) (d : Nat) (x : Die) : (s.setDie d x).dies = Tab.put s.dies d x := rfl
@[simp] theorem setDie_mem (s : State) (d : Nat) (x : Die) : (s.setDie d x).mem = s.mem := rfl
@[simp] theorem setDie_poison (s : State) (d : Nat) (x : Die) : (s.setDie d x).poison = s.poison := rfl
@[simp] theorem setDie_held (s : State) (d : Nat) (x : Die) : (s.setDie d x).held = s.held := rfl
@[simp] theorem setDie_covers (s : State) (d : Nat) (x : Die) : (s.setDie d x).covers = s.covers := rfl
@[simp] theorem setDie_lineVer (s : State) (d : Nat) (x : Die) : (s.setDie d x).lineVer = s.lineVer := rfl
@[simp] theorem setDie_refusals (s : State) (d : Nat) (x : Die) : (s.setDie d x).refusals = s.refusals := rfl
@[simp] theorem setDie_lastStrong (s : State) (d : Nat) (x : Die) : (s.setDie d x).lastStrong = s.lastStrong := rfl
@[simp] theorem setDie_strongSeq (s : State) (d : Nat) (x : Die) : (s.setDie d x).strongSeq = s.strongSeq := rfl
@[simp] theorem setDie_codeSeq (s : State) (d : Nat) (x : Die) : (s.setDie d x).codeSeq = s.codeSeq := rfl
@[simp] theorem setDie_codeWrites (s : State) (d : Nat) (x : Die) : (s.setDie d x).codeWrites = s.codeWrites := rfl
@[simp] theorem setDie_codeGrids (s : State) (d : Nat) (x : Die) : (s.setDie d x).codeGrids = s.codeGrids := rfl
@[simp] theorem setDie_guestArrivals (s : State) (d : Nat) (x : Die) : (s.setDie d x).guestArrivals = s.guestArrivals := rfl
@[simp] theorem setDie_fullStores (s : State) (d : Nat) (x : Die) : (s.setDie d x).fullStores = s.fullStores := rfl
@[simp] theorem setDie_orphans (s : State) (d : Nat) (x : Die) : (s.setDie d x).orphans = s.orphans := rfl
@[simp] theorem setDie_goneUnits (s : State) (d : Nat) (x : Die) : (s.setDie d x).goneUnits = s.goneUnits := rfl
@[simp] theorem setDie_savePool (s : State) (d : Nat) (x : Die) : (s.setDie d x).savePool = s.savePool := rfl
@[simp] theorem setDie_windowKeys (s : State) (d : Nat) (x : Die) : (s.setDie d x).windowKeys = s.windowKeys := rfl
@[simp] theorem setDie_tlbs (s : State) (d : Nat) (x : Die) : (s.setDie d x).tlbs = s.tlbs := rfl
@[simp] theorem setDie_asidCache (s : State) (d : Nat) (x : Die) : (s.setDie d x).asidCache = s.asidCache := rfl
@[simp] theorem setDie_shootdown (s : State) (d : Nat) (x : Die) : (s.setDie d x).shootdown = s.shootdown := rfl
@[simp] theorem setDie_asidtab (s : State) (d : Nat) (x : Die) : (s.setDie d x).asidtab = s.asidtab := rfl
@[simp] theorem setDie_fqSticky (s : State) (d : Nat) (x : Die) : (s.setDie d x).fqSticky = s.fqSticky := rfl
@[simp] theorem setDie_fqCount (s : State) (d : Nat) (x : Die) : (s.setDie d x).fqCount = s.fqCount := rfl
@[simp] theorem setDie_faults (s : State) (d : Nat) (x : Die) : (s.setDie d x).faults = s.faults := rfl
@[simp] theorem setDie_queues (s : State) (d : Nat) (x : Die) : (s.setDie d x).queues = s.queues := rfl
@[simp] theorem setDie_cmds (s : State) (d : Nat) (x : Die) : (s.setDie d x).cmds = s.cmds := rfl
@[simp] theorem setDie_nextOrder (s : State) (d : Nat) (x : Die) : (s.setDie d x).nextOrder = s.nextOrder := rfl
@[simp] theorem setDie_lastQueue (s : State) (d : Nat) (x : Die) : (s.setDie d x).lastQueue = s.lastQueue := rfl
@[simp] theorem setDie_grids (s : State) (d : Nat) (x : Die) : (s.setDie d x).grids = s.grids := rfl
@[simp] theorem setDie_nextChild (s : State) (d : Nat) (x : Die) : (s.setDie d x).nextChild = s.nextChild := rfl
@[simp] theorem setDie_wgs (s : State) (d : Nat) (x : Die) : (s.setDie d x).wgs = s.wgs := rfl
@[simp] theorem setDie_reservation (s : State) (d : Nat) (x : Die) : (s.setDie d x).reservation = s.reservation := rfl
@[simp] theorem setDie_reserved (s : State) (d : Nat) (x : Die) : (s.setDie d x).reserved = s.reserved := rfl
@[simp] theorem setDie_reservedOver (s : State) (d : Nat) (x : Die) : (s.setDie d x).reservedOver = s.reservedOver := rfl
@[simp] theorem setDie_lastGrove (s : State) (d : Nat) (x : Die) : (s.setDie d x).lastGrove = s.lastGrove := rfl
@[simp] theorem setDie_pclass (s : State) (d : Nat) (x : Die) : (s.setDie d x).pclass = s.pclass := rfl
@[simp] theorem setDie_budget (s : State) (d : Nat) (x : Die) : (s.setDie d x).budget = s.budget := rfl
@[simp] theorem setDie_budgetSince (s : State) (d : Nat) (x : Die) : (s.setDie d x).budgetSince = s.budgetSince := rfl
@[simp] theorem setDie_clearings (s : State) (d : Nat) (x : Die) : (s.setDie d x).clearings = s.clearings := rfl
@[simp] theorem setDie_clrLimit (s : State) (d : Nat) (x : Die) : (s.setDie d x).clrLimit = s.clrLimit := rfl
@[simp] theorem setDie_clrSel (s : State) (d : Nat) (x : Die) : (s.setDie d x).clrSel = s.clrSel := rfl
@[simp] theorem setDie_quotas (s : State) (d : Nat) (x : Die) : (s.setDie d x).quotas = s.quotas := rfl
@[simp] theorem setDie_control (s : State) (d : Nat) (x : Die) : (s.setDie d x).control = s.control := rfl
@[simp] theorem setDie_entries (s : State) (d : Nat) (x : Die) : (s.setDie d x).entries = s.entries := rfl
@[simp] theorem setDie_imageVersion (s : State) (d : Nat) (x : Die) : (s.setDie d x).imageVersion = s.imageVersion := rfl
@[simp] theorem setDie_standard (s : State) (d : Nat) (x : Die) : (s.setDie d x).standard = s.standard := rfl
@[simp] theorem setDie_matCmds (s : State) (d : Nat) (x : Die) : (s.setDie d x).matCmds = s.matCmds := rfl
@[simp] theorem setDie_sliceQueue (s : State) (d : Nat) (x : Die) : (s.setDie d x).sliceQueue = s.sliceQueue := rfl
@[simp] theorem setDie_bundles (s : State) (d : Nat) (x : Die) : (s.setDie d x).bundles = s.bundles := rfl
@[simp] theorem setDie_versions (s : State) (d : Nat) (x : Die) : (s.setDie d x).versions = s.versions := rfl
@[simp] theorem setDie_copies (s : State) (d : Nat) (x : Die) : (s.setDie d x).copies = s.copies := rfl
@[simp] theorem setDie_traces (s : State) (d : Nat) (x : Die) : (s.setDie d x).traces = s.traces := rfl
@[simp] theorem setDie_posted (s : State) (d : Nat) (x : Die) : (s.setDie d x).posted = s.posted := rfl
@[simp] theorem setDie_tileSeq (s : State) (d : Nat) (x : Die) : (s.setDie d x).tileSeq = s.tileSeq := rfl
@[simp] theorem setDie_device (s : State) (d : Nat) (x : Die) : (s.setDie d x).device = s.device := rfl
@[simp] theorem setDie_routes (s : State) (d : Nat) (x : Die) : (s.setDie d x).routes = s.routes := rfl
@[simp] theorem setDie_current (s : State) (d : Nat) (x : Die) : (s.setDie d x).current = s.current := rfl
@[simp] theorem setDie_inbox (s : State) (d : Nat) (x : Die) : (s.setDie d x).inbox = s.inbox := rfl
@[simp] theorem setDie_sent (s : State) (d : Nat) (x : Die) : (s.setDie d x).sent = s.sent := rfl
@[simp] theorem setDie_sentSeq (s : State) (d : Nat) (x : Die) : (s.setDie d x).sentSeq = s.sentSeq := rfl
@[simp] theorem setDie_peers (s : State) (d : Nat) (x : Die) : (s.setDie d x).peers = s.peers := rfl
@[simp] theorem setDie_directory (s : State) (d : Nat) (x : Die) : (s.setDie d x).directory = s.directory := rfl
@[simp] theorem setDie_ports (s : State) (d : Nat) (x : Die) : (s.setDie d x).ports = s.ports := rfl
@[simp] theorem setDie_multicasts (s : State) (d : Nat) (x : Die) : (s.setDie d x).multicasts = s.multicasts := rfl
@[simp] theorem setDie_backlog (s : State) (d : Nat) (x : Die) : (s.setDie d x).backlog = s.backlog := rfl
@[simp] theorem setDie_collectives (s : State) (d : Nat) (x : Die) : (s.setDie d x).collectives = s.collectives := rfl
@[simp] theorem setDie_pairs (s : State) (d : Nat) (x : Die) : (s.setDie d x).pairs = s.pairs := rfl
@[simp] theorem setDie_drams (s : State) (d : Nat) (x : Die) : (s.setDie d x).drams = s.drams := rfl
@[simp] theorem setDie_powered (s : State) (d : Nat) (x : Die) : (s.setDie d x).powered = s.powered := rfl
@[simp] theorem setDie_bootStage (s : State) (d : Nat) (x : Die) : (s.setDie d x).bootStage = s.bootStage := rfl
@[simp] theorem setDie_bootFail (s : State) (d : Nat) (x : Die) : (s.setDie d x).bootFail = s.bootFail := rfl
@[simp] theorem setDie_digests (s : State) (d : Nat) (x : Die) : (s.setDie d x).digests = s.digests := rfl
@[simp] theorem setDie_w2base (s : State) (d : Nat) (x : Die) : (s.setDie d x).w2base = s.w2base := rfl
@[simp] theorem setDie_w2ctl (s : State) (d : Nat) (x : Die) : (s.setDie d x).w2ctl = s.w2ctl := rfl
@[simp] theorem setDie_nonce (s : State) (d : Nat) (x : Die) : (s.setDie d x).nonce = s.nonce := rfl
@[simp] theorem setDie_go (s : State) (d : Nat) (x : Die) : (s.setDie d x).go = s.go := rfl
@[simp] theorem setDie_report (s : State) (d : Nat) (x : Die) : (s.setDie d x).report = s.report := rfl
@[simp] theorem setDie_growth (s : State) (d : Nat) (x : Die) : (s.setDie d x).growth = s.growth := rfl
@[simp] theorem setDie_wraps (s : State) (d : Nat) (x : Die) : (s.setDie d x).wraps = s.wraps := rfl
@[simp] theorem setDie_msix (s : State) (d : Nat) (x : Die) : (s.setDie d x).msix = s.msix := rfl
@[simp] theorem setDie_vectors (s : State) (d : Nat) (x : Die) : (s.setDie d x).vectors = s.vectors := rfl
@[simp] theorem setDie_softSince (s : State) (d : Nat) (x : Die) : (s.setDie d x).softSince = s.softSince := rfl
@[simp] theorem setDie_dramTemps (s : State) (d : Nat) (x : Die) : (s.setDie d x).dramTemps = s.dramTemps := rfl
@[simp] theorem setDie_rails (s : State) (d : Nat) (x : Die) : (s.setDie d x).rails = s.rails := rfl
@[simp] theorem setDie_aer (s : State) (d : Nat) (x : Die) : (s.setDie d x).aer = s.aer := rfl
@[simp] theorem setDie_hostRead (s : State) (d : Nat) (x : Die) : (s.setDie d x).hostRead = s.hostRead := rfl
@[simp] theorem setDie_hostMem (s : State) (d : Nat) (x : Die) : (s.setDie d x).hostMem = s.hostMem := rfl
@[simp] theorem used_agenda (s : State) (n : Nat) : (s.used n).agenda = s.agenda := rfl
@[simp] theorem used_cur (s : State) (n : Nat) : (s.used n).cur = s.cur := rfl
@[simp] theorem used_issued (s : State) (n : Nat) : (s.used n).issued = s.issued := rfl
@[simp] theorem used_freeCtr (s : State) (n : Nat) : (s.used n).freeCtr = s.freeCtr + n := rfl
@[simp] theorem used_record (s : State) (n : Nat) : (s.used n).record = s.record := rfl
@[simp] theorem used_flash (s : State) (n : Nat) : (s.used n).flash = s.flash := rfl
@[simp] theorem used_reftime (s : State) (n : Nat) : (s.used n).reftime = s.reftime := rfl
@[simp] theorem used_agents (s : State) (n : Nat) : (s.used n).agents = s.agents := rfl
@[simp] theorem used_cores (s : State) (n : Nat) : (s.used n).cores = s.cores := rfl
@[simp] theorem used_groves (s : State) (n : Nat) : (s.used n).groves = s.groves := rfl
@[simp] theorem used_dies (s : State) (n : Nat) : (s.used n).dies = s.dies := rfl
@[simp] theorem used_mem (s : State) (n : Nat) : (s.used n).mem = s.mem := rfl
@[simp] theorem used_poison (s : State) (n : Nat) : (s.used n).poison = s.poison := rfl
@[simp] theorem used_held (s : State) (n : Nat) : (s.used n).held = s.held := rfl
@[simp] theorem used_covers (s : State) (n : Nat) : (s.used n).covers = s.covers := rfl
@[simp] theorem used_lineVer (s : State) (n : Nat) : (s.used n).lineVer = s.lineVer := rfl
@[simp] theorem used_refusals (s : State) (n : Nat) : (s.used n).refusals = s.refusals := rfl
@[simp] theorem used_lastStrong (s : State) (n : Nat) : (s.used n).lastStrong = s.lastStrong := rfl
@[simp] theorem used_strongSeq (s : State) (n : Nat) : (s.used n).strongSeq = s.strongSeq := rfl
@[simp] theorem used_codeSeq (s : State) (n : Nat) : (s.used n).codeSeq = s.codeSeq := rfl
@[simp] theorem used_codeWrites (s : State) (n : Nat) : (s.used n).codeWrites = s.codeWrites := rfl
@[simp] theorem used_codeGrids (s : State) (n : Nat) : (s.used n).codeGrids = s.codeGrids := rfl
@[simp] theorem used_guestArrivals (s : State) (n : Nat) : (s.used n).guestArrivals = s.guestArrivals := rfl
@[simp] theorem used_fullStores (s : State) (n : Nat) : (s.used n).fullStores = s.fullStores := rfl
@[simp] theorem used_orphans (s : State) (n : Nat) : (s.used n).orphans = s.orphans := rfl
@[simp] theorem used_goneUnits (s : State) (n : Nat) : (s.used n).goneUnits = s.goneUnits := rfl
@[simp] theorem used_savePool (s : State) (n : Nat) : (s.used n).savePool = s.savePool := rfl
@[simp] theorem used_windowKeys (s : State) (n : Nat) : (s.used n).windowKeys = s.windowKeys := rfl
@[simp] theorem used_tlbs (s : State) (n : Nat) : (s.used n).tlbs = s.tlbs := rfl
@[simp] theorem used_asidCache (s : State) (n : Nat) : (s.used n).asidCache = s.asidCache := rfl
@[simp] theorem used_shootdown (s : State) (n : Nat) : (s.used n).shootdown = s.shootdown := rfl
@[simp] theorem used_asidtab (s : State) (n : Nat) : (s.used n).asidtab = s.asidtab := rfl
@[simp] theorem used_fqSticky (s : State) (n : Nat) : (s.used n).fqSticky = s.fqSticky := rfl
@[simp] theorem used_fqCount (s : State) (n : Nat) : (s.used n).fqCount = s.fqCount := rfl
@[simp] theorem used_faults (s : State) (n : Nat) : (s.used n).faults = s.faults := rfl
@[simp] theorem used_queues (s : State) (n : Nat) : (s.used n).queues = s.queues := rfl
@[simp] theorem used_cmds (s : State) (n : Nat) : (s.used n).cmds = s.cmds := rfl
@[simp] theorem used_nextOrder (s : State) (n : Nat) : (s.used n).nextOrder = s.nextOrder := rfl
@[simp] theorem used_lastQueue (s : State) (n : Nat) : (s.used n).lastQueue = s.lastQueue := rfl
@[simp] theorem used_grids (s : State) (n : Nat) : (s.used n).grids = s.grids := rfl
@[simp] theorem used_nextChild (s : State) (n : Nat) : (s.used n).nextChild = s.nextChild := rfl
@[simp] theorem used_wgs (s : State) (n : Nat) : (s.used n).wgs = s.wgs := rfl
@[simp] theorem used_reservation (s : State) (n : Nat) : (s.used n).reservation = s.reservation := rfl
@[simp] theorem used_reserved (s : State) (n : Nat) : (s.used n).reserved = s.reserved := rfl
@[simp] theorem used_reservedOver (s : State) (n : Nat) : (s.used n).reservedOver = s.reservedOver := rfl
@[simp] theorem used_lastGrove (s : State) (n : Nat) : (s.used n).lastGrove = s.lastGrove := rfl
@[simp] theorem used_pclass (s : State) (n : Nat) : (s.used n).pclass = s.pclass := rfl
@[simp] theorem used_budget (s : State) (n : Nat) : (s.used n).budget = s.budget := rfl
@[simp] theorem used_budgetSince (s : State) (n : Nat) : (s.used n).budgetSince = s.budgetSince := rfl
@[simp] theorem used_clearings (s : State) (n : Nat) : (s.used n).clearings = s.clearings := rfl
@[simp] theorem used_clrLimit (s : State) (n : Nat) : (s.used n).clrLimit = s.clrLimit := rfl
@[simp] theorem used_clrSel (s : State) (n : Nat) : (s.used n).clrSel = s.clrSel := rfl
@[simp] theorem used_quotas (s : State) (n : Nat) : (s.used n).quotas = s.quotas := rfl
@[simp] theorem used_control (s : State) (n : Nat) : (s.used n).control = s.control := rfl
@[simp] theorem used_entries (s : State) (n : Nat) : (s.used n).entries = s.entries := rfl
@[simp] theorem used_imageVersion (s : State) (n : Nat) : (s.used n).imageVersion = s.imageVersion := rfl
@[simp] theorem used_standard (s : State) (n : Nat) : (s.used n).standard = s.standard := rfl
@[simp] theorem used_matCmds (s : State) (n : Nat) : (s.used n).matCmds = s.matCmds := rfl
@[simp] theorem used_sliceQueue (s : State) (n : Nat) : (s.used n).sliceQueue = s.sliceQueue := rfl
@[simp] theorem used_bundles (s : State) (n : Nat) : (s.used n).bundles = s.bundles := rfl
@[simp] theorem used_versions (s : State) (n : Nat) : (s.used n).versions = s.versions := rfl
@[simp] theorem used_copies (s : State) (n : Nat) : (s.used n).copies = s.copies := rfl
@[simp] theorem used_traces (s : State) (n : Nat) : (s.used n).traces = s.traces := rfl
@[simp] theorem used_posted (s : State) (n : Nat) : (s.used n).posted = s.posted := rfl
@[simp] theorem used_tileSeq (s : State) (n : Nat) : (s.used n).tileSeq = s.tileSeq := rfl
@[simp] theorem used_device (s : State) (n : Nat) : (s.used n).device = s.device := rfl
@[simp] theorem used_routes (s : State) (n : Nat) : (s.used n).routes = s.routes := rfl
@[simp] theorem used_current (s : State) (n : Nat) : (s.used n).current = s.current := rfl
@[simp] theorem used_inbox (s : State) (n : Nat) : (s.used n).inbox = s.inbox := rfl
@[simp] theorem used_sent (s : State) (n : Nat) : (s.used n).sent = s.sent := rfl
@[simp] theorem used_sentSeq (s : State) (n : Nat) : (s.used n).sentSeq = s.sentSeq := rfl
@[simp] theorem used_peers (s : State) (n : Nat) : (s.used n).peers = s.peers := rfl
@[simp] theorem used_directory (s : State) (n : Nat) : (s.used n).directory = s.directory := rfl
@[simp] theorem used_ports (s : State) (n : Nat) : (s.used n).ports = s.ports := rfl
@[simp] theorem used_multicasts (s : State) (n : Nat) : (s.used n).multicasts = s.multicasts := rfl
@[simp] theorem used_backlog (s : State) (n : Nat) : (s.used n).backlog = s.backlog := rfl
@[simp] theorem used_collectives (s : State) (n : Nat) : (s.used n).collectives = s.collectives := rfl
@[simp] theorem used_pairs (s : State) (n : Nat) : (s.used n).pairs = s.pairs := rfl
@[simp] theorem used_drams (s : State) (n : Nat) : (s.used n).drams = s.drams := rfl
@[simp] theorem used_powered (s : State) (n : Nat) : (s.used n).powered = s.powered := rfl
@[simp] theorem used_bootStage (s : State) (n : Nat) : (s.used n).bootStage = s.bootStage := rfl
@[simp] theorem used_bootFail (s : State) (n : Nat) : (s.used n).bootFail = s.bootFail := rfl
@[simp] theorem used_digests (s : State) (n : Nat) : (s.used n).digests = s.digests := rfl
@[simp] theorem used_w2base (s : State) (n : Nat) : (s.used n).w2base = s.w2base := rfl
@[simp] theorem used_w2ctl (s : State) (n : Nat) : (s.used n).w2ctl = s.w2ctl := rfl
@[simp] theorem used_nonce (s : State) (n : Nat) : (s.used n).nonce = s.nonce := rfl
@[simp] theorem used_go (s : State) (n : Nat) : (s.used n).go = s.go := rfl
@[simp] theorem used_report (s : State) (n : Nat) : (s.used n).report = s.report := rfl
@[simp] theorem used_growth (s : State) (n : Nat) : (s.used n).growth = s.growth := rfl
@[simp] theorem used_wraps (s : State) (n : Nat) : (s.used n).wraps = s.wraps := rfl
@[simp] theorem used_msix (s : State) (n : Nat) : (s.used n).msix = s.msix := rfl
@[simp] theorem used_vectors (s : State) (n : Nat) : (s.used n).vectors = s.vectors := rfl
@[simp] theorem used_softSince (s : State) (n : Nat) : (s.used n).softSince = s.softSince := rfl
@[simp] theorem used_dramTemps (s : State) (n : Nat) : (s.used n).dramTemps = s.dramTemps := rfl
@[simp] theorem used_rails (s : State) (n : Nat) : (s.used n).rails = s.rails := rfl
@[simp] theorem used_aer (s : State) (n : Nat) : (s.used n).aer = s.aer := rfl
@[simp] theorem used_hostRead (s : State) (n : Nat) : (s.used n).hostRead = s.hostRead := rfl
@[simp] theorem used_hostMem (s : State) (n : Nat) : (s.used n).hostMem = s.hostMem := rfl

end Sys2Proof.Machine
end

