-- ==== Sys2Proof/Laws/Issue.lean ====
section
/-! SUPPORT. Laws of issue: what an instruction that reaches its own description does, and what the common end of an
instruction changes. -/

namespace Sys2Proof.Machine

open Sys2Proof.Safety

theorem agent_of_find {s : State} {k : Nat} {a : Agent} (h : Tab.find s.agents k = some a) : s.agent k = a := by
  simp [State.agent, Tab.get_eq_find, h]

@[simp] theorem setMe_cur (s : State) (a : Agent) : (s.setMe a).cur = s.cur := rfl
@[simp] theorem setMe_find (s : State) (a : Agent) : Tab.find (s.setMe a).agents s.cur = some a := by
  simp [State.setMe]
@[simp] theorem setAgent_agent_same (s : State) (k : Nat) (a : Agent) : (s.setAgent k a).agent k = a :=
  agent_of_find (by simp)
@[simp] theorem setMe_agent (s : State) (a : Agent) : (s.setMe a).agent s.cur = a := setAgent_agent_same s _ a

/-- Once nothing comes before it, an instruction does what its description says. -/
theorem issue_ready {s : State} {a : Agent} {i : Instr} (h : Ready s a i) (body : State → Agent → Act) :
    issue i s body =
      match body s a with
      | .go t => .next (finish i s t (nextPc a i) [])
      | .goTo t pc => .next (finish i s t pc [])
      | .long t e => .next (finish i s t (nextPc a i) [e])
      | .hold t => .next (finishHold i t)
      | .gone t => .next t.marked
      | .fault t => .next t.marked
      | .trap c addr => .next (takeTrap s s.cur c addr)
      | .trapIn t c addr => .next (takeTrap t s.cur c addr)
      | .wait t => .next (t.setMe (t.me.waitAt i)) := by
  simp only [issue, h.1, h.2.1, h.2.2.1, reporting, h.2.2.2]
  cases body s a <;> rfl

@[simp] theorem marked_agents (s : State) : s.marked.agents = s.agents := rfl
@[simp] theorem marked_cur (s : State) : s.marked.cur = s.cur := rfl
@[simp] theorem marked_agent (s : State) (k : Nat) : s.marked.agent k = s.agent k := rfl
@[simp] theorem yieldTo_pc (a : Agent) (js : List Nat) : (a.yieldTo js).pc = a.pc := rfl
@[simp] theorem yieldTo_vregs (a : Agent) (js : List Nat) : (a.yieldTo js).vregs = a.vregs := rfl
@[simp] theorem yieldTo_sregs (a : Agent) (js : List Nat) : (a.yieldTo js).sregs = a.sregs := rfl
@[simp] theorem yieldTo_fstat (a : Agent) (js : List Nat) : (a.yieldTo js).fstat = a.fstat := rfl
@[simp] theorem pastIssue_pc (a : Agent) (la : List LAEntry) (pc : DWord) : (a.pastIssue la pc).pc = pc := rfl
@[simp] theorem pastIssue_vregs (a : Agent) (la : List LAEntry) (pc : DWord) : (a.pastIssue la pc).vregs = a.vregs := rfl
@[simp] theorem pastIssue_sregs (a : Agent) (la : List LAEntry) (pc : DWord) : (a.pastIssue la pc).sregs = a.sregs := rfl
@[simp] theorem pastIssue_fstat (a : Agent) (la : List LAEntry) (pc : DWord) : (a.pastIssue la pc).fstat = a.fstat := rfl

theorem sameButRegs_refl (a : Agent) : SameButRegs a a := rfl
theorem sameButRegs_pastIssue (a : Agent) (la : List LAEntry) (pc : DWord) : SameButRegs a (a.pastIssue la pc) := rfl
theorem sameButRegs_yieldTo (a : Agent) (la : List LAEntry) (pc : DWord) (js : List Nat) :
    SameButRegs a ((a.pastIssue la pc).yieldTo js) := rfl

theorem onlyAgent_refl (s : State) : OnlyAgent s s := ⟨rfl, fun _ _ => rfl⟩
theorem onlyAgent_setAgent {s t : State} (h : OnlyAgent s t) (a : Agent) : OnlyAgent s (t.setAgent s.cur a) :=
  ⟨h.1, fun k hk => by rw [setAgent_agents, Tab.find_put_other _ _ hk]; exact h.2 k hk⟩
theorem onlyAgent_marked {s t : State} (h : OnlyAgent s t) : OnlyAgent s t.marked := ⟨h.1, h.2⟩

/-- Writes that lie in no window disturb nothing (R40). -/
theorem disturb_quiet (k : Nat) {a : Agent} (s : State) {p : List Nat × List Nat} (hd : hitDests a p.1 = [])
    (hl : ∀ e ∈ a.lahead, hitLanes e p.1 (lanesMask p.2) = 0) : disturb k a s p = s := by
  have h1 : hitSites a p.1 (lanesMask p.2) = [] := by
    unfold hitSites
    rw [List.flatten_eq_nil_iff]
    intro l h
    obtain ⟨e, he, rfl⟩ := List.mem_map.mp h
    simp [hl e he]
  have h2 : hitSent s k a p.1 (lanesMask p.2) = [] := by
    unfold hitSent
    rw [List.map_eq_nil_iff, List.filter_eq_nil_iff]
    intro x _
    split
    · simp only [Bool.and_eq_true, List.any_eq_true, not_and, not_exists]
      intro _ e he _
      simp [hl e he]
    · simp only [Bool.and_eq_true, List.any_eq_true, not_and, not_exists]
      intro _ e he _
      simp [hl e he]
    · simp
  simp [disturb, hd, h1, h2]

theorem disturb_all (k : Nat) {a : Agent} : ∀ (ps : List (List Nat × List Nat)) (s : State),
    (∀ p ∈ ps, hitDests a p.1 = [] ∧ ∀ e ∈ a.lahead, hitLanes e p.1 (lanesMask p.2) = 0) → ps.foldl (disturb k a) s = s
  | [], _, _ => rfl
  | p :: ps, s, h => by
    rw [List.foldl_cons, disturb_quiet k s (h p (by simp)).1 (h p (by simp)).2]
    exact disturb_all k ps s (fun q hq => h q (by simp [hq]))

@[simp] theorem taintEntry_done (w : List Nat) (m : Mask) (e : LAEntry) : (taintEntry w m e).done = e.done := by
  simp only [taintEntry]; split <;> rfl
@[simp] theorem taintEntry_remain (w : List Nat) (m : Mask) (e : LAEntry) : (taintEntry w m e).remain = e.remain := by
  simp only [taintEntry]; split <;> rfl

/-- What an instruction overwrites leaves how far an outstanding one has come. -/
theorem taintAll_progress : ∀ (ps : List (List Nat × List Nat)) (e : LAEntry),
    (ps.foldl (fun e p => taintEntry p.1 (lanesMask p.2) e) e).done = e.done ∧
    (ps.foldl (fun e p => taintEntry p.1 (lanesMask p.2) e) e).remain = e.remain
  | [], _ => ⟨rfl, rfl⟩
  | p :: ps, e => by
    have h := taintAll_progress ps (taintEntry p.1 (lanesMask p.2) e)
    simpa using h

/-- Where no result that has come ends its window, none is written (R39). -/
theorem ended_none {la : List LAEntry} (ps : List (List Nat × List Nat)) (h : ∀ e ∈ la, e.done = true → 2 ≤ e.remain) :
    (la.map (fun e => tickEntry (ps.foldl (fun e p => taintEntry p.1 (lanesMask p.2) e) e))).filter LAEntry.ended = [] := by
  rw [List.filter_eq_nil_iff]
  intro x hx
  obtain ⟨e, he, rfl⟩ := List.mem_map.mp hx
  have q := taintAll_progress ps e
  simp only [LAEntry.ended, tickEntry, Bool.and_eq_true, beq_iff_eq, not_and]
  intro hd
  have := h e he (q.1 ▸ hd)
  omega

/-- The end of an instruction that starts nothing and overwrites nothing outstanding, in a state whose agent is `a'`: only
the agent changes further; its pc is the one given, the rest is as the instruction left it. -/
theorem finish_quiet {s t : State} {a a' : Agent} {i : Instr} (pc : DWord) (h : Tab.find s.agents s.cur = some a)
    (hc : t.cur = s.cur) (ha : t.agent s.cur = a') (hla : a'.lahead = a.lahead) (q : Quiet s a i) :
    ∃ la js, finish i s t pc [] = (t.setAgent s.cur (a'.pastIssue la pc)).marked ∨
      finish i s t pc [] = ((t.setAgent s.cur (a'.pastIssue la pc)).marked).setAgent s.cur ((a'.pastIssue la pc).yieldTo js) := by
  have h0 : s.agent s.cur = a := agent_of_find h
  unfold finish
  simp only [hc, ha, h0, disturb_all s.cur (writeParts s a i) _ q.1, writeEnded, hla, ended_none _ q.2, List.filter_nil, List.foldl_nil]
  split
  · simp only [yieldAgent, marked_agent, setAgent_agent_same]
    exact ⟨_, _, Or.inr rfl⟩
  · exact ⟨_, [], Or.inl rfl⟩

/-- The same, for an instruction that changed its agent only. -/
theorem finish_onAgent {s : State} {a a' : Agent} {i : Instr} (pc : DWord) (h : Tab.find s.agents s.cur = some a)
    (hla : a'.lahead = a.lahead) (q : Quiet s a i) :
    ∃ b, Tab.find (finish i s (s.setMe a') pc []).agents s.cur = some b ∧ OnlyAgent s (finish i s (s.setMe a') pc [])
      ∧ b.pc = pc ∧ b.vregs = a'.vregs ∧ b.sregs = a'.sregs ∧ b.fstat = a'.fstat ∧ SameButRegs a' b := by
  obtain ⟨la, js, e | e⟩ := finish_quiet (i := i) pc h (setMe_cur s a') (setMe_agent s a') hla q <;> rw [e]
  · exact ⟨a'.pastIssue la pc, by simp [State.setMe],
      onlyAgent_marked (onlyAgent_setAgent (onlyAgent_setAgent (onlyAgent_refl s) _) _), rfl, rfl, rfl, rfl, sameButRegs_pastIssue _ _ _⟩
  · exact ⟨(a'.pastIssue la pc).yieldTo js, by simp [State.setMe],
      onlyAgent_setAgent (onlyAgent_marked (onlyAgent_setAgent (onlyAgent_setAgent (onlyAgent_refl s) _) _)) _, rfl, rfl, rfl, rfl,
      sameButRegs_yieldTo _ _ _ _⟩

/-- An instruction that only changes its agent. -/
theorem issue_onAgent {s : State} {a : Agent} {i : Instr} (r : Ready s a i) (q : Quiet s a i) (f : Agent → Agent)
    (hla : (f a).lahead = a.lahead) :
    ∃ t b, issue i s (onAgent f) = .next t ∧ Tab.find t.agents s.cur = some b ∧ OnlyAgent s t ∧ b.pc = nextPc a i
      ∧ b.vregs = (f a).vregs ∧ b.sregs = (f a).sregs ∧ b.fstat = (f a).fstat ∧ SameButRegs (f a) b := by
  obtain ⟨b, hb, ho, rest⟩ := finish_onAgent (nextPc a i) (a' := f a) r.1 hla q
  exact ⟨_, b, by rw [issue_ready r]; rfl, hb, ho, rest⟩

theorem regGet_congr {a b : Agent} (hv : b.vregs = a.vregs) (hs : b.sregs = a.sregs) (r l : Nat) : regGet b r l = regGet a r l := by
  simp only [regGet, vGet, sGet, hv, hs]

/-- What a destination written in the lanes of an instruction reads. -/
theorem holds_wrLanes (a : Agent) (i : Instr) (d : Reg) (n : Nat) (x : Nat → Nat) :
    Holds a (wrLanes a i d n x) d n (actsIn a i) x := by
  intro j l hj hl hv
  rw [wrLanes, regGet_wrN n a d.toNat j l _ hj hl hv]
  by_cases hf : fixedReg (d.toNat + j)
  · simp [hf]
  · by_cases hl' : actsIn a i l <;> simp [hf, hl']

theorem wrLanes_other (a : Agent) (i : Instr) (d : Reg) (n : Nat) (x : Nat → Nat) (r l : Nat)
    (h : r < d.toNat ∨ d.toNat + n ≤ r) : regGet (wrLanes a i d n x) r l = regGet a r l := regGet_wrN_other n _ _ _ _ _ h

theorem wrLanes_only (a : Agent) (i : Instr) (d : Reg) (n : Nat) (x : Nat → Nat) :
    { wrLanes a i d n x with vregs := a.vregs, sregs := a.sregs } = a := wrN_only n _ _ _

end Sys2Proof.Machine
end

