-- ==== Sys2Proof/Laws/Mem.lean ====
section
/-! SUPPORT. Laws of memory: a byte read after a write, and the canonical form that every memory operation keeps. -/

namespace Sys2Proof.Machine

@[simp] theorem Memory.read_nil (a : Nat) : Memory.read [] a = Memory.blank := rfl

theorem Memory.above_mono {lo hi : Nat} (h : lo ≤ hi) : ∀ {m : Memory}, Memory.above hi m = true → Memory.above lo m = true
  | [], _ => rfl
  | (a, b) :: m, hm => by
    simp only [Memory.above, Bool.and_eq_true, decide_eq_true_eq] at hm ⊢
    exact ⟨⟨by omega, hm.1.2⟩, hm.2⟩

theorem Memory.above_wf {lo : Nat} : ∀ {m : Memory}, Memory.above lo m = true → Memory.wf m = true
  | [], _ => rfl
  | (a, b) :: m, hm => by
    simp only [Memory.above, Bool.and_eq_true, decide_eq_true_eq, Memory.wf] at hm ⊢
    exact ⟨hm.1.2, hm.2⟩

theorem Memory.read_of_above {lo a : Nat} (h : a ≤ lo) : ∀ {m : Memory}, Memory.above lo m = true → m.read a = Memory.blank
  | [], _ => rfl
  | (a', b) :: m, hm => by
    simp only [Memory.above, Bool.and_eq_true, decide_eq_true_eq] at hm
    have : a' ≠ a := by omega
    simp only [Memory.read, if_neg this]
    exact Memory.read_of_above (by omega) hm.2

theorem Memory.read_write_other (m : Memory) {a x : Nat} (b : Byte) (h : x ≠ a) : (m.write a b).read x = m.read x := by
  induction m with
  | nil => unfold Memory.write; split <;> simp [Memory.read, Ne.symm h]
  | cons e m ih =>
    obtain ⟨a', b'⟩ := e
    unfold Memory.write
    split
    · rename_i he
      split <;> simp [Memory.read, he, Ne.symm h]
    · split
      · split <;> simp [Memory.read, Ne.symm h]
      · simp only [Memory.read, ih]

theorem Memory.read_write_same {m : Memory} (a : Nat) (b : Byte) (h : Memory.wf m = true) : (m.write a b).read a = b := by
  suffices key : ∀ {m : Memory} , Memory.wf m = true → (m.write a b).read a = b from key h
  intro m
  induction m with
  | nil => intro _; unfold Memory.write; split <;> simp_all [Memory.read]
  | cons e m ih =>
    obtain ⟨a', b'⟩ := e
    intro h
    simp only [Memory.wf, Bool.and_eq_true, decide_eq_true_eq] at h
    unfold Memory.write
    split
    · rename_i he
      subst he
      split
      · rename_i hb; rw [Memory.read_of_above (Nat.le_refl _) h.2, hb]
      · simp [Memory.read]
    · rename_i he
      split
      · rename_i hlt
        split
        · rename_i hb
          simp only [Memory.read, if_neg he]
          rw [Memory.read_of_above (by omega) h.2, hb]
        · simp [Memory.read]
      · simp only [Memory.read, if_neg he]
        exact ih (Memory.above_wf h.2)

theorem Memory.above_write {lo : Nat} {m : Memory} (a : Nat) (b : Byte) (ha : lo < a) (h : Memory.above lo m = true) :
    Memory.above lo (m.write a b) = true := by
  induction m generalizing lo with
  | nil => unfold Memory.write; split <;> simp_all [Memory.above]
  | cons e m ih =>
    obtain ⟨a', b'⟩ := e
    simp only [Memory.above, Bool.and_eq_true, decide_eq_true_eq] at h
    unfold Memory.write
    split
    · rename_i he
      subst he
      split
      · exact Memory.above_mono (by omega) h.2
      · simp_all [Memory.above]
    · split
      · split
        · simp_all [Memory.above]
        · simp_all [Memory.above]
      · simp only [Memory.above, Bool.and_eq_true, decide_eq_true_eq]
        exact ⟨h.1, ih (by omega) h.2⟩

/-- A write keeps the canonical form. -/
theorem Memory.wf_write {m : Memory} (a : Nat) (b : Byte) (h : Memory.wf m = true) : Memory.wf (m.write a b) = true := by
  cases m with
  | nil => unfold Memory.write; split <;> simp_all [Memory.wf, Memory.above]
  | cons e m =>
    obtain ⟨a', b'⟩ := e
    simp only [Memory.wf, Bool.and_eq_true, decide_eq_true_eq] at h
    unfold Memory.write
    split
    · rename_i he
      subst he
      split
      · exact Memory.above_wf h.2
      · simp_all [Memory.wf]
    · split
      · split
        · simp_all [Memory.wf]
        · simp_all [Memory.wf, Memory.above]
      · simp only [Memory.wf, Bool.and_eq_true, decide_eq_true_eq]
        exact ⟨h.1, Memory.above_write a b (by omega) h.2⟩

theorem Memory.wf_writeBytes (bs : List Byte) : ∀ {m : Memory} (a : Nat), Memory.wf m = true → Memory.wf (m.writeBytes a bs) = true := by
  induction bs with
  | nil => intro m a h; exact h
  | cons b bs ih => intro m a h; exact ih (a + 1) (Memory.wf_write a b h)

theorem Memory.wf_writeCells (cs : List Host.Cell) : ∀ {m : Memory}, Memory.wf m = true → Memory.wf (m.writeCells cs) = true := by
  induction cs with
  | nil => intro m h; exact h
  | cons c cs ih => intro m h; exact ih (Memory.wf_write c.1 c.2 h)

/-- A byte that no written cell names is unchanged. -/
theorem Memory.read_writeCells_other (cs : List Host.Cell) : ∀ (m : Memory) (x : Nat), (∀ c ∈ cs, c.1 ≠ x) →
    (m.writeCells cs).read x = m.read x := by
  induction cs with
  | nil => intro m x _; rfl
  | cons c cs ih =>
    intro m x h
    have h1 : x ≠ c.1 := fun e => h c (List.mem_cons_self) e.symm
    exact (ih (m.write c.1 c.2) x (fun d hd => h d (List.mem_cons_of_mem _ hd))).trans (Memory.read_write_other m c.2 h1)

theorem Memory.read_writeBytes_other (bs : List Byte) : ∀ (m : Memory) (a x : Nat), (x < a ∨ a + bs.length ≤ x) →
    (m.writeBytes a bs).read x = m.read x := by
  induction bs with
  | nil => intro m a x _; rfl
  | cons b bs ih =>
    intro m a x h
    simp only [List.length_cons] at h
    exact (ih (m.write a b) (a + 1) x (by omega)).trans (Memory.read_write_other m b (by omega))

end Sys2Proof.Machine
end

