-- ==== Sys2Proof/Laws/PerInstr.lean ====
section
/-! SUPPORT. Encoding, instruction by instruction: the decoder reads back from an instruction's words the instruction they
encode (R48, R51, R54, R63, R68). -/

namespace Sys2Proof.Laws.Encoding

open Sys2Proof Sys2Proof.Machine

/-- The decoder reads an instruction back from its words; an event of the machine has none. The second word of an F or P
frame is not looked at. -/
def Statement (i : Instr) : Prop :=
  match encode i with
  | [] => True
  | [w] => ∀ next, decodeWords w next = .ok i
  | w0 :: w1 :: _ => decodeWords w0 w1 = .ok i

theorem extract_low {v w : Nat} (x : BitVec v) (y : BitVec w) (s n : Nat) (h : s + n ≤ w) :
    BitVec.extractLsb' s n (x ++ y) = BitVec.extractLsb' s n y := BitVec.extractLsb'_append_eq_of_add_le h

theorem extract_high {v w : Nat} (x : BitVec v) (y : BitVec w) (s n : Nat) (h : w ≤ s) :
    BitVec.extractLsb' s n (x ++ y) = BitVec.extractLsb' (s - w) n x := BitVec.extractLsb'_append_eq_of_le h

theorem guardOf_guardBits (g : Guard) : guardOf (guardBits g) = g := by
  obtain ⟨neg, bit, reg⟩ := g
  simp only [guardOf, guardBits, Guard.mk.injEq]
  refine ⟨?_, ?_, ?_⟩
  · rw [BitVec.getLsbD_append, BitVec.getLsbD_append]; simp
  · simp (disch := decide) only [extract_high, extract_low, Nat.reduceSub, BitVec.extractLsb'_eq_self]
  · simp (disch := decide) only [extract_low, BitVec.extractLsb'_eq_self]

theorem fArgsOf_fWord (op : BitVec 10) (x : FArgs) : fArgsOf (fWord op x) = x := by
  obtain ⟨d, a, b, g, la, hint, mod, imm, yld⟩ := x
  simp (disch := decide) only [fArgsOf, fWord, extract_high, extract_low, Nat.reduceSub,
    BitVec.extractLsb'_eq_self, guardOf_guardBits, BitVec.getLsbD_append, Nat.reduceLT, if_true, if_false, Nat.lt_irrefl,
    BitVec.getLsbD_ofBool, Nat.sub_self, decide_true, Bool.true_and]

theorem lArgsOf_lWords (op : BitVec 10) (x : LArgs) : lArgsOf (lWord0 op x) (lWord1 x) = x := by
  obtain ⟨d, a, b, c, e, la, hint, mod, g1, g2, orG, imm⟩ := x
  simp (disch := decide) only [lArgsOf, lWord0, lWord1, extract_high, extract_low, Nat.reduceSub,
    BitVec.extractLsb'_eq_self, guardOf_guardBits, BitVec.getLsbD_append, Nat.reduceLT, if_true, if_false, Nat.lt_irrefl,
    BitVec.getLsbD_ofBool, Nat.sub_self, decide_true, Bool.true_and]

theorem pOpOf_pNum (o : POp) : pOpOf (pNum o).toNat = some o := by cases o <;> rfl

theorem pSlotOf_pSlotBits (s : PSlot) : pSlotOf (pSlotBits s) = some s := by
  obtain ⟨op, d, a, m, q⟩ := s
  simp (disch := decide) only [pSlotOf, pSlotBits, extract_high, extract_low, Nat.reduceSub, BitVec.extractLsb'_eq_self, pOpOf_pNum,
    Option.map_some]

theorem fWord_frame (op : BitVec 10) (x : FArgs) : (fWord op x).extractLsb' 62 2 = 0#2 := by
  simp (disch := decide) only [fWord, extract_high, Nat.reduceSub, BitVec.extractLsb'_eq_self]

theorem fWord_op (op : BitVec 10) (x : FArgs) : (fWord op x).extractLsb' 52 10 = op := by
  simp (disch := decide) only [fWord, extract_high, extract_low, Nat.reduceSub, BitVec.extractLsb'_eq_self]

theorem lWord0_frame (op : BitVec 10) (x : LArgs) : (lWord0 op x).extractLsb' 62 2 = 2#2 := by
  simp (disch := decide) only [lWord0, extract_high, Nat.reduceSub, BitVec.extractLsb'_eq_self]

theorem lWord0_op (op : BitVec 10) (x : LArgs) : (lWord0 op x).extractLsb' 52 10 = op := by
  simp (disch := decide) only [lWord0, extract_high, extract_low, Nat.reduceSub, BitVec.extractLsb'_eq_self]

theorem lWord1_frame (x : LArgs) : (lWord1 x).extractLsb' 62 2 = 3#2 := by
  simp (disch := decide) only [lWord1, extract_high, Nat.reduceSub, BitVec.extractLsb'_eq_self]

theorem pWord_frame (x : PArgs) : (pWord x).extractLsb' 62 2 = 1#2 := by
  simp (disch := decide) only [pWord, extract_high, Nat.reduceSub, BitVec.extractLsb'_eq_self]

theorem pWord_slots (x : PArgs) :
    (pWord x).extractLsb' 31 31 = pSlotBits x.s0 ∧ (pWord x).extractLsb' 0 31 = pSlotBits x.s1 := by
  simp (disch := decide) only [pWord, extract_high, extract_low, Nat.reduceSub, BitVec.extractLsb'_eq_self, and_self]

/-- An F word is read by its opcode's row, whatever follows it. -/
theorem decodeWords_fWord (op : BitVec 10) (x : FArgs) (next : DWord) (i : Instr) (h : fInstr op.toNat x = some i) :
    decodeWords (fWord op x) next = .ok i := by
  simp only [decodeWords, fWord_frame, fWord_op, fArgsOf_fWord, h, BitVec.reduceToNat]

/-- The words of an L instruction are read by its opcode's row. -/
theorem decodeWords_lWords (op : BitVec 10) (x : LArgs) (i : Instr) (h : lInstr op.toNat x = some i) :
    decodeWords (lWord0 op x) (lWord1 x) = .ok i := by
  simp only [decodeWords, lWord0_frame, lWord0_op, lWord1_frame, lArgsOf_lWords, h, BitVec.reduceToNat, beq_self_eq_true, if_true]

/-- A P word is read slot by slot. -/
theorem decodeWords_pWord (x : PArgs) (next : DWord) : decodeWords (pWord x) next = .ok (.pPair x) := by
  simp only [decodeWords, pWord_frame, pWord_slots, pSlotOf_pSlotBits, BitVec.reduceToNat]


theorem iadd (f : FArgs) : Statement (.iadd f) := fun next => decodeWords_fWord 0x000 f next _ rfl
theorem isub (f : FArgs) : Statement (.isub f) := fun next => decodeWords_fWord 0x001 f next _ rfl
theorem iadds (f : FArgs) : Statement (.iadds f) := fun next => decodeWords_fWord 0x002 f next _ rfl
theorem imul (f : FArgs) : Statement (.imul f) := fun next => decodeWords_fWord 0x003 f next _ rfl
theorem imulh (f : FArgs) : Statement (.imulh f) := fun next => decodeWords_fWord 0x004 f next _ rfl
theorem imad (f : FArgs) : Statement (.imad f) := fun next => decodeWords_fWord 0x005 f next _ rfl
theorem idp4 (f : FArgs) : Statement (.idp4 f) := fun next => decodeWords_fWord 0x006 f next _ rfl
theorem idiv (f : FArgs) : Statement (.idiv f) := fun next => decodeWords_fWord 0x007 f next _ rfl
theorem irem (f : FArgs) : Statement (.irem f) := fun next => decodeWords_fWord 0x008 f next _ rfl
theorem imin (f : FArgs) : Statement (.imin f) := fun next => decodeWords_fWord 0x009 f next _ rfl
theorem imax (f : FArgs) : Statement (.imax f) := fun next => decodeWords_fWord 0x00A f next _ rfl
theorem iabs (f : FArgs) : Statement (.iabs f) := fun next => decodeWords_fWord 0x00B f next _ rfl
theorem ineg (f : FArgs) : Statement (.ineg f) := fun next => decodeWords_fWord 0x00C f next _ rfl
theorem icmp (f : FArgs) : Statement (.icmp f) := fun next => decodeWords_fWord 0x00D f next _ rfl
theorem andB (f : FArgs) : Statement (.andB f) := fun next => decodeWords_fWord 0x00E f next _ rfl
theorem orB (f : FArgs) : Statement (.orB f) := fun next => decodeWords_fWord 0x00F f next _ rfl
theorem xorB (f : FArgs) : Statement (.xorB f) := fun next => decodeWords_fWord 0x010 f next _ rfl
theorem andn (f : FArgs) : Statement (.andn f) := fun next => decodeWords_fWord 0x011 f next _ rfl
theorem notB (f : FArgs) : Statement (.notB f) := fun next => decodeWords_fWord 0x012 f next _ rfl
theorem shl (f : FArgs) : Statement (.shl f) := fun next => decodeWords_fWord 0x013 f next _ rfl
theorem shr (f : FArgs) : Statement (.shr f) := fun next => decodeWords_fWord 0x014 f next _ rfl
theorem sar (f : FArgs) : Statement (.sar f) := fun next => decodeWords_fWord 0x015 f next _ rfl
theorem rot (f : FArgs) : Statement (.rot f) := fun next => decodeWords_fWord 0x016 f next _ rfl
theorem bfx (f : FArgs) : Statement (.bfx f) := fun next => decodeWords_fWord 0x017 f next _ rfl
theorem bfi (f : FArgs) : Statement (.bfi f) := fun next => decodeWords_fWord 0x018 f next _ rfl
theorem popc (f : FArgs) : Statement (.popc f) := fun next => decodeWords_fWord 0x019 f next _ rfl
theorem clz (f : FArgs) : Statement (.clz f) := fun next => decodeWords_fWord 0x01A f next _ rfl
theorem ctz (f : FArgs) : Statement (.ctz f) := fun next => decodeWords_fWord 0x01B f next _ rfl
theorem brev (f : FArgs) : Statement (.brev f) := fun next => decodeWords_fWord 0x01C f next _ rfl
theorem sel (f : FArgs) : Statement (.sel f) := fun next => decodeWords_fWord 0x01D f next _ rfl
theorem mov (f : FArgs) : Statement (.mov f) := fun next => decodeWords_fWord 0x01E f next _ rfl
theorem movi (f : FArgs) : Statement (.movi f) := fun next => decodeWords_fWord 0x01F f next _ rfl
theorem lea (f : FArgs) : Statement (.lea f) := fun next => decodeWords_fWord 0x020 f next _ rfl
theorem movw (l : LArgs) : Statement (.movw l) := decodeWords_lWords 0x021 l _ rfl
theorem fadd (f : FArgs) : Statement (.fadd f) := fun next => decodeWords_fWord 0x040 f next _ rfl
theorem fsub (f : FArgs) : Statement (.fsub f) := fun next => decodeWords_fWord 0x041 f next _ rfl
theorem fmul (f : FArgs) : Statement (.fmul f) := fun next => decodeWords_fWord 0x042 f next _ rfl
theorem ffma (f : FArgs) : Statement (.ffma f) := fun next => decodeWords_fWord 0x043 f next _ rfl
theorem fmin (f : FArgs) : Statement (.fmin f) := fun next => decodeWords_fWord 0x044 f next _ rfl
theorem fmax (f : FArgs) : Statement (.fmax f) := fun next => decodeWords_fWord 0x045 f next _ rfl
theorem fabs (f : FArgs) : Statement (.fabs f) := fun next => decodeWords_fWord 0x046 f next _ rfl
theorem fneg (f : FArgs) : Statement (.fneg f) := fun next => decodeWords_fWord 0x047 f next _ rfl
theorem fcmp (f : FArgs) : Statement (.fcmp f) := fun next => decodeWords_fWord 0x048 f next _ rfl
theorem fclass (f : FArgs) : Statement (.fclass f) := fun next => decodeWords_fWord 0x049 f next _ rfl
theorem frnd (f : FArgs) : Statement (.frnd f) := fun next => decodeWords_fWord 0x04A f next _ rfl
theorem fscale (f : FArgs) : Statement (.fscale f) := fun next => decodeWords_fWord 0x054 f next _ rfl
theorem fdiv (f : FArgs) : Statement (.fdiv f) := fun next => decodeWords_fWord 0x04B f next _ rfl
theorem fsqrt (f : FArgs) : Statement (.fsqrt f) := fun next => decodeWords_fWord 0x04C f next _ rfl
theorem frcp (f : FArgs) : Statement (.frcp f) := fun next => decodeWords_fWord 0x04D f next _ rfl
theorem frsq (f : FArgs) : Statement (.frsq f) := fun next => decodeWords_fWord 0x04E f next _ rfl
theorem fexp2 (f : FArgs) : Statement (.fexp2 f) := fun next => decodeWords_fWord 0x04F f next _ rfl
theorem flog2 (f : FArgs) : Statement (.flog2 f) := fun next => decodeWords_fWord 0x050 f next _ rfl
theorem fsin (f : FArgs) : Statement (.fsin f) := fun next => decodeWords_fWord 0x051 f next _ rfl
theorem fcos (f : FArgs) : Statement (.fcos f) := fun next => decodeWords_fWord 0x052 f next _ rfl
theorem ftanh (f : FArgs) : Statement (.ftanh f) := fun next => decodeWords_fWord 0x053 f next _ rfl
theorem cvt (f : FArgs) : Statement (.cvt f) := fun next => decodeWords_fWord 0x080 f next _ rfl
theorem cvtq (f : FArgs) : Statement (.cvtq f) := fun next => decodeWords_fWord 0x081 f next _ rfl
theorem cvtd (f : FArgs) : Statement (.cvtd f) := fun next => decodeWords_fWord 0x082 f next _ rfl
theorem pack (f : FArgs) : Statement (.pack f) := fun next => decodeWords_fWord 0x083 f next _ rfl
theorem unpk (f : FArgs) : Statement (.unpk f) := fun next => decodeWords_fWord 0x084 f next _ rfl
theorem shfl (f : FArgs) : Statement (.shfl f) := fun next => decodeWords_fWord 0x0A0 f next _ rfl
theorem bcast (f : FArgs) : Statement (.bcast f) := fun next => decodeWords_fWord 0x0A1 f next _ rfl
theorem ballot (f : FArgs) : Statement (.ballot f) := fun next => decodeWords_fWord 0x0A2 f next _ rfl
theorem vote (f : FArgs) : Statement (.vote f) := fun next => decodeWords_fWord 0x0A3 f next _ rfl
theorem sred (f : FArgs) : Statement (.sred f) := fun next => decodeWords_fWord 0x0A4 f next _ rfl
theorem sscan (f : FArgs) : Statement (.sscan f) := fun next => decodeWords_fWord 0x0A5 f next _ rfl
theorem matchLanes (f : FArgs) : Statement (.matchLanes f) := fun next => decodeWords_fWord 0x0A6 f next _ rfl
theorem pPair (p : PArgs) : Statement (.pPair p) := fun next => decodeWords_pWord p next
theorem nop (f : FArgs) : Statement (.nop f) := fun next => decodeWords_fWord 0x0C0 f next _ rfl
theorem bra (f : FArgs) : Statement (.bra f) := fun next => decodeWords_fWord 0x0C1 f next _ rfl
theorem braL (l : LArgs) : Statement (.braL l) := decodeWords_lWords 0x0C1 l _ rfl
theorem brx (f : FArgs) : Statement (.brx f) := fun next => decodeWords_fWord 0x0C2 f next _ rfl
theorem call (f : FArgs) : Statement (.call f) := fun next => decodeWords_fWord 0x0C3 f next _ rfl
theorem ret (f : FArgs) : Statement (.ret f) := fun next => decodeWords_fWord 0x0C4 f next _ rfl
theorem divIf (f : FArgs) : Statement (.divIf f) := fun next => decodeWords_fWord 0x0C5 f next _ rfl
theorem divElse (f : FArgs) : Statement (.divElse f) := fun next => decodeWords_fWord 0x0C6 f next _ rfl
theorem divJoin (f : FArgs) : Statement (.divJoin f) := fun next => decodeWords_fWord 0x0C7 f next _ rfl
theorem divLoop (f : FArgs) : Statement (.divLoop f) := fun next => decodeWords_fWord 0x0C8 f next _ rfl
theorem divBrk (f : FArgs) : Statement (.divBrk f) := fun next => decodeWords_fWord 0x0C9 f next _ rfl
theorem divNext (f : FArgs) : Statement (.divNext f) := fun next => decodeWords_fWord 0x0CA f next _ rfl
theorem exit (f : FArgs) : Statement (.exit f) := fun next => decodeWords_fWord 0x0CB f next _ rfl
theorem yieldTeam (f : FArgs) : Statement (.yieldTeam f) := fun next => decodeWords_fWord 0x0CC f next _ rfl
theorem launch (f : FArgs) : Statement (.launch f) := fun next => decodeWords_fWord 0x0CD f next _ rfl
theorem cwait (f : FArgs) : Statement (.cwait f) := fun next => decodeWords_fWord 0x0CE f next _ rfl
theorem ld (f : FArgs) : Statement (.ld f) := fun next => decodeWords_fWord 0x100 f next _ rfl
theorem ldL (l : LArgs) : Statement (.ldL l) := decodeWords_lWords 0x100 l _ rfl
theorem st (f : FArgs) : Statement (.st f) := fun next => decodeWords_fWord 0x101 f next _ rfl
theorem stL (l : LArgs) : Statement (.stL l) := decodeWords_lWords 0x101 l _ rfl
theorem lds (f : FArgs) : Statement (.lds f) := fun next => decodeWords_fWord 0x102 f next _ rfl
theorem ldsL (l : LArgs) : Statement (.ldsL l) := decodeWords_lWords 0x102 l _ rfl
theorem sts (f : FArgs) : Statement (.sts f) := fun next => decodeWords_fWord 0x103 f next _ rfl
theorem stsL (l : LArgs) : Statement (.stsL l) := decodeWords_lWords 0x103 l _ rfl
theorem ldk (f : FArgs) : Statement (.ldk f) := fun next => decodeWords_fWord 0x104 f next _ rfl
theorem atom (f : FArgs) : Statement (.atom f) := fun next => decodeWords_fWord 0x105 f next _ rfl
theorem atomc (f : FArgs) : Statement (.atomc f) := fun next => decodeWords_fWord 0x106 f next _ rfl
theorem atomf (f : FArgs) : Statement (.atomf f) := fun next => decodeWords_fWord 0x107 f next _ rfl
theorem red (f : FArgs) : Statement (.red f) := fun next => decodeWords_fWord 0x108 f next _ rfl
theorem atomag (f : FArgs) : Statement (.atomag f) := fun next => decodeWords_fWord 0x109 f next _ rfl
theorem fpush (f : FArgs) : Statement (.fpush f) := fun next => decodeWords_fWord 0x10A f next _ rfl
theorem fpop (f : FArgs) : Statement (.fpop f) := fun next => decodeWords_fWord 0x10B f next _ rfl
theorem pref (f : FArgs) : Statement (.pref f) := fun next => decodeWords_fWord 0x10C f next _ rfl
theorem cwb (f : FArgs) : Statement (.cwb f) := fun next => decodeWords_fWord 0x10D f next _ rfl
theorem cinv (f : FArgs) : Statement (.cinv f) := fun next => decodeWords_fWord 0x10E f next _ rfl
theorem bankset (f : FArgs) : Statement (.bankset f) := fun next => decodeWords_fWord 0x10F f next _ rfl
theorem bankDrainEnd (agent : Nat) : Statement (.bankDrainEnd agent) := trivial
theorem cpy (f : FArgs) : Statement (.cpy f) := fun next => decodeWords_fWord 0x180 f next _ rfl
theorem cpyt (l : LArgs) : Statement (.cpyt l) := decodeWords_lWords 0x181 l _ rfl
theorem copyLineOperation (copyId : Nat) : Statement (.copyLineOperation copyId) := trivial
theorem ringInit (f : FArgs) : Statement (.ringInit f) := fun next => decodeWords_fWord 0x182 f next _ rfl
theorem ringWait (f : FArgs) : Statement (.ringWait f) := fun next => decodeWords_fWord 0x183 f next _ rfl
theorem ringPark (f : FArgs) : Statement (.ringPark f) := fun next => decodeWords_fWord 0x184 f next _ rfl
theorem ringRel (f : FArgs) : Statement (.ringRel f) := fun next => decodeWords_fWord 0x185 f next _ rfl
theorem ringQ (f : FArgs) : Statement (.ringQ f) := fun next => decodeWords_fWord 0x186 f next _ rfl
theorem pclose (f : FArgs) : Statement (.pclose f) := fun next => decodeWords_fWord 0x1C0 f next _ rfl
theorem popen (f : FArgs) : Statement (.popen f) := fun next => decodeWords_fWord 0x1C1 f next _ rfl
theorem phase (f : FArgs) : Statement (.phase f) := fun next => decodeWords_fWord 0x1C2 f next _ rfl
theorem bclose (f : FArgs) : Statement (.bclose f) := fun next => decodeWords_fWord 0x1C3 f next _ rfl
theorem bquery (f : FArgs) : Statement (.bquery f) := fun next => decodeWords_fWord 0x1C4 f next _ rfl
theorem fence (f : FArgs) : Statement (.fence f) := fun next => decodeWords_fWord 0x1C5 f next _ rfl
theorem barInit (f : FArgs) : Statement (.barInit f) := fun next => decodeWords_fWord 0x1C6 f next _ rfl
theorem barArv (f : FArgs) : Statement (.barArv f) := fun next => decodeWords_fWord 0x1C7 f next _ rfl
theorem barWait (f : FArgs) : Statement (.barWait f) := fun next => decodeWords_fWord 0x1C8 f next _ rfl
theorem barSync (f : FArgs) : Statement (.barSync f) := fun next => decodeWords_fWord 0x1C9 f next _ rfl
theorem barrierCompletionNotice (agent : Nat) : Statement (.barrierCompletionNotice agent) := trivial
theorem accrd (f : FArgs) : Statement (.accrd f) := fun next => decodeWords_fWord 0x200 f next _ rfl
theorem accwr (f : FArgs) : Statement (.accwr f) := fun next => decodeWords_fWord 0x201 f next _ rfl
theorem rowst (f : FArgs) : Statement (.rowst f) := fun next => decodeWords_fWord 0x202 f next _ rfl
theorem accsc (f : FArgs) : Statement (.accsc f) := fun next => decodeWords_fWord 0x203 f next _ rfl
theorem tileAccessPerformed (core : Nat) : Statement (.tileAccessPerformed core) := trivial
theorem clrClaim (f : FArgs) : Statement (.clrClaim f) := fun next => decodeWords_fWord 0x240 f next _ rfl
theorem claimDrainEnd (agent : Nat) : Statement (.claimDrainEnd agent) := trivial
theorem clrFree (f : FArgs) : Statement (.clrFree f) := fun next => decodeWords_fWord 0x241 f next _ rfl
theorem clrTload (l : LArgs) : Statement (.clrTload l) := decodeWords_lWords 0x242 l _ rfl
theorem clrTstore (l : LArgs) : Statement (.clrTstore l) := decodeWords_lWords 0x243 l _ rfl
theorem clrCall (l : LArgs) : Statement (.clrCall l) := decodeWords_lWords 0x244 l _ rfl
theorem clrPred (f : FArgs) : Statement (.clrPred f) := fun next => decodeWords_fWord 0x245 f next _ rfl
theorem clrRdrow (f : FArgs) : Statement (.clrRdrow f) := fun next => decodeWords_fWord 0x246 f next _ rfl
theorem clrWait (f : FArgs) : Statement (.clrWait f) := fun next => decodeWords_fWord 0x247 f next _ rfl
theorem clrQ (f : FArgs) : Statement (.clrQ f) := fun next => decodeWords_fWord 0x248 f next _ rfl
theorem clrCsload (f : FArgs) : Statement (.clrCsload f) := fun next => decodeWords_fWord 0x249 f next _ rfl
theorem sequencerCommand (slice : Nat) : Statement (.sequencerCommand slice) := trivial
theorem clearingWatchdogTrip (slice : Nat) : Statement (.clearingWatchdogTrip slice) := trivial
theorem rdsys (f : FArgs) : Statement (.rdsys f) := fun next => decodeWords_fWord 0x280 f next _ rfl
theorem wrsys (f : FArgs) : Statement (.wrsys f) := fun next => decodeWords_fWord 0x281 f next _ rfl
theorem clrAsqWrite (value : Word) : Statement (.clrAsqWrite value) := trivial
theorem trap (f : FArgs) : Statement (.trap f) := fun next => decodeWords_fWord 0x282 f next _ rfl
theorem brk (f : FArgs) : Statement (.brk f) := fun next => decodeWords_fWord 0x283 f next _ rfl
theorem eret (f : FArgs) : Statement (.eret f) := fun next => decodeWords_fWord 0x284 f next _ rfl
theorem tlbi (f : FArgs) : Statement (.tlbi f) := fun next => decodeWords_fWord 0x285 f next _ rfl
theorem tlbiAcknowledge (unit : Nat) : Statement (.tlbiAcknowledge unit) := trivial
theorem ctxsv (f : FArgs) : Statement (.ctxsv f) := fun next => decodeWords_fWord 0x286 f next _ rfl
theorem ctxld (f : FArgs) : Statement (.ctxld f) := fun next => decodeWords_fWord 0x287 f next _ rfl
theorem sleep (f : FArgs) : Statement (.sleep f) := fun next => decodeWords_fWord 0x288 f next _ rfl
theorem wake (f : FArgs) : Statement (.wake f) := fun next => decodeWords_fWord 0x289 f next _ rfl
theorem sleepIntervalExpires (agent : Nat) : Statement (.sleepIntervalExpires agent) := trivial
theorem mxZero (f : FArgs) : Statement (.mxZero f) := fun next => decodeWords_fWord 0x2C0 f next _ rfl
theorem mxMma (l : LArgs) : Statement (.mxMma l) := decodeWords_lWords 0x2C1 l _ rfl
theorem mxSmma (l : LArgs) : Statement (.mxSmma l) := decodeWords_lWords 0x2C2 l _ rfl
theorem mxQmma (l : LArgs) : Statement (.mxQmma l) := decodeWords_lWords 0x2C3 l _ rfl
theorem mxLdacc (l : LArgs) : Statement (.mxLdacc l) := decodeWords_lWords 0x2C4 l _ rfl
theorem mxStacc (l : LArgs) : Statement (.mxStacc l) := decodeWords_lWords 0x2C5 l _ rfl
theorem mxScale (f : FArgs) : Statement (.mxScale f) := fun next => decodeWords_fWord 0x2C6 f next _ rfl
theorem mxWait (f : FArgs) : Statement (.mxWait f) := fun next => decodeWords_fWord 0x2C7 f next _ rfl
theorem mxQ (f : FArgs) : Statement (.mxQ f) := fun next => decodeWords_fWord 0x2C8 f next _ rfl
theorem mxCancel (f : FArgs) : Statement (.mxCancel f) := fun next => decodeWords_fWord 0x2C9 f next _ rfl
theorem mxBind (f : FArgs) : Statement (.mxBind f) := fun next => decodeWords_fWord 0x2CA f next _ rfl
theorem mxDispatch (agent : Nat) (ticket : Word) : Statement (.mxDispatch agent ticket) := trivial
theorem mxStep (agent : Nat) (ticket : Word) : Statement (.mxStep agent ticket) := trivial
theorem mxEntryComplete (agent : Nat) (ticket : Word) : Statement (.mxEntryComplete agent ticket) := trivial
theorem longLatencyCompletion (agent : Nat) (entry : Nat) : Statement (.longLatencyCompletion agent entry) := trivial
theorem sideLogReplay (agent : Nat) (page : Nat) : Statement (.sideLogReplay agent page) := trivial
theorem faultRecordPost (asid : Nat) : Statement (.faultRecordPost asid) := trivial
theorem faultrespRetry (asid : Nat) (index : Nat) : Statement (.faultrespRetry asid index) := trivial
theorem faultrespReject (asid : Nat) (index : Nat) : Statement (.faultrespReject asid index) := trivial
theorem faultrespAbort (asid : Nat) (index : Nat) : Statement (.faultrespAbort asid index) := trivial
theorem qtailDoorbell (queue : Nat) (value : Word) : Statement (.qtailDoorbell queue value) := trivial
theorem qctlEnable (queue : Nat) (value : Word) : Statement (.qctlEnable queue value) := trivial
theorem qctlDisable (queue : Nat) (value : Word) : Statement (.qctlDisable queue value) := trivial
theorem commandTakeUp (queue : Nat) : Statement (.commandTakeUp queue) := trivial
theorem launchCommand (cmd : Nat) : Statement (.launchCommand cmd) := trivial
theorem signal (cmd : Nat) : Statement (.signal cmd) := trivial
theorem waitsig (cmd : Nat) : Statement (.waitsig cmd) := trivial
theorem waitsigReread (cmd : Nat) : Statement (.waitsigReread cmd) := trivial
theorem copy (cmd : Nat) : Statement (.copy cmd) := trivial
theorem portdrain (cmd : Nat) : Statement (.portdrain cmd) := trivial
theorem porttrain (cmd : Nat) : Statement (.porttrain cmd) := trivial
theorem routeload (cmd : Nat) : Statement (.routeload cmd) := trivial
theorem routeswap (cmd : Nat) : Statement (.routeswap cmd) := trivial
theorem dependenceEvaluation (grid : Nat) : Statement (.dependenceEvaluation grid) := trivial
theorem workgroupRetirement (wg : Nat) : Statement (.workgroupRetirement wg) := trivial
theorem gridRetirement (grid : Nat) : Statement (.gridRetirement grid) := trivial
theorem lineEviction (agent : Nat) (line : Nat) : Statement (.lineEviction agent line) := trivial
theorem heldBytesPlaced (line : Nat) : Statement (.heldBytesPlaced line) := trivial
theorem fabricTimeout (tag : Nat) : Statement (.fabricTimeout tag) := trivial
theorem bundleCommitSend (bundle : Nat) : Statement (.bundleCommitSend bundle) := trivial
theorem bundleSettleSend (bundle : Nat) : Statement (.bundleSettleSend bundle) := trivial
theorem bundleWithdrawal (bundle : Nat) : Statement (.bundleWithdrawal bundle) := trivial
theorem frameReceived (port : Nat) (octets : List Byte) : Statement (.frameReceived port octets) := trivial
theorem managementFrame (port : Nat) (neighbour : Nat) (width : Nat) : Statement (.managementFrame port neighbour width) := trivial
theorem linkReplayTimeout (port : Nat) : Statement (.linkReplayTimeout port) := trivial
theorem emptyAckFrame (port : Nat) : Statement (.emptyAckFrame port) := trivial
theorem portWiden (port : Nat) : Statement (.portWiden port) := trivial
theorem portNarrow (port : Nat) : Statement (.portNarrow port) := trivial
theorem portWidthTakesEffect (port : Nat) : Statement (.portWidthTakesEffect port) := trivial
theorem wavelengthLoss (port : Nat) (wavelength : Nat) (cause : Nat) : Statement (.wavelengthLoss port wavelength cause) := trivial
theorem wavelengthRelock (port : Nat) (wavelength : Nat) (orders : Nat) : Statement (.wavelengthRelock port wavelength orders) := trivial
theorem collectiveSlotEnd (ctx : Nat) : Statement (.collectiveSlotEnd ctx) := trivial
theorem collectiveCompletion (ctx : Nat) : Statement (.collectiveCompletion ctx) := trivial
theorem ccctlEnable (ctx : Nat) (value : Word) : Statement (.ccctlEnable ctx value) := trivial
theorem ccctlDisable (ctx : Nat) (value : Word) : Statement (.ccctlDisable ctx value) := trivial
theorem flitReceived (pair : Nat) (flit : Flit) (crcOk : Bool) : Statement (.flitReceived pair flit crcOk) := trivial
theorem colourLost (pair : Nat) (colour : Nat) (cause : Nat) : Statement (.colourLost pair colour cause) := trivial
theorem colourBGateOff (pair : Nat) : Statement (.colourBGateOff pair) := trivial
theorem colourBWake (pair : Nat) : Statement (.colourBWake pair) := trivial
theorem pairDrainEnd (pair : Nat) : Statement (.pairDrainEnd pair) := trivial
theorem routePairWrite (pair : Nat) (value : Word) : Statement (.routePairWrite pair value) := trivial
theorem routePairRetrain (pair : Nat) : Statement (.routePairRetrain pair) := trivial
theorem pairRetrainEnd (pair : Nat) (relocked : Nat) : Statement (.pairRetrainEnd pair relocked) := trivial
theorem frequencyDecision (die : Nat) (mhz : Nat) : Statement (.frequencyDecision die mhz) := trivial
theorem relockStart (die : Nat) : Statement (.relockStart die) := trivial
theorem relockEnd (die : Nat) : Statement (.relockEnd die) := trivial
theorem thermalEmergency (core : Nat) : Statement (.thermalEmergency core) := trivial
theorem thermalEmergencyEnd (die : Nat) : Statement (.thermalEmergencyEnd die) := trivial
theorem dramStackStateChange (stack : Nat) (temp : Nat) : Statement (.dramStackStateChange stack temp) := trivial
theorem bar2Read (offset : Nat) (count : Nat) : Statement (.bar2Read offset count) := trivial
theorem bar2Write (offset : Nat) (octets : List Byte) : Statement (.bar2Write offset octets) := trivial
theorem bootStage (verdict : Nat) : Statement (.bootStage verdict) := trivial
theorem attestationGo (octets : List Byte) : Statement (.attestationGo octets) := trivial
theorem attestationReport : Statement (.attestationReport) := trivial
theorem patrolScrub (line : Nat) : Statement (.patrolScrub line) := trivial
theorem uncorrectableError (addr : Nat) : Statement (.uncorrectableError addr) := trivial
theorem correctedSoftErrors (kind : Nat) (unit : Nat) (count : Nat) : Statement (.correctedSoftErrors kind unit count) := trivial
theorem registerWrite (offset : Nat) (value : DWord) (wide : Bool) : Statement (.registerWrite offset value wide) := trivial
theorem closeCompletion (agent : Nat) : Statement (.closeCompletion agent) := trivial
theorem postedAccessPerformed (entry : Nat) : Statement (.postedAccessPerformed entry) := trivial
theorem controlStoreLoadEnd (agent : Nat) (verified : Bool) : Statement (.controlStoreLoadEnd agent verified) := trivial
theorem portCommandTimeout (cmd : Nat) : Statement (.portCommandTimeout cmd) := trivial
theorem routeswapSemaphoreRead (cmd : Nat) : Statement (.routeswapSemaphoreRead cmd) := trivial
theorem debuggerHalt (core : Nat) : Statement (.debuggerHalt core) := trivial
theorem debuggerResume (core : Nat) : Statement (.debuggerResume core) := trivial
theorem corePowerGating (core : Nat) (off : Bool) : Statement (.corePowerGating core off) := trivial
theorem fqovfClear : Statement (.fqovfClear) := trivial
theorem placement : Statement (.placement) := trivial
theorem gangReservation : Statement (.gangReservation) := trivial
theorem preemption : Statement (.preemption) := trivial
theorem restore : Statement (.restore) := trivial
theorem readLine : Statement (.readLine) := trivial
theorem versionFetch : Statement (.versionFetch) := trivial
theorem resolvingFetch : Statement (.resolvingFetch) := trivial
theorem writeLine : Statement (.writeLine) := trivial
theorem atomic : Statement (.atomic) := trivial
theorem invalidate : Statement (.invalidate) := trivial
theorem acknowledge : Statement (.acknowledge) := trivial
theorem bundlePending : Statement (.bundlePending) := trivial
theorem bundleCommit : Statement (.bundleCommit) := trivial
theorem bundleSettle : Statement (.bundleSettle) := trivial
theorem collectiveShard : Statement (.collectiveShard) := trivial
theorem allowUpdate : Statement (.allowUpdate) := trivial
theorem powerClassChange : Statement (.powerClassChange) := trivial
theorem budgetWindow : Statement (.budgetWindow) := trivial
theorem powerOn : Statement (.powerOn) := trivial
theorem packageResetRequest : Statement (.packageResetRequest) := trivial
theorem uncorrectableLinkError : Statement (.uncorrectableLinkError) := trivial

end Sys2Proof.Laws.Encoding
end

