-- ==== Sys2Proof/Tests/Slice0.lean ====
section
/-! SUPPORT. Tests on small states: ill-formed terms, words and worked cases of the manual, and for each statement states and
operands that meet its premises, most with what it concludes. -/

open Sys2Proof Sys2Proof.Machine Sys2Proof.Safety
namespace Sys2Proof.Tests

set_option Elab.async false

def fw (d a b : Reg) (mod : BitVec 6 := 0) (imm : Bool := false) : FArgs := ⟨d, a, b, Guard.always, 0, 0, mod, imm, false⟩
def lw (d a b : Reg) (mod : BitVec 6 := 0) (imm33 : BitVec 33 := 0) : LArgs :=
  ⟨d, a, b, 0, 0, 0, 0, mod, Guard.always, Guard.always, false, imm33⟩
/-- A privileged team of 32 lanes on core 0, about to issue. -/
def team : Agent :=
  { Agent.blank with state := .run, allot := 96, pc := 0x1000, mask := BitVec.ofNat 1024 (2 ^ 32 - 1), priv := true, stackSize := 2800 }
/-- A forester context of grove 0, about to issue. -/
def wood : Agent := { team with kind := .forester, nlanes := 1, strand := 1, mask := 1, bound := 1 }
/-- A page of address 0 of address space 0, as every unit of grove 0 may hold it: readable, writable, of any level. -/
def tlb : Tab (List TlbEntry) := [0, 512, 640].map (fun u => (u, [⟨0, 0, 2 ^ 16, 0x1F⟩]))
/-- An address space entry that is valid. -/
def space : List Byte := (List.range 64).map (fun i => if i = 40 then 3 else 0)
/-- The device with one agent. -/
def one (a : Agent) : State := { State.reset with agents := [(1, a)], cur := 1, tlbs := tlb, asidCache := [(0, space)] }
/-- The agent issues each of these instructions. -/
def readyAll (s : State) (is : List Instr) : Bool := is.all (fun i => decide (Ready s s.me i))
def quietAll (s : State) (is : List Instr) : Bool := is.all (fun i => decide (Ready s s.me i) && decide (Quiet s s.me i))
/-- The next state, if there is one. -/
def nx (r : Host.Outcome State Fault Refusal) : Option State := match r with | .next t => some t | _ => none
/-- The instruction, issued in `s`, goes on with `t` (for a look at what the statements conclude). -/
def goes (i : Instr) (s t : State) : Bool := decide (Ready s s.me i) && nx (exec i s) == some (finish i s t (nextPc s.me i) [])
def goesTo (i : Instr) (s t : State) (pc : DWord) : Bool := decide (Ready s s.me i) && nx (exec i s) == some (finish i s t pc [])
def traps (i : Instr) (s : State) (c : Cause) (x : Nat) : Bool := decide (Ready s s.me i) && nx (exec i s) == some (takeTrap s s.cur c x)
def allOf (bs : List Bool) : Bool := bs.all id

/-! ### Ill-formed terms, one for each check -/
theorem wf_refuses : [Instr.mxWait (fw 0 2 0), .iadd (fw 1 2 3 4), .movi (fw 0 0 5), .icmp { fw 193 194 195 with g := ⟨false, 0, 3⟩ }, .iadd (fw 200 2 3),
    .nop { fw 0 0 0 with la := 1 }, .iadd { fw 1 2 3 with hint := 1 }, .iadd (fw 1 2 4 2),
    .pPair ⟨⟨.iadd, 4, 9, 0, 0⟩, ⟨.fmul, 4, 11, 0, 0⟩⟩, .pPair ⟨⟨.iadd, 4, 9, 1, 0⟩, ⟨.fmul, 6, 11, 0, 0⟩⟩, .pPair ⟨⟨.iadd, 4, 9, 0, 8⟩, ⟨.fmul, 6, 11, 0, 0⟩⟩].map Instr.WellFormed
    = [false, false, false, false, false, false, false, false, false, false, false] := by decide +kernel
theorem wf_accepts : [Instr.mxWait (fw 0 202 0), .iadd (fw 1 2 3), .movi (fw 0 0 5 0 true), .ld (fw 4 200 0 3), .pPair ⟨⟨.iadd, 4, 9, 0, 0⟩, ⟨.fmul, 6, 11, 0, 0⟩⟩].all Instr.WellFormed
    = true := by decide +kernel

/-! ### Words of the manual's encoding examples -/
def reads (ws : List DWord) (i : Instr) : Bool := (decode (wordBytes ws)).toOption == some (i, [])
theorem test_words_vector : [reads [0x0C000000003FC000] (.nop (fw 0 0 0)), reads [0x00D07030A03FC026] (.icmp (fw 7 3 10 9 true)),
    reads [0x04314151603FC004] (.ffma (fw 20 21 22 1)), reads [0x0A41E1F0003FC080] (.sred (fw 30 31 0 32)),
    reads [0x4002048012060B00] (.pPair ⟨⟨.iadd, 4, 9, 0, 0⟩, ⟨.fmul, 6, 11, 0, 0⟩⟩)].all id = true := by decide +kernel
theorem test_words_control : [reads [0x0C5000005001C000] (.divIf { fw 0 0 5 with g := ⟨false, 0, 7⟩ }),
    reads [0x8C10000000000000, 0xC0C8872400800000] (.braL { lw 0 0 0 0 0x800000 with g1 := ⟨false, 0, 200⟩, g2 := ⟨true, 1, 201⟩ })].all id = true := by decide +kernel
theorem test_words_memory : [reads [0x100CAC80003FC400] (.ld { fw 202 200 0 with la := 1 }), reads [0x10508041203FC8E2] (.atom { fw 8 4 0x12 0x38 true with la := 2 }),
    reads [0x10808041203FC022] (.red (fw 8 4 0x12 8 true)), reads [0x10909C40003FC420] (.atomag { fw 9 196 0 8 with la := 1 }),
    reads [0x981C2CCCED400006, 0xC0FF03FC00000000] (.cpyt { lw 194 204 206 6 with c := 212 })].all id = true := by decide +kernel
theorem test_words_sync : [reads [0x1C000000003FC004] (.pclose (fw 0 0 0 1)), reads [0x1C3C4C60003FC008] (.bclose (fw 196 198 0 2)),
    reads [0x1C900C00003FC004] (.barSync (fw 0 192 0 1))].all id = true := by decide +kernel
theorem test_words_matrix : [reads [0xAC1CAD4D60000000, 0xC0FF03FCC0C00410] (.mxMma { lw 202 212 214 with imm33 := 0x0C0C00410 }),
    reads [0x2C700CA0003FC000] (.mxWait (fw 0 202 0))].all id = true := by decide +kernel
theorem test_words_clearing : [reads [0x240C8C40003FC000] (.clrClaim (fw 200 196 0)), reads [0xA42C802040000000, 0xC0FF03FC0000BE00] (.clrTload (lw 200 2 4 0 0xBE00)),
    reads [0xA44C80200D400000, 0xC0FF03FC20000004] (.clrCall { lw 200 2 0 0 0x20000004 with c := 212 })].all id = true := by decide +kernel
theorem test_words_system : [reads [0x280C6001A03FC00A] (.rdsys (fw 198 0 0x1A 2 true)), reads [0x28100FE3003FC002] (.wrsys (fw 0 254 0x30 0 true)),
    reads [0x28200000503FC002] (.trap (fw 0 0 5 0 true)), reads [0x28300000003FC000] (.brk (fw 0 0 0)), reads [0x28400000003FC000] (.eret (fw 0 0 0)),
    reads [0x28500C4C603FC000] (.tlbi (fw 0 196 198)), reads [0x286C8CACC03FC000] (.ctxsv (fw 200 202 204)), reads [0x28800C70003FC000] (.sleep (fw 0 199 0)),
    reads [0x28900C30003FC000] (.wake (fw 0 195 0))].all id = true := by decide +kernel

/-! ### Worked cases of the manual -/
/-- R135; and the check value that IEEE 802.3's CRC is known by. -/
theorem test_crc : crc32c [0x31, 0x32, 0x33, 0x34, 0x35, 0x36, 0x37, 0x38, 0x39] = 0xE3069283 ∧
    crcIeee [0x31, 0x32, 0x33, 0x34, 0x35, 0x36, 0x37, 0x38, 0x39] = 0xCBF43926 := by decide +kernel
/-- The headers of chapters 23 and 24, and the register of the port in chapter 24. -/
theorem test_frame_heads : (rawFrame ⟨1000, 1000, 1, 2, false, 17, 5⟩ []).take 8 = [0x06, 0x7D, 0xE8, 0x2B, 0x10, 0x01, 0x88, 0xB5] ∧
    (rawFrame ⟨5, 17, 6, 3, false, 17, 0⟩ []).take 8 = [0x3B, 0x02, 0x05, 0x00, 0x10, 0x01, 0x88, 0xB5] := by decide +kernel
theorem test_fpctl : fpctl { Port.reset with pstate := 2, neigh := 411, lmask := 0xFF, width := 3 } = 0x866CFF30 := by decide +kernel
/-- The steps of chapter 26, and ROUTE_PAIR as chapter 22 reads it. -/
theorem test_bootst : bootst { State.reset with bootStage := 15 } = 0xF000A101 ∧ bootst { State.reset with bootStage := 2, bootFail := 0x100 } = 0x2100A101 := by
  decide +kernel
theorem test_route_pair : readRoutePair { State.reset with pairs := [(19, { Pair.reset with alost := true, active := 1, relayk := 13, losts := 1 })] } 19 = 0x240D0001 := by
  decide +kernel
/-- The walk of chapter 19. -/
theorem test_walk : (let s : State := { State.reset with
      device := 17, asidCache := [(3, toBytes 8 0x4000000000 ++ List.replicate 32 0 ++ toBytes 4 1 ++ List.replicate 20 0)]
      mem := Memory.writeCells [] ([(0x4000012340, 0x0000004000040001), (0x4000045678, 0x0000004000080405), (0x4000080448, 0x011000123456001F)].map
        (fun e => (toBytes 8 e.2).zipIdx.map (fun b => (e.1 + b.2, b.1)))).flatten }
    (xlate s 0 3 0x123456789ABCD .read true).toOption == some (17 * 2 ^ 40 + 0x123456ABCD) &&
      (match xlate s 0 3 0x123456789ABCD .fetch true with | .error m => m.cause == .pagePermission | _ => false)) = true := by decide +kernel
/-- The add of chapter 16, by the micro-words of R270: A and B in rows 0 to 2 and 8 to 10, column 0 in bit 0. -/
theorem test_add_row_cycles : (let code : List (BitVec 128) := [0x00000000000000200000000000000000, 0x0000000000000E6028009001A0018001, 0x00000000000000000000000000040000]
    let m : Mat := { Mat.zero with rows := [(0, 1), (1, 2), (2, 3), (8, 3), (9, 3), (10, 2)] }
    let p : CallArgs := { ba := 0, bb := 8, bd := 16, pg := false, args := [3] }
    let t := callTrace code p 100 0 0 0 []
    let r := runTrace p t.1 m
    t.1.length == 5 && t.2 == .done && r.elem 16 3 0 == 0 && r.elem 16 3 1 == 5 && r.c.getLsbD 0 && r.c.getLsbD 1) = true := by decide +kernel
/-- The schedule of chapter 24's five ranks. -/
theorem test_exchange : (List.range 5).map (fun t => (List.range 5).map (fun i => (collPartner 5 i t).getD 9)) =
    [[9, 4, 3, 2, 1], [2, 9, 0, 4, 3], [4, 3, 9, 1, 0], [1, 0, 4, 9, 2], [3, 2, 1, 0, 9]] := by decide +kernel

/-! ### Placed where the next step fetches it, a word runs -/
theorem test_first_step : (nx (step (State.reset.withFetchWord 64 0x0C000000003FC000))).map (fun t => (t.me.pc - (State.reset.withFetchWord 64 0x0C000000003FC000).me.pc)) = some 8 := by
  decide +kernel

/-! ### Witnesses: states and operands that meet the premises of the statements -/

/-- The agent with words of instructions at its pc, in a page that may be fetched. -/
def oneAt (a : Agent) (ws : List Nat) : State :=
  { one a with mem := Memory.writeCells [] ((ws.map (toBytes 8)).flatten.zipIdx.map (fun e => (0x1000 + e.2, e.1)))
               tlbs := [(0, [⟨0, 0, 2 ^ 16, 0x3F⟩]), (512, [⟨0, 0, 2 ^ 16, 0x3F⟩])] }
def nopWord : Nat := 0x0C000000003FC000
def nopI : Instr := .nop (fw 0 0 0)

theorem witness_StepRunsDecoded : allOf (
  let s : State := { oneAt { team with state := .ready } [nopWord] with agenda := [.slot 0 0] }
  let g : State := { oneAt { wood with state := .ready } [nopWord] with agenda := [.forester 0] }
  let ok := fun (s : State) => (match fetchWord (chosenBy s 1) ((chosenBy s 1).agent 1) (s.agent 1).pc.toNat with
      | .ok w => w.toNat == nopWord
      | _ => false)
    && (match decode (wordBytes [BitVec.ofNat 64 nopWord, 0]) with | .ok (i, _) => i == nopI | _ => false)
    && (match exec nopI (chosenBy s 1) with | .next t => t.issued | _ => false)
  [!coreStopped (slotState { s with agenda := [] } 0 0) 0, (g.die 0).relock.isNone, ok s, ok g,
   slotOrder (slotState { s with agenda := [] } 0 0) 0 0 == [1], foresterOrder { g with agenda := [] } 0 == [1],
   ((nx (step s)).map (fun t => (t.agent 1).pc.toNat)) == some 0x1008]) = true := by decide +kernel

theorem witness_IssueEnds : quietAll (one team) [nopI] = true := by decide +kernel
theorem witness_StepKeepsInv : Memory.wf State.reset.mem = true ∧ (nx (step State.reset)).isSome = true := by decide +kernel
theorem witness_TrapEntry : (Tab.find (one team).agents 1).isSome = true := by decide +kernel

/-- Early traps: the premises of the clauses of WordTraps. -/
def wordTrap (a : Agent) (i : Instr) (c : Cause) : Bool :=
  let s := one a
  (notYet s a i).isNone && (dueError a).isNone && (rowOf i).isSome && nx (exec i s) == some (takeTrap s 1 c 0)
def pairTrap (a : Agent) (i : Instr) (c : Cause) : Bool :=
  (notYet (one a) a i).isNone && (dueError a).isNone && nx (exec i (one a)) == some (takeTrap (one a) 1 c 0)
theorem witness_WordTraps : allOf [
    wordTrap { wood with priv := false } (.eret (fw 0 0 0)) .privilege, wordTrap wood (.eret (fw 1 0 0)) .reservedField,
    pairTrap wood (.iadd (fw 1 2 3)) .illegalOpcode, pairTrap wood (.pPair ⟨⟨.iadd, 194, 199, 0, 0⟩, ⟨.fmul, 196, 201, 0, 0⟩⟩) .illegalFrame,
    pairTrap team (.pPair ⟨⟨.iadd, 4, 9, 1, 0⟩, ⟨.fmul, 6, 11, 0, 0⟩⟩) .reservedField,
    pairTrap team (.pPair ⟨⟨.iadd, 4, 9, 0, 0⟩, ⟨.fmul, 4, 11, 0, 0⟩⟩) .pairConflict,
    fetch (oneAt team [0x4000000000000000 + 24 * 2 ^ 55]) team == .trap .illegalOpcode 0,
    fetch (oneAt team [0x4000000000000000 + 24 * 2 ^ 24]) team == .trap .illegalOpcode 0,
    -- a dense macro-operation in frame 0: of a team, and of a forester; and an opcode of frame 0 in frame 10, the same
    fetch (oneAt team [0x2C10000000000000]) team == .trap .illegalOpcode 0, fetch (oneAt wood [0x2C1C8CAD003FC000]) wood == .trap .illegalFrame 0,
    fetch (oneAt team [0x8C00000000000000, 0xC000000000000000]) team == .trap .illegalFrame 0,
    fetch (oneAt wood [0x8C40000000000000, 0xC000000000000000]) wood == .trap .illegalOpcode 0,
    fetch (oneAt team [0xBFF0000000000000, 0xC000000000000000]) team == .trap .illegalOpcode 0,
    wordTrap team (.mxZero (fw 192 194 1 0 true)) .illegalOpcode, wordTrap wood (.divJoin (fw 0 0 0)) .illegalOpcode,
    wordTrap { team with priv := false } (.eret (fw 0 0 0)) .privilege, wordTrap team (.eret (fw 1 0 0)) .reservedField,
    wordTrap team (.iadd (fw 1 2 100)) .reservedField,
    fetch (oneAt team [0xC000000000000000]) team == .trap .illegalFrame 0,
    fetch (oneAt team [0x8C10000000000000, nopWord]) team == .trap .illegalFrame 0,
    fetch (oneAt team [0x3FF0000000000000]) team == .trap .illegalOpcode 0] = true := by decide +kernel

theorem witness_IntegerResults : quietAll (one team) ([Instr.iadd, .isub, .imul, .imad, .imulh, .idp4, .imin, .imax, .andB, .orB, .xorB,
    .andn].map (· (fw 1 2 3)) ++ [.notB (fw 1 2 0), .mov (fw 1 2 0), .movi (fw 1 0 5 0 true)]) = true := by decide +kernel
theorem witness_ShiftFieldResults : quietAll (one team) ([Instr.shl, .shr, .sar, .rot, .bfx, .bfi, .icmp, .sel].map (· (fw 1 2 3)) ++
    [Instr.popc, .clz, .ctz, .brev].map (· (fw 1 2 0)) ++ [.lea (fw 2 4 3), .movw (lw 1 0 0)]) = true := by decide +kernel
theorem witness_Saturating : quietAll (one team)
    [.iadds (fw 1 2 3), .iabs (fw 1 2 0 4), .ineg (fw 1 2 0 4), .iabs (fw 1 2 0), .ineg (fw 1 2 0)] = true := by decide +kernel
theorem witness_StepKeepsMasks : MaskInv (one team) ∧ (nx (step { oneAt { team with state := .ready } [nopWord] with agenda := [.slot 0 0] })).isSome = true := by
  refine ⟨fun k a h _ => ?_, by decide +kernel⟩
  have e : a = team := by
    simp only [one, Tab.find, List.find?, List.map] at h
    split at h <;> simp_all
  subst e
  exact ⟨by decide +kernel, by simp [team, Agent.blank]⟩
theorem witness_Division : readyAll (one team) [.idiv (fw 1 2 3), .irem (fw 1 2 3)] = true := by decide +kernel

/-- An outstanding result for v4 in lane 0. -/
def due : LAEntry :=
  { token := 7, parks := false, mem := false, dest := 4, nreg := 1, remain := 0, done := false, lanes := 1, taint := 0, values := [9]
    sext := 0, srcs := [], flags := [4], err := none, atTrap := 0, tags := [], sites := [], phase := 0, num := 0 }
theorem witness_LongArithmetic : allOf [
    readyAll (one team) ([Instr.fdiv].map (· (fw 1 2 3)) ++
      [Instr.fsqrt, .frcp, .frsq, .fexp2, .flog2, .fsin, .fcos, .ftanh].map (· (fw 1 2 0))),
    let a := { team with lahead := [due] }
    !entryOpen (one a) 1 due && (match exec (.longLatencyCompletion 1 7) (one a) with
      | .next t => regGet (t.agent 1) 4 0 == 9 && (t.agent 1).fstat == 4
      | _ => false),
    -- within its window the registers wait, and the flags do not
    (let a := { team with lahead := [{ due with remain := 2 }] }
     !entryOpen (one a) 1 due && (match exec (.longLatencyCompletion 1 7) (one a) with
      | .next t => regGet (t.agent 1) 4 0 == 0 && (t.agent 1).fstat == 4 && (t.agent 1).lahead.all (fun e => e.done && e.remain == 2)
      | _ => false)),
    (let a := { team with lahead := [{ due with remain := 1, done := true }] }
     let t := finish nopI (one a) (one a) 0x1008 []
     (writeParts (one a) a nopI).all (fun p => p.1.isEmpty) && regGet (t.agent 1) 4 0 == 9 && (t.agent 1).lahead.isEmpty)] = true := by decide +kernel
theorem witness_RegisterFrame : quietAll (one team) [.iadds (fw 1 2 3), .movi (fw 1 0 5 0 true), .cvt (fw 1 2 0 0 true), .shfl (fw 1 2 3),
    .bcast (fw 1 2 193), .vote (fw 200 2 193), .sred (fw 200 2 0), .sscan (fw 1 2 0), .ballot (fw 200 2 193), .matchLanes (fw 1 2 0),
    .pPair ⟨⟨.iadd, 4, 9, 0, 0⟩, ⟨.fmul, 6, 11, 0, 0⟩⟩, .cvtq (fw 1 2 3), .cvtd (fw 1 2 3)] = true := by
  decide +kernel
theorem witness_FloatResults : quietAll (one team) ([Instr.fadd, .fsub, .fmul, .ffma, .fmin, .fmax, .fcmp, .fscale].map (· (fw 1 2 3)) ++
    [Instr.fclass, .frnd].map (· (fw 1 2 0))) = true := by decide +kernel
/-- Codes of BF16: 1, 2, 3, 1 + 2^-7, the largest number, infinity, a signalling NaN; results by hand from R97 to R101. -/
theorem witness_FloatFunctions : allOf [
    decide (vectorFmt bf16), faddC bf16 0 0x3F80 0x3F80 == (0x4000, 0), faddC bf16 0 0x4380 0x3F80 == (0x4380, flagNX), faddC bf16 2 0x4380 0x3F80 == (0x4381, flagNX),
    faddC bf16 3 0x3F80 0xBF80 == (0x8000, 0), faddC bf16 0 0x3F80 0xBF80 == (0, 0), faddC bf16 0 0x7F80 0xFF80 == (0x7FC0, flagNV),
    faddC bf16 0 0x7F7F 0x7F7F == (0x7F80, flagOF ||| flagNX), faddC bf16 1 0x7F7F 0x7F7F == (0x7F7F, flagOF ||| flagNX),
    fmulC bf16 0 0x7F80 0 == (0x7FC0, flagNV), fmulC bf16 0 0x4000 0xC040 == (0xC0C0, 0), fmulC bf16 0 0x0080 0x0080 == (0, flagUF ||| flagNX),
    fdivC bf16 0 0x3F80 0x8000 == (0xFF80, flagDZ), fdivC bf16 0 0 0 == (0x7FC0, flagNV), fdivC bf16 0 0x40C0 0x4000 == (0x4040, 0),
    ffmaC bf16 0 0x3F81 0x3F81 0xBF82 == (0x3880, 0), ffmaC bf16 0 0x7F80 0 0x7FC0 == (0x7FC0, flagNV), fsqrtC bf16 0 0x4080 == (0x4000, 0),
    fsqrtC bf16 0 0xBF80 == (0x7FC0, flagNV), fsqrtC bf16 0 0x8000 == (0x8000, 0), frndC fp32 0 0x40200000 == (0x40000000, 0), frndC fp32 2 0x40200000 == (0x40400000, 0),
    frndC fp32 2 0xBF000000 == (0x80000000, 0), fscaleC fp32 0 0x3F800000 (-149) == (1, 0), fscaleC fp32 0 0x3F800000 128 == (0x7F800000, flagOF ||| flagNX),
    fcmpC fp32 2 0x7FC00000 0 == (false, flagNV), fcmpC fp32 0 0x80000000 0 == (true, 0), fclassC bf16 0x7F81 == 2 ^ 8, fclassC bf16 0x8001 == 2 ^ 2,
    fminmaxC fp32 false 0x80000000 0 == (0x80000000, 0), fminmaxC fp32 true 0x7F800001 0x3F800000 == (0x3F800000, flagNV)] = true := by decide +kernel
theorem witness_FloatSigns : quietAll (one team) [.fabs (fw 1 2 0), .fneg (fw 1 2 0), .fmin (fw 1 2 3), .fmax (fw 1 2 3)] = true := by
  decide +kernel
theorem witness_CrossLaneResults : quietAll (one team) [.shfl (fw 1 2 3), .bcast (fw 1 2 193), .ballot (fw 1 2 193), .matchLanes (fw 1 2 0),
    .vote (fw 1 2 3), .sred (fw 1 2 0), .sscan (fw 1 2 0), .ballot (fw 200 2 193), .vote (fw 200 2 193), .sred (fw 200 2 0)] = true ∧
    maskBad team 1 = false ∧ maskBad team 200 = false ∧ 0 < team.strand ∧
    (let a := { team with nlanes := 64, strand := 64 }; maskBad a 1 = true ∧ traps (.ballot (fw 1 2 193)) (one a) .reservedField 0 = true) := by decide +kernel
theorem witness_PairResults : quietAll (one team) [.pPair ⟨⟨.iadd, 4, 9, 0, 0⟩, ⟨.fmul, 6, 11, 0, 0⟩⟩,
    .pPair ⟨⟨.movi, 4, 9, 0, 0⟩, ⟨.mov, 5, 192, 0, 0⟩⟩] = true := by decide +kernel

/-- `n` bytes, zero but for fields given as offset, length and value. -/
def bytesOf (n : Nat) (fs : List (Nat × Nat × Nat)) : List Byte :=
  fs.foldl (fun bs f => bs.take f.1 ++ toBytes f.2.1 f.2.2 ++ bs.drop (f.1 + f.2.1)) (List.replicate n 0)
/-- A launch record of one workgroup of one team of 32 lanes; slots 0, 2, 3, 4 are BF16, INT8, INT4 and E2M1, slot 1 is unbound. -/
def rec0 : List Byte := bytesOf 256 [(0, 4, 1), (4, 2, 1), (6, 2, 1), (8, 2, 32), (10, 1, 32), (24, 8, 0x4000), (32, 4, 8), (64, 8, 0x1000), (84, 1, 1), (85, 1, 4),
  (160, 8, 0x1000000000000000), (176, 8, 0x8000000000000000), (184, 8, 0x9000000000000000), (192, 8, 0x7000000000000000)]
def grid0 : Grid :=
  { gridId := 1, asid := 0, record := rec0, depth := 0, prio := 0, parent := none, cmd := none, order := 0, producer := none, placed := [0]
    retired := 0, stopped := false, eligible := [0], done := false, status := 0, view := []
    mark := 0, openScope := 2, members := [1] }
/-- The device with one agent of a grid. -/
def oneG (a : Agent) : State := { one a with grids := [(0, grid0)], nextOrder := 1 }

theorem witness_ConversionResults : allOf (
  let s := oneG team
  let slot := slotOf s 0 0
  [quietAll s [.cvt (fw 1 2 0 0 true), .pack (fw 1 2 3), .unpk (fw 1 2 3)], readyAll s [.cvtq (fw 1 2 3), .cvtd (fw 1 2 3)],
   !slotBad slot, (readBook s team slot).toOption == some ([], []), readAway s team [] == none,
   decide (1 + cvtRegs (slotFmt slot) ≤ 96 ∧ 2 + cvtValues (slotFmt slot) ≤ 96),
   goes (.cvtq (fw 1 2 3)) s (s.setMe (quantise [] slot (fw 1 2 3) (readNoted s team []))),
   goes (.cvtd (fw 1 2 3)) s (s.setMe (dequantise [] slot (fw 1 2 3) (readNoted s team []))),
   slotBad (slotOf s 0 1), traps (.cvtq (fw 1 2 3 1)) s .formatSlot 0, traps (.cvtd (fw 1 2 3 1)) s .formatSlot 0]) = true := by
  decide +kernel

/-- An agent with s-register values. -/
def withS (a : Agent) (rs : List (Nat × Word)) : Agent := { a with sregs := rs.foldl (fun t r => Tab.put t r.1 r.2) a.sregs }
def gd (f : FArgs) (neg : Bool) (r : Reg) : FArgs := { f with g := ⟨neg, 0, r⟩ }

theorem witness_BranchResults : allOf (
  let a := withS team [(2, 0x2000), (6, 0x2004)]
  let s := one a
  let off := fun (f : FArgs) => gd f true 0xFF
  let x : LArgs := lw 0 0 0 0 5
  [goes nopI s s, goesTo (.bra (fw 0 0 5)) s s (a.pc + 40), goesTo (.bra (fw 255 255 254)) s s (a.pc - 16), goes (.bra (off (fw 0 0 5))) s s,
   goesTo (.braL x) s s (a.pc + 40), goes (.braL { x with g1 := ⟨true, 0, 0xFF⟩ }) s s,
   goesTo (.brx (fw 0 194 0)) s s 0x2000, traps (.brx (fw 0 198 0)) s .misaligned 0x2004, goes (.brx (off (fw 0 194 0))) s s,
   goesTo (.call (fw 0 0 5)) s (s.setMe (sPut a 60 0x1008)) (a.pc + 40), goes (.call (off (fw 0 0 5))) s s,
   goesTo (.ret (fw 0 194 0)) s s 0x2000, traps (.ret (fw 0 198 0)) s .misaligned 0x2004, goes (.ret (off (fw 0 194 0))) s s,
   goes (.yieldTeam (fw 0 0 0)) s (yieldAgent s 1), goes (.yieldTeam (off (fw 0 0 0))) s s]) = true := by decide +kernel

/-- A mask stack entry. -/
def ent (k : Region) (alt : Mask) : MaskEntry := ⟨team.mask, alt, k, 0x3000, false⟩
/-- The cases of witness_DivergenceResults. -/
def divChecks : List Bool :=
  -- s0 bit 0 set: the condition holds in every lane; without it in none
  let on := withS team [(0, 1)]
  let c := fun (f : FArgs) => { f with g := ⟨false, 0, 192⟩ }
  let iff := c (fw 0 0 5)
  let e : MaskEntry := ⟨on.mask, 0, .ifArm, branchTarget on iff, false⟩
  let e' : MaskEntry := ⟨team.mask, team.mask, .ifArm, branchTarget team iff, false⟩
  let stk := fun (a : Agent) (es : List MaskEntry) => { a with stack := es }
  let full := stk on (List.replicate 16 (ent .loop 1))
  [goes (.divIf iff) (one on) ((one on).setMe { on with stack := [e], mask := on.mask }),
   goesTo (.divIf iff) (one team) ((one team).setMe { team with stack := [e'] }) (branchTarget team iff),
   (let a := stk team [ent .ifArm 3]; goes (.divElse (fw 0 0 5)) (one a) ((one a).setMe { a with stack := [ent .elseArm 3], mask := 3 })),
   (let a := stk team [ent .ifArm 0]; goesTo (.divElse (fw 0 0 5)) (one a) ((one a).setMe { a with stack := [ent .elseArm 0] }) (branchTarget a (fw 0 0 5))),
   (let a := stk { team with mask := 3 } [ent .elseArm 0]; goes (.divJoin (fw 0 0 0)) (one a) ((one a).setMe { a with mask := team.mask, stack := [] })),
   goesTo (.divLoop iff) (one team) (one team) (branchTarget team iff),
   goes (.divLoop iff) (one on) ((one on).setMe { on with stack := [⟨on.mask, 0, .loop, on.pc + 8, false⟩] }),
   (let a := stk on [ent .loop 1]; goes (.divBrk (c (fw 0 0 0))) (one a) ((one a).setMe { a with stack := [ent .loop (1 ||| a.mask)], mask := 0 })),
   (let a := stk on [ent .loop 1]; goesTo (.divNext (c (fw 0 0 0))) (one a) ((one a).setMe a) 0x3000),
   (let a := stk team [ent .loop 1]; goes (.divNext (c (fw 0 0 0))) (one a) (popEntry (one a) { a with mask := team.mask })),
   pushEntry full e == some { full with stack := e :: full.stack.dropLast, spilled := [ent .loop 1] },
   (let a := { full with stackSize := 0 }; (pushEntry a e).isNone && traps (.divIf iff) (one a) .stackOverflow 0
    && traps (.divLoop iff) (one a) .stackOverflow 0),
   (let a := stk on [{ ent .loop 1 with addr := 0x3004 }]; traps (.divNext (c (fw 0 0 0))) (one a) .misaligned 0x3004),
   -- no top, or one of another kind; and DIV.BRK with no loop entry
   [Instr.divElse (fw 0 0 5), .divJoin (fw 0 0 0), .divNext (c (fw 0 0 0)), .divBrk (c (fw 0 0 0))].all (fun i => goes i (one on) (one on)),
   (let a := stk on [ent .elseArm 1]; goes (.divElse (fw 0 0 5)) (one a) (one a) && goes (.divNext (c (fw 0 0 0))) (one a) (one a)
    && goes (.divBrk (c (fw 0 0 0))) (one a) (one a)),
   (let a := stk on [ent .loop 1]; goes (.divJoin (fw 0 0 0)) (one a) (one a)),
   -- DIV.BRK below an entry of an arm; entries in the stack area alone
   (let a := stk { on with mask := 3 } [ent .ifArm 6, ent .loop 8]
    goes (.divBrk (c (fw 0 0 0))) (one a) ((one a).setMe { a with mask := 0, stack := [{ ent .ifArm 4 with outer := team.mask &&& ~~~3 }, ent .loop 11] })),
   (let a := { team with spilled := [ent .ifArm 3] }
    goes (.divElse (fw 0 0 5)) (one a) (((one a).used 3).setMe { a with mask := 3, spilled := [ent .elseArm 3] })
       && decide (Ready (one a) a (.divJoin (fw 0 0 0)))),
   (let a := { stk team [ent .ifArm 3] with spilled := [ent .ifArm 0] }; decide (Ready (one a) a (.divJoin (fw 0 0 0))))]
theorem witness_DivergenceResults : allOf divChecks = true := by decide +kernel

/-- Entries in the stack area: alone there, and under one in hardware. -/
def spilledAlone : Agent := { team with spilled := [ent .ifArm 3] }
def spilledBelow : Agent := { team with stack := [ent .ifArm 3], spilled := [ent .ifArm 0] }
/-- DIV.JOIN of an entry of the stack area, and a pop that refills. -/
theorem witness_Refills :
    exec (.divJoin (fw 0 0 0)) (one spilledAlone) = .next (finish (.divJoin (fw 0 0 0)) (one spilledAlone)
      (popEntry ((one spilledAlone).used 3) { leaveBytes { spilledAlone with mask := team.mask } 0 (ent .ifArm 3) with stack := [ent .ifArm 3], spilled := [] })
      (nextPc spilledAlone (.divJoin (fw 0 0 0))) []) ∧
    exec (.divJoin (fw 0 0 0)) (one spilledBelow) = .next (finish (.divJoin (fw 0 0 0)) (one spilledBelow)
      (popEntry (one spilledBelow) { spilledBelow with mask := team.mask }) (nextPc spilledBelow (.divJoin (fw 0 0 0))) []) ∧
    popEntry (one spilledBelow) spilledBelow =
      ((one spilledBelow).setMe { leaveBytes spilledBelow 0 (ent .ifArm 0) with stack := [ent .ifArm 0], spilled := [] }).used 3 :=
  ⟨rfl, rfl, rfl⟩

theorem witness_ChildGridResults : allOf (
  let a := withS team [(2, 0x5000), (4, 0x5000)]
  let good : State := { oneG a with mem := Memory.writeCells [] (rec0.zipIdx.map (fun e => (0x5000 + e.2, e.1))) }
  let bad := oneG a
  let i : Instr := .launch (fw 200 194 0)
  let r := fun (s : State) => (readAtIssue s a 0x5000 256).toOption
  let locs := (List.range 256).map (0x5000 + ·)
  let x : Instr := .exit (fw 0 0 0)
  let d := drainAll (one team) 1
  let child : State := { oneG a with grids := [(0, grid0), (1, { grid0 with parent := some (1, 0, 0) })] }
  [decide (Ready (one team) team x), guardOn team x, closeNowFree d d.cur, nx (exec x (one team)) == some (dropAgent (closeNow d d.cur 1) d.cur).marked,
   (let j : Instr := .launch (gd (fw 200 194 0) true 0xFF); actLanes a j == [] && goes j good good),
   (actLanes a i).head? == some 0, r good == some (rec0, locs), readAway good a locs == none, recordOk good rec0 true, decide (Ready good a i),
   (r bad).any (fun e => !recordOk bad e.1 true && (readAway bad a e.2).isNone) && decide (Ready bad a i),
   (let b := { a with depth := 10 }; traps i { good with agents := [(1, b)] } .nestDepth 0),
   (childrenOf (oneG a) 1 a).isEmpty && goes (.cwait (fw 200 0 0)) (oneG a) (openPhase ((oneG a).setMe { wrN a 200 1 (fun _ => some 0) with refused := 0 }) 1 2),
   !(childrenOf child 1 a).isEmpty && decide (Ready child a (.cwait (fw 200 0 0))) &&
     nx (exec (.cwait (fw 200 0 0)) child) == some (finishHold (.cwait (fw 200 0 0)) child),
   (let w : State := { child with agents := [(1, { a with counted := true })] }
    nx (exec (.cwait (fw 200 0 0)) w) == some (w.setMe w.me.unchosen)),
   (let b := withS team [(2, 0x5001)]; traps (.launch (fw 200 194 0)) (oneG b) .misaligned 0x5001),
   (let b := { a with mask := 0 }; goes (.launch (fw 200 194 0)) (oneG b) (oneG b)), goes (.exit (gd (fw 0 0 0) true 0xFF)) (one team) (one team),
   goes (.cwait (gd (fw 200 0 0) true 0xFF)) (oneG a) (oneG a)]) = true := by decide +kernel

/-- A state with `n` live child grids and a good record for the team to launch. -/
def launchRoom (n : Nat) : State :=
  let s := oneG (withS team [(2, 0x5000), (4, 0x5000)])
  { s with
    mem := Memory.writeCells [] (rec0.zipIdx.map (fun e => (0x5000 + e.2, e.1)))
    grids := (0, grid0) :: List.replicate n (1, { grid0 with parent := some (9, 0, 0) }) }

/-- LAUNCH at the limit of 4,096 live child grids: what the record's clause asks of the state, and the limit reached. -/
theorem witness_LaunchLimit : allOf (
  let s := launchRoom 4096
  let a := withS team [(2, 0x5000), (4, 0x5000)]
  let locs := (List.range 256).map (0x5000 + ·)
  [decide (Ready s a (.launch (fw 200 194 0))), (readAtIssue s a 0x5000 256).toOption == some (rec0, locs), readAway s a locs == none,
   a.depth != 10]) = true := by decide +kernel
theorem witness_LaunchLimitReached : 4096 ≤ ((launchRoom 4096).grids.filter (fun e => e.2.parent.isSome && !e.2.done)).length := by
  rw [launchRoom, List.filter_cons_of_neg (by decide), List.filter_replicate_of_pos (by decide), List.length_replicate]

/-- A team of two lanes whose pair v2, v3 holds addresses of the page and v8, v9 their scratchpad and table addresses. -/
def mover : Agent :=
  { withS team [(4, 0x2000), (6, 0), (9, 3)] with
    mask := 3
    vregs := [(2, (List.range 32).map (fun l => BitVec.ofNat 32 (0x2000 + 16 * l))), (3, []), (6, [0xAABBCCDD, 0x11223344]), (8, [0x40, 0x80])] }
def lanesOf (s : State) (i : Instr) (n : Nat) (p : Perm) : Option (List (Nat × Nat × List Nat)) :=
  (xlateLanes s s.me (globalEas s.me i 2 0) n p).toOption
def startsAt (s : State) (i : Instr) (d : Reg) : Bool :=
  decide (Ready s s.me i) && (match exec i s with | .next t => t.me.lahead.any (fun e => e.dest == d && !e.done) && t.me.pc == nextPc s.me i | _ => false)
def memOk (s : State) : Bool := decide (Settled s) && tokenFree s s.me && (sideEntries s s.cur).isEmpty

theorem witness_LoadResults : allOf (
  let s := one mover
  let g := oneG mover
  let i : Instr := .ld (fw 6 2 0)
  let k : Instr := .ldk (fw 6 8 0)
  let small : State := { g with grids := [(0, { grid0 with record := bytesOf 256 [(24, 8, 0x4000), (32, 4, 0x42)] })] }
  let big : State := { g with grids := [(0, { grid0 with record := bytesOf 256 [(24, 8, 0x4000), (32, 4, 0x1000)] })] }
  [memOk s, startsAt s i 6, (rangeFault (globalEas mover i 2 0) 4).isNone, (lanesOf s i 4 .read).isSome,
   startsAt s (.ldL (lw 6 2 0)) 6, (loadByte s mover 0x2000 0x2000).isSome && (fracture s mover 0x2000).isEmpty && !poisoned s mover 0x2000,
   traps k small .pagePermission 0x4040, memOk big && startsAt big k 6 && !racedFor big 0 0x4040,
   (let m : State := { big with mem := [(0x4040, 7)] }
    (nx (exec k m)).any (fun t => t.me.lahead.any (fun e => e.dest == 6 && (e.values[0]?) == some 7 && e.taint == 0)))]) = true := by decide +kernel

theorem witness_StoreResults : allOf (
  let s := one mover
  let i : Instr := .st (fw 6 2 0)
  [memOk s, decide (Quiet s mover i), (lanesOf s i 4 .write).isSome, decide (Ready s mover (.stL (lw 6 2 0))),
   (lanesOf s i 4 .write).any (fun ls => goes i s (performStore (fillTlbs s mover.unit 0 ((globalEas mover i 2 0).map (·.2))) mover
     (((storeCells mover 6 1 4 (globalEas mover i 2 0)).zip (ls.map (·.2.2)).flatten).map (fun c => (c.1.1, c.2, c.1.2)))))]) = true := by
  decide +kernel

theorem witness_StoreSeen : allOf (
  let s := performStore (one mover) mover [(0x2000, 0x2000, 7), (0x2001, 0x2001, 8), (0x2000, 0x2000, 9)]
  [seeByte s s.me 0x2000 == some 9, seeByte s s.me 0x2001 == some 8, seeByte s s.me 0x2002 == some 0]) = true := by decide +kernel

/-- The workgroup of the grid holds banks 0 and 1 as scratchpad and bank 28 as FIFO. -/
def oneW (a : Agent) : State :=
  { one a with grids := [(0, { grid0 with record := bytesOf 256 [(36, 4, 3), (40, 4, 0x10000000)] })]
               wgs := [(0, ⟨0, 0, 0, 0, false, false, 0, [], []⟩)] }
theorem witness_ScratchResults : allOf (
  let s := oneW mover
  let eas := scratchEas mover (.lds (fw 6 8 0)) 8 0
  let far := one mover
  [memOk s, (scratchBad s mover eas 4).isNone, startsAt s (.lds (fw 6 8 0)) 6, startsAt s (.ldsL (lw 6 8 0)) 6,
   decide (Ready s mover (.sts (fw 6 8 0)) ∧ Ready s mover (.stsL (lw 6 8 0))),
   (let cells := storeCells mover 6 1 4 eas
    (nx (exec (.sts (fw 6 8 0)) s)).any (fun t => t.posted.isEmpty && t.core 0 == (s.core 0).store (cells.map (fun x => (x.1 % 2 ^ 21, x.2))))),
   (let a := { mover with vregs := Tab.put mover.vregs 8 [0x200040, 0x40] }
    let s := oneW a
    (scratchBad s a (scratchEas a (.sts (fw 6 8 0)) 8 0) 4).isNone && (match exec (.stsL (lw 6 8 0)) s with
      | .next t => t.posted.map (fun e => e.2.job) == [.scratch 1 [(0x40, 0xDD), (0x41, 0xCC), (0x42, 0xBB), (0x43, 0xAA)]]
          && (t.core 0).scratchByte 0x40 == 0x44 && t.me.pc == nextPc a (.stsL (lw 6 8 0))
      | _ => false)),
   (storeCells mover 6 1 4 eas).all (fun c => ownPort mover c.1), eas.find? (fun e => e.1 == 1) == some (1, 0x80),
   (scratchBad far mover eas 4) == some 0x40, traps (.lds (fw 6 8 0)) far .bankMode 0x40, traps (.sts (fw 6 8 0)) far .bankMode 0x40]) = true := by
  decide +kernel

theorem witness_AtomicResults : allOf (
  let s := one mover
  let w : BitVec 8 := 0x12
  let odd : Agent := { mover with vregs := Tab.put mover.vregs 2 [0x2001, 0x2004], sregs := Tab.put mover.sregs 4 0x2002 }
  let at_ := fun (i : Instr) => memOk s && startsAt s i 8
  let closing := drainAll s 1
  [(let f := fw 8 2 w 0x38 true; decide (2 ≤ modOrd f.mod) && (unplaceable closing 1).isNone && closeNowFree closing 1
      && !closesPending (closeNow closing 1 (modScope f.mod)) 1 && at_ (.atom f)),
   at_ (.atom (fw 8 2 w 0 true)), at_ (.atomf (fw 8 2 0x82 0 true)), at_ (.atomc (fw 8 2 6)), at_ (.atomag (fw 8 196 0)),
   traps (.atom (fw 8 2 w 0 true)) (one odd) .misaligned 0x2001, traps (.atomf (fw 8 2 0x82 0 true)) (one odd) .misaligned 0x2001,
   traps (.atomc (fw 8 2 6)) (one odd) .misaligned 0x2001, traps (.atomag (fw 8 196 0)) (one odd) .misaligned 0x2002,
   (let j : Instr := .atomag (gd (fw 8 196 0) true 0xFF); actLanes mover j == [] && goes j s s)]) = true := by decide +kernel

theorem witness_PostedAndFifo : allOf (
  let s := oneW mover
  let f : BitVec 6 := 28
  let i : Instr := .red (fw 8 2 0x12 0 true)
  let full : State := s.setCore 0 { s.core 0 with fifos := [(28, [5, 6, 7])] }
  let far := one mover
  let off := fun (f : FArgs) => gd f true 0xFF
  let bank := fun (b : BitVec 8) => Instr.bankset (fw 0 201 b 0 true)
  [memOk s, decide (Ready s mover i), (lanesOf s i 4 .update).isSome, (match exec i s with | .next t => t.posted.length == 2 | _ => false),
   (let f := fw 8 2 0x12 0x28 true; decide (2 ≤ modOrd f.mod) && (nx (exec (.red f) s)).any (fun t => t.posted.length == 2 && t.me.pc == nextPc mover (.red f))),
   goes (.red (gd (fw 8 2 0x12 0 true) true 0xFF)) s s, !fifoBad s mover 28, decide (Ready s mover (.fpush (fw 0 6 0 f)) ∧ Ready s mover (.fpop (fw 6 0 0 f))),
   (match exec (.fpop (fw 6 0 0 f)) full with | .next t => regGet t.me 6 0 == 5 && regGet t.me 6 1 == 6 && Tab.get (t.core 0).fifos 28 [] == [7] | _ => false),
   traps (.fpush (fw 0 6 0 f)) far .bankMode 0, traps (.fpop (fw 6 0 0 f)) far .bankMode 0,
   goes (.pref (fw 0 2 0)) s s, goes (.cwb (fw 0 2 0)) s s, goes (.cinv (fw 0 2 0)) s s,
   goes (bank 1) far far,
   (match exec (bank 2) far with
    | .next t => heldByEvent t.me && t.me.pc == 0x1000 && (t.core 0).mode 0 == 2 && (t.core 0).mode 1 == 2 && (match exec (.bankDrainEnd 1) t with
      | .next u => u.me.pc == 0x1008 && u.me.hold == .none
      | _ => false)
    | _ => false),
   (let a := withS mover [(9, 0xFFFFFFFF)]; traps (.bankset (fw 0 201 0 0 true)) (one a) .bankMode 0),
   decide (Ready far mover (bank 2)) && guardOn mover (bank 2) && decide (cacheBanks (setBanks (far.core 0) [0, 1] 2) ≤ 24),
   decide (Ready s mover (.fpop (fw 6 0 0 f))) && nx (exec (.fpop (fw 6 0 0 f)) s) == some (s.setMe mover.heldBack),
   -- banks that a resident workgroup holds, and one that a macro-operation names
   bitN (heldBanks s 0) 0 && traps (bank 2) s .bankMode 0,
   (let a := withS team [(9, 1)]
    let l : Instr := .mxLdacc (lw 200 208 0 0 0x400001)
    let w : State := { one a with agents := [(1, a), (2, { wood with state := .ready, mxq := [⟨1, l, [0, 0], 1, true, 0, [], 0, [], []⟩] })] }
    (mxBanks w 0).contains 0 && traps (bank 0) w .bankMode 0),
   (actLanes mover (.atomag (off (fw 8 196 0)))).isEmpty, goes (.bankset (gd (fw 0 201 2 0 true) true 0xFF)) s s]) = true := by decide +kernel
/-- A FIFO bank that is full. -/
theorem witness_FifoFull : let s : State := (oneW mover).setCore 0 { (oneW mover).core 0 with fifos := [(28, List.replicate 16384 0)] }
    Ready s mover (.fpush (fw 0 6 0 28)) ∧ fifoBad s mover 28 = false ∧
      16384 < (Tab.get (s.core 0).fifos 28 []).length + (actLanes mover (.fpush (fw 0 6 0 28))).length := by
  refine ⟨by decide +kernel, by decide +kernel, ?_⟩
  have e : Tab.get (((oneW mover).setCore 0 { (oneW mover).core 0 with fifos := [(28, List.replicate 16384 0)] }).core 0).fifos 28 [] = List.replicate 16384 0 := rfl
  have n : (actLanes mover (.fpush (fw 0 6 0 28))).length = 2 := by decide +kernel
  simp only [e, n, List.length_replicate]
  decide

/-- A ring of 16-byte slots with 4 of them, and the device whose agent's workgroup has it under handle 0. -/
def ring0 : Ring := { wg := 0, buf := 0x40, ssize := 16, scount := 4, wseq := 0, rseq := 0, aseq := 0, slots := [] }
def oneR (a : Agent) (r : Ring) : State :=
  { one a with grids := [(0, { grid0 with record := bytesOf 256 [(36, 4, 3)] })], groves := [(0, { Grove.reset with rings := [(0, r)] })]
               wgs := [(0, ⟨0, 0, 0, 0, false, false, 0, [], []⟩)] }
/-- A one-dimensional tensor of 64 bytes at 0x3000, its box of 16 elements, as a descriptor at 0x2000. -/
def desc0 : List Byte := bytesOf 64 [(0, 8, 0x3000), (8, 4, 64), (44, 2, 15), (55, 1, 1)]

theorem witness_CopyResults : allOf (
  let a := { withS team [(0, 0), (2, 0x2000), (4, 0x40), (20, 0)] with mask := 3, vregs := [(2, [0x40, 0x44]), (4, [0x10040, 0x10044]), (6, [0x42, 0x44])] }
  let s := oneR a ring0
  let i := fw 192 2 4 12
  let odd := fw 192 6 4 12
  let far := fw 192 2 6 4
  let n := 4
  let l : LArgs := { lw 192 196 194 6 with c := 212 }
  let put := fun (bs : List Byte) => { s with mem := Memory.writeCells [] (bs.zipIdx.map (fun e => (0x2000 + e.2, e.1))) }
  let good := put desc0
  let bad := put (desc0.take 63 ++ [1])
  let off : LArgs := { l with g1 := ⟨true, 0, 0xFF⟩ }
  let b := { withS a [(2, 0x2004)] with mask := 3 }
  let h := { a with vregs := [(2, [0x40]), (6, [0, 0]), (7, [0x40000])], mask := 1 }
  let c : Copy := { agent := 1, grid := 0, wg := 0, grove := 0, core := 0, asid := 0, user := true, ring := some (0, 0), cmd := none
                    job := .lanes 4 true true [(0x40, 0x10040)], cursor := 0, suspended := false, view := [], mark := 0, lost := [], crc := (0, 0), crcBack := (0, 0)
                    num := 0, crcFree := false }
  let k := fun (x : Nat) => { s with copies := [(0, { c with cursor := x })] }
  [decide (Ready (one a) a (.cpy i)) && (ringOf (one a) a 0).isNone && traps (.cpy i) (one a) .privilege 0,
   !unitFull s 0 && !ringFull ring0 && (cpyPairs a i).all (fun p => p.1 % n == 0 && p.2 % n == 0 && (scratchFault s a p.1 n).isNone && (scratchFault s a p.2 n).isNone),
   goes (.cpy i) s (startCopy s a 0 8 false (.lanes 4 true true (cpyPairs a i))),
   firstOffender (cpyPairs a odd) (· % n != 0) (· % n != 0) == some 0x42, traps (.cpy odd) s .misaligned 0x42,
   firstOffender (cpyPairs h far) (beyond true · n) (beyond false · n) == some 0x4000000000000, traps (.cpy far) (oneR h ring0) .pageNotPresent 0x4000000000000,
   goes (.cpyt off) s s, traps (.cpyt l) (oneR b ring0) .misaligned 0x2004,
   (readAtIssue good a 0x2000 64).toOption.map (·.1) == some desc0, !tdBad desc0 && !tdFlagsBad desc0 && !tdTrl desc0 && !imageBad desc0 [0, 0, 0, 0, 0],
   (tensorTop desc0 [0, 0, 0, 0, 0]).all (fun t => decide (t < 2 ^ 50)), (scratchFault good a 0x40 (tdExtent desc0)).isNone,
   (readAtIssue good a 0x2000 64).toOption.any (fun e => (readAway good a e.2).isNone &&
     (let b := readNoted good a e.2; goes (.cpyt l) good (startCopy (good.setMe b) b 0 (tdBytes desc0) true (.tensor desc0 [0, 0, 0, 0, 0] 0x40 true false [])))),
   traps (.cpyt l) bad .reservedField 0,
   (scratchPoison (k 0) 0 0x10040 4).isNone && (List.range 4).all (fun i => !racedAt (k 0) 0 (some (true, 0x10040)) i)
     && nx (exec (.copyLineOperation 0) (k 0)) == some (stepTo 0 1
       ((numberWrite (scratchWrite (k 0) 0 0x40 (scratchBytes (k 0) 0 0x10040 4)) ((List.range 4).map (fun j => scratchPosAt 0 (0x40 + j)))).used 8)),
   nx (exec (.copyLineOperation 0) (k 1)) == some (endCopy (k 1) 0 { c with cursor := 1 } 4 0)]) = true := by decide +kernel

theorem witness_RingResults : allOf (
  let a := withS team [(0, 0), (2, 0x2000), (4, 0x4000), (6, 1)]
  let s := oneR a ring0
  let put := fun (g : State) (bs : List Byte) => { g with mem := Memory.writeCells [] (bs.zipIdx.map (fun e => (0x2000 + e.2, e.1))) }
  let good := put s (bytesOf 16 [(8, 4, 16), (12, 4, 4)])
  let full := put { s with groves := [(0, { Grove.reset with rings := (List.range 256).map (fun h => (ringKey 0 h, ring0)) })] } (bytesOf 16 [(8, 4, 16), (12, 4, 4)])
  let filled := { ring0 with wseq := 1, aseq := 1, slots := [(0, { RingSlot.empty with armed := true })] }
  let t := oneR a filled
  let rd := fun (g : State) => ((readAtIssue g a 0x2000 16).toOption.map (·.2)).getD []
  let ri : Instr := .ringInit (fw 200 194 0)
  let wn := fun (b : Agent) (w : Nat) => wrN b 200 1 (fun _ => some w)
  let unfilled := (ringSeen ring0 matches .none)
  [goes ri good ((good.setGrove 0 { (good.grove 0) with rings := Tab.put (good.grove 0).rings (ringKey 0 1) { ring0 with buf := 0 } }).setMe (wn (readNoted good a (rd good)) 1)),
   goes ri full (full.setMe (wn (readNoted full a (rd full)) 0xFFFFFFFF)), traps ri s .reservedField 0x2000,
   (match ringSeen filled with | .result w => w == 0 | _ => false), unfilled,
   goes (.ringWait (fw 200 192 0)) t (openPhase (t.setMe (wn a 0)) 1 2),
   goes (.ringPark (fw 200 192 196)) t (openPhase (t.setMe { wn a 0 with parkPc := none }) 1 2),
   decide (Ready s a (.ringPark (fw 200 192 196))) && nx (exec (.ringPark (fw 200 192 196)) s) ==
     some (finishHold (.ringPark (fw 200 192 196)) (s.setMe { a.onRing 0 with state := .parked, parkPc := some 0x4000 })),
   decide (Ready s a (.ringWait (fw 200 192 0))) && nx (exec (.ringWait (fw 200 192 0)) s) == some (finishHold (.ringWait (fw 200 192 0)) (s.setMe { a.onRing 0 with state := .parked })),
   (let g := { a with kind := .forester }; let u := oneR g ring0; decide (Ready u g (.ringWait (fw 200 192 0)))
      && nx (exec (.ringWait (fw 200 192 0)) u) == some (let v := u.setMe (g.onRing 0); v.setMe v.me.unchosen)),
   (let g := { a with ringGot := some (0, 3, none), parkPc := some 0x4000 }; goesTo (.ringPark (fw 200 192 196)) (oneR g ring0) (ringEnd (oneR g ring0) g 200 0 0 3) 0x4000),
   (let g := { a with ringGot := some (0, 3, none) }; goes (.ringWait (fw 200 192 0)) (oneR g ring0) (ringEnd (oneR g ring0) g 200 0 0 3)
      && goes (.ringPark (fw 200 192 196)) (oneR g ring0) (ringEnd (oneR g ring0) g 200 0 0 3)),
   (let g := { a with ringGot := some (0, 3, some (.memUncorrectable, 0x80)) }
    [Instr.ringWait (fw 200 192 0), .ringPark (fw 200 192 196)].all (fun i => traps i (oneR g ring0) .memUncorrectable 0x80)),
   (let bad := oneR a { filled with slots := [(0, { RingSlot.empty with armed := true, status := 0x0C, addr := 0x80 })] }
    match ringSeen { filled with slots := [(0, { RingSlot.empty with armed := true, status := 0x0C, addr := 0x80 })] } with
    | .report c x r => nx (exec (.ringWait (fw 200 192 0)) bad) == some (takeTrap (putRing bad 0 0 r) 1 c x)
    | _ => false),
   goes (.ringRel (fw 0 192 0)) t (settleRing t 0 0 { filled.setAt 0 RingSlot.empty with rseq := 1 }),
   goes (.ringQ (fw 200 192 0 2)) t (t.setMe (wn a 1)), goes (.ringQ (fw 200 192 0 0)) s (s.setMe (wn a 0)),
   goes (.ringQ (fw 200 192 0 0)) t (let v := t.setMe (wn a 1); joinCopies (openJoin v v.cur) (fun x => x.wg == 0 && x.handle == 0 && decide (x.slot < 1))),
   [Instr.ringInit (gd (fw 200 194 0) true 0xFF), .ringWait (gd (fw 200 192 0) true 0xFF)].all (fun i => goes i s s),
   [Instr.ringWait (fw 200 198 0), .ringRel (fw 0 198 0), .ringQ (fw 200 198 0), .ringPark (fw 200 198 196)].all (fun i => (ringOf s a 1).isNone && traps i s .privilege 0)])
  = true := by decide +kernel

/-- The device with a routing image whose first entry stands for device 1; `usable` says whether it can be reached. -/
def routed (s : State) (usable : Bool) : State :=
  { s with routes := [some (bytesOf 80 [(4, 2, 2), (64, 8, 0), (72, 8, if usable then 2 ^ 63 else 0)])], current := some 0 }
theorem witness_CloseResults : allOf (
  let a := { withS team [(0, 1)] with stores := [(0x2000, 7)] }
  let s := one a
  let u := beginClose s
  let busy := { a with closes := [⟨1, [], none, none, 0, false⟩] }
  let b := one busy
  let v := beginClose b
  let w : FArgs := fw 0 192 0
  let off : FArgs := gd (fw 0 0 0) true 0xFF
  let held := fun (i : Instr) (s t : State) => decide (Ready s s.me i) && nx (exec i s) == some (t.setMe t.me.heldBack)
  let far := { a with stores := [(2 ^ 40 + 128, 7)], lineVa := [((2 ^ 40 + 128) / 128, 0x3080)] }
  let near := routed (one far) true
  let lost := routed (one far) false
  let placed := one { a with hold := .placing }
  let placing := one { busy with hold := .placing }
  let red : Sent := { op := { kind := 3, flags := 0, key := 0, asid := 0, tag := 0, addr := 0, arg := 0, data := [], src := 0, tc := 1 }, more := [], dest := 1, why := .red 1 0x2000, deadline := 9, path := none, old := false, seq := 0, answers := [] }
  [(unplaceable u u.cur).isNone && !closesPending u u.cur && (openBundle u u.cur).isNone && !coversAway u u.cur,
   goes (.pclose (fw 0 0 0 2)) s (issueClose u 1 2 none), goes (.phase (fw 0 0 0 1)) s (openPhase (issueClose u 1 1 none) 1 1),
   goes (.wake w) s (issueClose u 1 2 (some (wakeTarget a w))), goes (.popen (fw 0 0 0 1)) s (openPhase u 1 1),
   closesPending v v.cur, [Instr.pclose (fw 0 0 0 1), .phase (fw 0 0 0 1), .wake w].all (fun i => held i b v),
   (let u := beginClose near
    (unplaceable u u.cur).isNone && coversAway u u.cur && [Instr.pclose (fw 0 0 0 2), .phase (fw 0 0 0 3)].all (fun i =>
      let t := issueClose u u.cur (if i matches .pclose _ then 2 else 3) none
      let v := (if t.me.closes.all (closeFree t t.cur) then completeClose t t.cur else t).modAgent t.cur (fun b => { b with hold := .placing })
      decide (Ready near near.me i) && nx (exec i near) == some (finishHold i v))),
   (let u := beginClose lost
    unplaceable u u.cur == some 0x3080 && [Instr.pclose (fw 0 0 0 2), .wake w].all (fun i => decide (Ready lost lost.me i) &&
      nx (exec i lost) == some (takeTrap (placePart u u.cur) 1 .fabricUnreachable 0x3080))),
   goes (.pclose (fw 0 0 0 2)) placed s, goes (.phase (fw 0 0 0 2)) placed (openPhase s 1 2),
   [Instr.pclose (fw 0 0 0 2), .phase (fw 0 0 0 2)].all (fun i => (unplaceable placing 1).isNone && held i placing placing),
   (let s := routed (one { far with stores := [], hold := .placing, closes := [⟨2, far.stores, none, none, 0, true⟩] }) false
    let s : State := { s with held := far.stores, covers := [((2 ^ 40 + 128) / 128, (0, [1]))] }
    closesPending s 1 && (unplaceable s 1).isSome && [Instr.pclose (fw 0 0 0 2), .phase (fw 0 0 0 2)].all (fun i => traps i s .fabricUnreachable 0x3080)),
   !unperformed u u.cur && goes (.fence (fw 0 0 0)) s u,
   (let f : State := { s with sent := [(0, red)] }
    unperformed (drainAll f 1) 1 && held (.fence (fw 0 0 0)) f (drainAll f 1)),
   [Instr.pclose off, .phase off, .popen off, .fence off, .wake { w with g := off.g }].all (fun i => goes i s s)]) = true := by decide +kernel

theorem witness_CloseEffects : allOf (
  let c : Close := ⟨1, [(0x2000, 7)], none, none, 0, false⟩
  let a := { team with closes := [c] }
  let s := one a
  [closeFree s 1 c, !forkedViews s 1, (match exec (.closeCompletion 1) s with
    | .next t => (t.agent 1).closes == [] && sharedByte t 0 0x2000 == some 7 && sharedByte t 0 0x2001 == some 0 && t.mem == s.mem
    | _ => false),
   (let b := one { team with stores := [(0x2000, 7)] }
    ((issueClose b 1 1 none).agent 1).stores == [] && ((issueClose b 1 0 none).agent 1).kept == [(0x2000, 7)])]) = true := by
  decide +kernel

theorem witness_BundleResults : allOf (
  let a := { withS team [(0, 5), (2, 0), (3, 0)] with stores := [(0x2000, 7)] }
  let s := one a
  let u := beginClose s
  let f : FArgs := fw 200 192 0 2
  let r := formBundle u 2 5
  let held := { a with stores := [], bundled := [(0x2000, 7)], hold := .bundle 0 }
  let b0 : Bundle := { ident := 0, name := 5, agent := 1, scope := 2, state := .pending, bytes := [(0x2000, 7)], lines := [64], sig := signature [64], unacked := [], refusedAt := none }
  let h : State := { one held with bundles := [(0, b0)] }
  let t := placeVersions h 0
  let q : State := { one { withS team [(2, 0), (3, 0)] with sregs := [(2, 0)] } with bundles := [(0, b0)] }
  let busy := one { a with closes := [⟨1, [], none, none, 0, false⟩] }
  [decide (bundleLines s a ≤ 4096) && !closesPending u u.cur && (openBundle u u.cur).isNone && (sideEntries u u.cur).isEmpty
     && (unplaceableBeside u u.cur).isNone,
   (match Tab.find r.1.bundles r.2 with
    | some b => b.state != .pending && goes (.bclose f) s (r.1.setMe (wrN { r.1.me with hold := .none } 200 2 (fun _ => some b.ident)))
    | none => false),
   (let u := beginClose busy
    decide (Ready busy busy.me (.bclose f)) && closesPending u u.cur && nx (exec (.bclose f) busy) == some (u.setMe u.me.heldBack)),
   (match Tab.find t.bundles 0 with
    | some b => b.state != .pending && goes (.bclose f) h (t.setMe (wrN { t.me with hold := .none } 200 2 (fun _ => some b.ident)))
    | none => false),
   -- a line of another device: the version is on its way
   (let far := routed (one { a with stores := [(2 ^ 40 + 128, 7)] }) true
    let r := formBundle (beginClose far) 2 5
    (match Tab.find r.1.bundles r.2 with
     | some b => b.state == .pending && decide (Ready far far.me (.bclose f)) && !r.1.me.counted
         && nx (exec (.bclose f) far) == some (finishHold (.bclose f) (r.1.setMe { r.1.me with hold := .bundle r.2 }))
     | none => false)),
   (let w : State := { routed (one { held with counted := true }) true with bundles := [(0, { b0 with lines := [2 ^ 33 + 1], unacked := [2 ^ 33 + 1] })] }
    let t := placeVersions w 0
    let v := t.setMe { t.me with hold := .bundle 0 }
    (Tab.find t.bundles 0).any (fun b => b.state == .pending) && t.me.counted && nx (exec (.bclose f) w) == some (v.setMe v.me.heldBack)),
   -- bytes that an earlier close at `.t` kept for a device that cannot be reached
   (let lost := routed (one { a with kept := [(2 ^ 40 + 128, 7)], lineVa := [((2 ^ 40 + 128) / 128, 0x3080)] }) false
    let u := beginClose lost
    unplaceableBeside u 1 == some 0x3080 && !closesPending u 1 && nx (exec (.bclose f) lost) == some (takeTrap (placeBeside u 1) 1 .fabricUnreachable 0x3080)),
   goes (.bclose (gd f true 0xFF)) s s,
   tokenFree q q.me && startsAt q (.bquery (fw 200 194 0)) 200 && rdN q.me 194 2 0 % 2 ^ 48 / 2 ^ 37 == q.device]) = true := by decide +kernel

/-- A team with some stores; and one with stores to 4,097 lines. -/
def storing (st : Tab Byte) : Agent := { withS team [(0, 5)] with stores := st }
def many (n : Nat) : Agent := storing ((List.range n).map (fun k => (128 * k, 0)))
theorem storing_ready (st : Tab Byte) : Ready (one (storing st)) (storing st) (.bclose (fw 200 192 0 2)) := by
  refine ⟨rfl, rfl, ?_⟩
  have e : asidLachk (one (storing st)) (storing st).asid = false := by
    show bitN (sliceN space 40 4) 2 = false
    decide +kernel
  have w : staticTrap (storing st) (.bclose (fw 200 192 0 2)) = none := rfl
  have r : dueReport (storing st) (.bclose (fw 200 192 0 2)) = none := by simp [dueReport, storing, withS, team, Agent.blank]
  simp only [earlyTrap, show dueError (storing st) = none from rfl, w, promptReport, r, e, Option.filter_none, and_self, Bool.false_and, Bool.false_eq_true, if_false]
theorem many_lines (n : Nat) : n ≤ bundleLines (one (many n)) (many n) := by
  have h : (List.range n).map (fun k => 128 * k / 128) = List.range n := by
    conv_rhs => rw [← List.map_id (List.range n)]
    exact List.map_congr_left (fun k _ => by simp)
  simp only [bundleLines, linesOf, many, storing, List.map_map, Function.comp_def, h, (List.nodup_range (n := n)).dedup, List.length_range]
  omega
theorem witness_BundleLimit : Ready (one (many 4097)) (many 4097) (.bclose (fw 200 192 0 2)) ∧ 4096 < bundleLines (one (many 4097)) (many 4097) :=
  ⟨storing_ready _, many_lines 4097⟩

/-- A barrier object that expects 4 and has seen `n` arrivals, in generation 1. -/
def object (n mask : Nat) : List Byte := bytesOf 64 [(0, 4, 4), (4, 4, n), (8, 4, 1), (16, 4, mask)]
/-- The device with one agent and an object at 0x2000. -/
def withObj (a : Agent) (bs : List Byte) : State := { one a with mem := Memory.writeCells [] (bs.zipIdx.map (fun e => (0x2000 + e.2, e.1))) }
def arriver : Agent := withS team [(0, 4), (2, 0x2000)]
theorem witness_BarrierResults : allOf (
  let a := arriver
  let s := withObj a (object 0 0)
  let v := beginClose s
  let w := closeNow v v.cur 1
  let x := flushLine w w.cur 0x2000
  let init : Instr := .barInit (fw 0 194 192 1)
  let arv : Instr := .barArv (fw 0 194 0 1)
  let sync : Instr := .barSync (fw 0 194 0 1)
  let ri := objectAct w w.cur w.me.asid 0x2000 (.init 4)
  let r := objectAct w w.cur w.me.asid 0x2000 (.arrive (arrivalIndex a (fw 0 194 0 1)))
  let v := afterObject r
  let t := v.setMe { v.me with arrivals := (recordArrival v v.me 0x2000 (sliceN r.old 8 4)).getD v.me.arrivals }
  let t' := t.setMe { t.me with syncWait := true }
  let rr := objectAct t' t'.cur 0 0x2000 .read
  let u := afterObject rr
  let bad := withObj a (bytesOf 64 [])
  let wb := closeNow (beginClose bad) 1 1
  let rb := objectAct wb wb.cur 0 0x2000 (.arrive 0)
  let vb := rb.s.modAgent rb.s.cur (fun b => { b with lastObs := rb.s.strongSeq, hold := .none })
  [objectLoc s a 0x2000 == .ok 0x2000 && a.hold == .none && !closesPending w w.cur && closeNowFree (beginClose s) 1 && homeOf 0x2000 == w.device,
   !lineBad x (portOfAgent x w.cur) 64 && (mismatched x 0x2000 64).isNone && x.held.isEmpty && Memory.wf x.mem,
   (BarOp.arrive 0).new r.old == some (arriveObject (object 0 0) 0) && (arriveObject (object 0 0) 0).length == 64,
   ri.err.isNone && goes init s (afterObject ri),
   [255, 193].all (fun b => let i : Instr := .barInit (fw 0 194 b 1)
     let s := withObj { a with sregs := Tab.put a.sregs 1 129 } (object 0 0)
     traps i s .reservedField 0),
   arrivalIndex a (fw 0 194 0 1) == 0 && (recordArrival s a 0x2000 0).isSome && r.err.isNone && !expectBad r.old && goes arv s t,
   [Instr.barArv (fw 0 194 193 5), .barSync (fw 0 194 193 5)].all (fun i =>
     traps i (withObj { a with sregs := Tab.put a.sregs 1 128 } (object 0 0)) .reservedField 0),
   expectBad rb.old && rb.err.isNone && [arv, sync].all (fun i => decide (Ready bad a i) && nx (exec i bad) == some (takeTrap vb 1 .reservedField 0x2000)),
   objectLoc t' t'.me 0x2000 == .ok 0x2000 && rr.err.isNone && u.me.arrivals.find? (fun e => e.1 == 0x2000) == some (0x2000, 1) && sliceN rr.old 8 4 == 1
     && decide (Ready s a sync) && nx (exec sync s) == some (finishHold sync (u.setMe { u.me with state := .barrier, hold := .barrier 0x2000 })),
   -- the last of four arrivals of an object: its generation is over at once
   (let s := withObj a (object 3 14)
    let w := closeNow (beginClose s) 1 1
    let r := objectAct w w.cur 0 0x2000 (.arrive 0)
    let v := afterObject r
    let t := v.setMe { v.me with arrivals := [(0x2000, 1)], syncWait := true }
    let u := afterObject (objectAct t t.cur 0 0x2000 .read)
    let e := u.setMe { u.me with arrivals := [], syncWait := false }
    goes sync s (openPhase (drainAll e e.cur) e.cur 1))]) = true := by decide +kernel

theorem witness_BarrierWaits : allOf (
  let a := arriver
  let ws := [Instr.barWait (fw 0 194 0 1), .barSync (fw 0 194 0 1)]
  let after := fun (a : Agent) => afterObject (objectAct (withObj a (object 0 0)) 1 0 0x2000 .read)
  let done_ := fun (a : Agent) => endWait (after a) 0x2000 1
  let none_ := { a with syncWait := true }
  let past := { a with syncWait := true, arrivals := [(0x2000, 0)] }
  let now := { a with syncWait := true, arrivals := [(0x2000, 1)] }
  let all4 := [Instr.barInit (fw 0 194 192 1), .barArv (fw 0 194 0 1), .barWait (fw 0 194 0 1), .barSync (fw 0 194 0 1)]
  let odd := withObj { a with sregs := Tab.put a.sregs 2 0x2020 } (object 0 0)
  let off := fun (f : FArgs) => gd f true 0xFF
  let asleep := fun (g : Nat) => withObj { a with arrivals := [(0x2000, g)], state := .barrier, hold := .barrier 0x2000 } (object 0 0)
  [ws.all (fun i => goes i (withObj none_ (object 0 0)) (endWait (withObj none_ (object 0 0)) 0x2000 1)), ws.all (fun i => goes i (withObj past (object 0 0)) (done_ past)),
   ws.all (fun i => decide (Ready (withObj now (object 0 0)) now i) && nx (exec i (withObj now (object 0 0))) ==
     some (finishHold i ((after now).setMe { (after now).me with state := .barrier, hold := .barrier 0x2000 }))),
   all4.all (fun i => traps i odd .misaligned 0x2020),
   [Instr.barInit (off (fw 0 194 192 1)), .barArv (off (fw 0 194 0 1)), .barWait (off (fw 0 194 0 1)), .barSync (off (fw 0 194 0 1))].all (fun i =>
     goes i (withObj none_ (object 0 0)) (withObj none_ (object 0 0))),
   (let s := asleep 0; genAt s s.me 0x2000 == some 1 && !dieStopped s s.me.die && nx (exec (.barrierCompletionNotice 1) s) ==
    some (s.setAgent 1 { s.me with state := .ready, hold := .none })),
   (let s := asleep 1; genAt s s.me 0x2000 == some 1 && nx (exec (.barrierCompletionNotice 1) s) == some (pollObjects s 1))]) = true := by decide +kernel

theorem witness_ArrivalRule : allOf [
    (object 1 2).length == 64, sliceN (arriveObject (object 1 2) 0) 4 4 == 2, sliceN (arriveObject (object 3 14) 0) 8 4 == 2,
    sliceN (arriveObject (object 1 2) 1) 4 4 == 1] = true := by decide +kernel

/-- A team of a workgroup whose core's array a forester context binds, and the context's agent. -/
def oneB (a : Agent) (w : Agent) : State := { oneW a with agents := [(1, a), (2, w)] }
theorem witness_AccumulatorResults : allOf (
  let a := { team with mask := 3, vregs := [(2, [0, 129]), (4, [5, 6]), (6, [0, 0x100]), (7, [0x3F800000, 0x3F800000])] }
  let s := oneB a { wood with state := .ready }
  let c := s.core 0
  let taken := { wood with state := .ready, mxq := [⟨1, .mxZero (fw 192 192 0xFF 0 true), [], 1, true, 0, [], 0, [], []⟩] }
  let b := oneB a taken
  let q : TileAccess := ⟨1, 65536, .accwr (fw 0 2 4), tileRows a (.accwr (fw 0 2 4)) (fw 0 2 4), 0⟩
  let w : State := (oneB a { wood with state := .ready }).setCore 0 { Core.reset with tileQueue := [q] }
  let odd := { a with vregs := [(2, [1, 1])] }
  let r := tileEffect c ⟨1, 65536, .accsc (fw 0 6 7), tileRows a (.accsc (fw 0 6 7)) (fw 0 6 7), 0⟩
  [arrayBound s a, !tileBusy s 0 0, startsAt s (.accrd (fw 8 2 0)) 8, startsAt s (.rowst (fw 8 6 0)) 8, !colBad a (.accrd (fw 8 2 0)) (fw 8 2 0),
   decide (Ready s a (.accwr (fw 0 2 4))), goes (.accsc (fw 0 6 7)) s ((s.setCore 0 r.1).setMe { a with fstat := a.fstat ||| r.2.2 }),
   (match exec (.accwr (fw 0 2 4)) s with | .next t => (t.core 0).tile 0 0 0 == 5 && (t.core 0).tile 0 1 1 == 6 && (t.core 0).tile 0 1 2 == 0 | _ => false),
   !arrayBound (one a) a && [Instr.accrd (fw 8 2 0), .accwr (fw 0 2 4), .rowst (fw 8 6 0), .accsc (fw 0 6 7)].all (fun i => traps i (one a) .privilege 0),
   [Instr.accrd (fw 8 2 0 8), .accwr (fw 0 2 4 8)].all (fun i => traps i (oneB odd { wood with state := .ready }) .misaligned 0),
   tileBusy b 0 0, goes (.accwr (fw 0 2 4)) b { b.setCore 0 { (b.core 0) with tileQueue := [q] } with tileSeq := 1 }, decide (Ready b a (.accsc (fw 0 6 7))),
   tileReady w 0 == [q] && !dieStopped w 0 && nx (exec (.tileAccessPerformed 0) w) == some (performTile w 0 q)]) = true := by decide +kernel

/-- A forester context: s0 a core mask, s8 a dense descriptor of slot 0, s10 a sparse one, s12 one of slot 5, s20 the ticket 2. -/
def caller : Agent := withS wood [(0, 1), (1, 2), (10, 0x20), (12, 0x5000000), (20, 2)]
/-- Its grid: slot 0 BF16, slot 5 INT4 with groups of 32 and a table at 0x3000. -/
def oneF (a : Agent) : State :=
  { one a with grids := [(0, { grid0 with record := bytesOf 256 [(36, 4, 3), (160, 8, 0x1000000000000000), (200, 8, 0x9008000000003000)] })]
               wgs := [(0, ⟨0, 0, 0, 0, false, false, 0, [], []⟩)] }
theorem book_bf16 (i : Nat) (h : i = 0 ∨ i = 5) : BookReads (oneF caller) caller (slotOf (oneF caller) 0 i) (oneF caller) (readNoted (oneF caller) caller []) := by
  rcases h with rfl | rfl <;> exact ⟨[], [], rfl, rfl, rfl, rfl⟩
/-- What an entry enters the queue as. -/
def enters (i : Instr) (s : State) (d : Reg) (cmask : Nat) : Bool :=
  decide (Ready s s.me i) && guardOn s.me i && (match exec i s with
    | .next t => t.me.mxq.map (fun e => (e.ticket, e.op, e.cmask)) == [(1, i, cmask)] && regGet t.me d.toNat 0 == 1 && t.me.ticket == 1
    | _ => false)
def mmaOk (i : Instr) (l : LArgs) : Bool :=
  let s := oneF caller
  let da := rdN caller l.a.toNat 2 0
  let db := rdN caller l.b.toNat 2 0
  let ia := aImage s 0 i da
  let ib := bImage s 0 i db
  (maskTrap caller (xMask l)).isNone && mmaFields i ia ib && mmaSlots i ia.slot ib.slot
    && [ia, ib].all (fun m => (tileImageFault s caller (xMask l) (imageTrl i m) m).isNone) && enters i s l.d 1
def accOk (i : Instr) (l : LArgs) (st : Bool) : Bool :=
  let s := oneF caller
  let m := aImage s 0 i (rdN caller l.a.toNat 2 0)
  accFields l st m && accSlots l st m.slot && (tileImageFault s caller (xMask l) (imageTrl i m) m).isNone && enters i s l.d 1
theorem witness_MacroOperationIssue : allOf (
  let s := oneF caller
  let zero := fw 200 192 1 0 true
  let unbound := oneF (withS caller [(22, 0x1000000)])
  let noBank : State := { s with grids := [(0, { grid0 with record := bytesOf 256 [(160, 8, 0x1000000000000000)] })] }
  [!queueFull caller, enters (.mxZero zero) s 200 1, enters (.mxScale (fw 200 192 200)) s 200 1,
   traps (.mxZero (fw 200 202 1 0 true)) s .privilege 0, traps (.mxZero (fw 200 203 1 0 true)) s .reservedField 0,
   traps (.mxScale (fw 200 203 200)) s .reservedField 0, traps (.mxScale (fw 200 193 200)) s .privilege 0,
   mmaOk (.mxMma (lw 200 208 208 0 0x400100)) (lw 200 208 208 0 0x400100), mmaOk (.mxSmma (lw 200 202 208 0 0x400220)) (lw 200 202 208 0 0x400220),
   (let l : LArgs := { lw 200 208 204 0 0x400100 with e := 208 }; mmaOk (.mxQmma l) l),
   accOk (.mxLdacc (lw 200 208 0 0 0x400001)) (lw 200 208 0 0 0x400001) false, accOk (.mxLdacc (lw 200 208 0 0 0x400000)) (lw 200 208 0 0 0x400000) false,
   accOk (.mxStacc (lw 200 208 0 0 0x400000)) (lw 200 208 0 0 0x400000) true,
   (let full : State := oneF { caller with mxq := (List.range 16).map (fun n => ⟨BitVec.ofNat 32 (n + 1), .mxZero zero, [1], 1, false, 0, [], 0, [], []⟩) }
    queueFull full.me && [Instr.mxZero zero, .mxMma (lw 200 208 208 0 0x400100), .mxStacc (lw 200 208 0 0 0x400000)].all (fun i =>
      decide (Ready full full.me i) && nx (exec i full) == some (full.setMe full.me.heldBack))),
   [Instr.mxZero (gd zero true 0xFF), .mxMma { lw 200 208 208 0 0x400100 with g1 := ⟨true, 0, 0xFF⟩ }].all (fun i => goes i s s),
   [Instr.mxMma (lw 200 208 208 0 0x800100), .mxStacc (lw 200 208 0 0 0x800000)].all (fun i => traps i s .privilege 0),
   traps (.mxMma (lw 200 208 208 0 0x400000)) s .reservedField 0, traps (.mxMma (lw 200 214 208 0 0x400100)) unbound .formatSlot 0,
   traps (.mxLdacc (lw 200 214 0 0 0x400000)) unbound .formatSlot 0, traps (.mxStacc (lw 200 208 0 0 0xC00000)) (oneF { caller with bound := 3 }) .reservedField 0,
   [Instr.mxMma (lw 200 208 208 0 0x400100), .mxLdacc (lw 200 208 0 0 0x400001)].all (fun i => traps i noBank .bankMode 0)]) = true := by decide +kernel
theorem witness_TableReads : TableReads 0x3000 0 0 1 1 0 (oneF caller) caller (oneF caller)
    (readNoted (oneF caller) caller [0x3000, 0x3001, 0x3002, 0x3003]) := ⟨[0, 0, 0, 0], _, _, ⟨_, rfl, rfl, rfl, rfl⟩, rfl, rfl⟩

theorem witness_MacroOperationSteps : allOf (
  let z : Instr := .mxZero (fw 192 192 1 0 true)
  let e : MxEntry := ⟨1, z, [1], 1, false, 0, [], 0, [], []⟩
  let m : Instr := .mxLdacc (lw 200 208 0 0 0x400001)
  let bad : MxEntry := ⟨1, m, [0x800000, 0], 1, true, 0, [], 0, [], []⟩
  let q := fun (e : MxEntry) => { caller with mxq := [e] }
  let r := { e with running := true }
  let s := fun (e : MxEntry) => oneF (q e)
  [findMx (q e) 1 == some e && mxReady (q e) e && nx (exec (.mxDispatch 1 1) (s e)) == some
     (let u := (coresOf 1).foldl (fun s c => drainTiles s (8 * 0 + c)) (s e); u.setAgent 1 (putMx (u.agent 1) r)),
   (let x : MxEntry := { bad with ops := [0, 0] }
    let u := loosenRaced (mxEffect (s x) (q x) x) (q x) x (coresOf 1)
    (crcFailure (s x) (q x) x).isNone && (poisonedArrays (s x) (q x) x).isEmpty
      && nx (exec (.mxStep 1 1) (s x)) == some (u.setAgent 1 (putMx (u.agent 1) { x with next := 1 }))),
   (mxTiles z)[0]? == some 0,
   (crcFailure (s bad) (q bad) bad) == some 0 && nx (exec (.mxStep 1 1) (s bad)) == some ((s bad).setAgent 1
     { dropMx (q bad) 1 with mxErrors := [(1, .tileIntegrity, 0)] }),
   (let d := { r with next := 1 }; nx (exec (.mxEntryComplete 1 1) (s d)) == some ((s d).setAgent 1 (dropMx (q d) 1)))]) = true := by
  decide +kernel

theorem witness_MacroOperationControl : allOf (
  let a := caller
  let s := oneF a
  let z : Instr := .mxZero (fw 192 192 1 0 true)
  let busy := { a with mxq := [⟨1, z, [1], 1, false, 0, [], 0, [], []⟩] }
  let err := { a with mxErrors := [(1, .tileIntegrity, 0x40)] }
  let w : Instr := .mxWait (fw 0 212 0)
  [goes w s (openPhase (joinMx s 1 (fun e => upTo 2 e.ticket)) 1 2), decide (Ready (oneF err) err w) && nx (exec w (oneF err)) == some
     (takeTrap ((oneF err).setMe { err with mxErrors := [] }) 1 .tileIntegrity 0x40),
   decide (Ready (oneF busy) busy w) && nx (exec w (oneF busy)) == some ((oneF busy).setMe (oneF busy).me.heldBack),
   goes (.mxQ (fw 200 212 0 3)) s (s.setMe (wrN a 200 1 (fun _ => some 1))),
   (match exec (.mxCancel (fw 200 192 0)) (oneF busy) with | .next t => t.me.mxq == [] && regGet t.me 200 0 == 1 | _ => false),
   (match exec (.mxBind (fw 200 193 0)) s with | .next t => t.me.bound == 2 && regGet t.me 200 0 == 2 | _ => false),
   decide (Ready (oneF busy) busy (.mxBind (fw 200 193 0))) && nx (exec (.mxBind (fw 200 193 0)) (oneF busy)) == some ((oneF busy).setMe (oneF busy).me.heldBack),
   (let off := fun (f : FArgs) => gd f true 0xFF
    [Instr.mxWait (off (fw 0 212 0)), .mxQ (off (fw 200 212 0 3)), .mxCancel (off (fw 200 192 0)), .mxBind (off (fw 200 193 0))].all (fun i => goes i s s))]) = true := by decide +kernel

/-- A team that holds clearing 0 of its address space: handle 16 in s1, with room for three way-ranks. -/
def owner : Agent := { withS team [(0, 1), (1, 16), (2, 0x2000), (4, 99)] with mask := 3, vregs := [(2, [0, 9]), (4, [0x2000, 0x3000])] }
def clr0 : Clearing := { Clearing.reset with gen := 1, live := true, ranks := 1 }
def oneC (a : Agent) (c : Clearing) : State := { one a with clearings := [(0, c)], quotas := [(0, 3)], standard := true }

/-- A command to clearing 0 that stands in slice 0's queue. -/
def cmd0 : MatCmd := { agent := 1, wg := 0, asid := 0, user := false, handle := 16, job := .pred 0 [(0, 3, 0)], slices := [0], status := 0, addr := 0
                       stamp := 0, reported := false, view := [], lost := [], unit := 0, mark := 0, since := 0, num := 0, foreign := [], wrote := [] }
theorem witness_ClaimResults : allOf (
  let a := owner
  let s := oneC a clr0
  let claim : Instr := .clrClaim (fw 200 192 0)
  let free : Instr := .clrFree (fw 0 193 0)
  let no := oneC { a with sregs := [(1, 16)] } clr0
  let w := oneC { a with hold := .claimDrain 2 200 } clr0
  [claimRefused no no.me 0 && goes claim no (no.setMe (wrN no.me 200 1 (fun _ => some 0xFFFFFFFF))),
   !claimRefused s a 1 && decide (Ready s a claim),
   (match exec (.claimDrainEnd 1) w with | .next t => (t.clearing 2).live && (t.agent 1).hold == .none && regGet (t.agent 1) 200 0 == 2 | _ => false),
   validHandle s a 16 true == some 0 && (openCmds (s.setClearing 0 { clr0 with live := false, freeing := true }) 16).isEmpty,
   (match exec free s with | .next t => claimedRanks t == 0 && !(t.clearing 0).live && t.me.pc == 0x1008 | _ => false),
   decide (Ready s a free) && validHandle (one a) a 16 true == none && traps free (one a) .privilege 0,
   (let busy : State := { s with matCmds := [(0, cmd0)], sliceQueue := [(0, [0])] }
    let u := busy.setClearing 0 { clr0 with live := false, freeing := true }
    let v := u.setMe { u.me with hold := .freeing 0 }
    !(openCmds u 16).isEmpty && decide (Ready busy a free) && nx (exec free busy) == some (finishHold free v)
      && (let w := oneC { a with counted := true } clr0
          let w : State := { w with matCmds := [(0, cmd0)], sliceQueue := [(0, [0])] }
          let u := w.setClearing 0 { clr0 with live := false, freeing := true }
          let v := u.setMe { u.me with hold := .freeing 0 }
          nx (exec free w) == some (v.setMe v.me.heldBack))),
   (let w : State := { oneC { a with counted := true, hold := .freeing 0 } { clr0 with live := false, freeing := true } with matCmds := [(0, cmd0)], sliceQueue := [(0, [0])] }
    !freesNow w 0 && nx (exec free w) == some ((w.setMe { w.me with hold := .freeing 0 }).setMe ({ w.me with hold := .freeing 0 } : Agent).heldBack)),
   (let f := oneC { a with hold := .freeing 0 } { clr0 with live := false, freeing := true }
    (openCmds f 16).isEmpty && goes free f (freeClearing (f.setMe { f.me with hold := .none }) 0)),
   [Instr.clrClaim (gd (fw 200 192 0) true 0xFF), .clrFree (gd (fw 0 193 0) true 0xFF)].all (fun i => goes i s s)]) = true := by decide +kernel

theorem witness_MatCommands : allOf (
  let a := owner
  let s := oneC a clr0
  let l : LArgs := lw 193 2 4 0 0
  let call : LArgs := { lw 193 2 0 0 1 with c := 192 }
  let p : FArgs := fw 193 2 0
  let r : FArgs := fw 8 2 193
  let enters := fun (i : Instr) (n : Nat) => decide (Ready s a i) && (match exec i s with
    | .next t => (t.matCmds.map (fun e => (e.2.slices.length, e.2.handle.toNat))) == [(n, 16)] && t.me.pc == nextPc a i
    | _ => false)
  let none_ := one a
  let bad := oneC a { clr0 with poison := true }
  let all := [Instr.clrTload l, .clrTstore l, .clrCall call, .clrPred p, .clrRdrow r]
  [all.all (fun i => enters i 2), all.all (fun i => traps i none_ .privilege 0), all.all (fun i => traps i bad .clearingFault 0),
   !transferBad l && entryValid s 1 && decide (cmdsOf s 1 < 64),
   (transferLanes s a 1024 .read [(0, 0x2000), (9, 0x3000)]).toOption == some [(0, 0x2000, 0x2000, 0x2000), (9, 0x3000, 0x3000, 0x3000)],
   (matBeyond clr0 [0, 9]).isNone,
   (let a := { owner with mask := 0 }
    [Instr.clrTload l, .clrTstore l, .clrCall call, .clrPred p].all (fun i => goes i (oneC a clr0) (oneC a clr0)) && startsAt (oneC a clr0) (.clrRdrow r) 8),
   (let full : State := { s with sliceQueue := [(0, List.range 64)] }
    all.all (fun i => decide (Ready full a i) && nx (exec i full) == some ((if i matches .clrTload _ then fillTlbs full a.unit 0 [0x2000, 0x3000]
      else if i matches .clrTstore _ then fillTlbs full a.unit 0 [0x2000, 0x3000] else full) |> fun u => u.setMe u.me.heldBack))),
   (let beyond := oneC { a with vregs := [(2, [0, 3072]), (4, [0x2000, 0x3000])] } clr0
    all.all (fun i => traps i beyond .privilege 3072)),
   traps (.clrCall { call with imm33 := 0x1F }) { s with standard := false } .reservedField 0,
   (let r : LArgs := { l with imm33 := 0x1FF }; [Instr.clrTload r, .clrTstore r].all (fun i => traps i s .reservedField 0)),
   (let r : LArgs := { l with imm33 := 0x4000 }
    let odd := oneC { a with vregs := [(2, [0, 9]), (4, [0x2000, 0x3001])] } clr0
    [Instr.clrTload r, .clrTstore r].all (fun i => traps i odd .misaligned 0x3001)),
   (let far := oneC { a with vregs := [(2, [0, 9]), (4, [0x2000, 0xFFFFFE00]), (5, [0, 0x3FFFF])] } clr0
    [Instr.clrTload l, .clrTstore l].all (fun i => traps i far .pageNotPresent (2 ^ 50)))]) = true := by decide +kernel

/-- An image of one word that starts at entry 0. -/
def image0 : List Byte := bytesOf 144 [(0, 4, 0x434C4D49), (4, 4, 7), (8, 4, 1), (16, 4, 0x100)]
theorem witness_ClearingControl : allOf (
  let a := owner
  let s := oneC a clr0
  let wait : Instr := .clrWait (fw 200 193 0)
  let q := fun (k : BitVec 6) => Instr.clrQ (fw 200 193 0 k)
  let put := fun (s : State) (v : Nat) => s.setMe (wrN s.me 200 1 (fun _ => some v))
  let none_ := one a
  let n : State := { s with standard := false, imageVersion := 7 }
  [goes wait s (openPhase (put { s with matCmds := [] } 0) 1 2),
   (let busy : State := { s with matCmds := [(0, cmd0)] }
    (coveredCmds busy 1 16).length == 1 && decide (Ready busy a wait) && nx (exec wait busy) == some (busy.setMe busy.me.heldBack)),
   (let bad : State := { s with matCmds := [(0, { cmd0 with slices := [], status := 0x14, addr := 0x40 })] }
    decide (Ready bad a wait) && nx (exec wait bad) == some (takeTrap { bad with matCmds := [(0, { cmd0 with slices := [], status := 0x14, addr := 0x40, reported := true })] } 1 (causeOfCode 0x14) 0x40)),
   (let old : State := { s with matCmds := [(0, { cmd0 with slices := [], status := 0x14, addr := 0x40, reported := true })] }
    let u := joinMats old (coveredCmds old 1 16)
    goes wait old (openPhase (put { u with matCmds := [] } 0x14) 1 2)),
   traps wait none_ .privilege 0,
   [Instr.clrWait (gd (fw 200 193 0) true 0xFF), .clrQ (gd (fw 200 193 0 3) true 0xFF), .clrCsload (gd (fw 200 194 0) true 0xFF)].all (fun i => goes i s s), goes (q 3) s (put s 11), goes (q 4) s (put s 2),
   goes (q 5) n (put n 7), goes (q 0) s (put s 0), goes (q 1) s (put s 1), goes (q 2) s (put s 0), traps (q 0) none_ .privilege 0]) = true := by decide +kernel
def cs : Instr := .clrCsload (fw 200 194 0)
def rd (s : State) (va n : Nat) : Option (List Byte × List Nat) := (readAtIssue s s.me va n).toOption
/-- CLR.CSLOAD for a live clearing, of a malformed image, and of a good one. -/
theorem witness_CsloadLive : (let s := oneC owner clr0
  (rd s 0x2000 144).any (fun e => (readAway s owner e.2).isNone && goes cs s (s.setMe (wrN (readNoted s owner e.2) 200 1 (fun _ => some 3)))))
  = true := by decide +kernel
theorem witness_CsloadMalformed : (let s := one owner
  (rd s 0x2000 144).any (fun e => imageMalformed e.1 && (readAway s owner e.2).isNone
    && goes cs s (s.setMe (wrN (readNoted s owner e.2) 200 1 (fun _ => some 2))))) = true := by decide +kernel
theorem witness_CsloadGood : (let s := { one owner with mem := Memory.writeCells [] (image0.zipIdx.map (fun e => (0x2000 + e.2, e.1))) }
  (rd s 0x2000 144).any (fun e => !imageMalformed e.1 && (readAway s owner e.2).isNone && (let b := readNoted s owner e.2
    match readAtIssue s b 0x2090 80 with
    | .ok r => (readAway s b r.2).isNone && decide (Ready s owner cs)
        && nx (exec cs s) == some (finishHold cs (s.setMe { readNoted s b r.2 with hold := .controlStore (e.1 ++ r.1) 200 }))
    | _ => false))) = true := by decide +kernel
def loading : State := one { owner with hold := .controlStore (image0 ++ List.replicate 80 0) 200 }
theorem witness_ControlStore : exec (.controlStoreLoadEnd 1 true) loading =
    .next (resumeAfter ((loadImage loading (image0 ++ List.replicate 80 0)).setAgent 1 (wrN (loading.agent 1) 200 1 (fun _ => some 0))) 1) := rfl

theorem witness_SequencerResults : allOf (
  let c := cmd0
  let s : State := { oneC owner clr0 with matCmds := [(0, c)], sliceQueue := [(0, [0])] }
  [headCmd s 0 == some (0, c), (jobAway s c 0).isNone, !jobHangs s 0 0 c && !jobLogged s c 0, nx (exec (.sequencerCommand 0) s) == some (endInSlice (matJob (resolveJob s c 0) 0 0 0 c) 0 0)]) = true := by
  decide +kernel
/-- A call that runs words of zeros, which do nothing and go on to the next. -/
def call0 : MatCmd :=
  { agent := 1, wg := 0, asid := 0, user := false, handle := 16, job := .call 0 0 0 0 false (List.replicate 8 0) [0], slices := [0], status := 0
    addr := 0, stamp := 0, reported := false, view := [], lost := [], unit := 0, mark := 0, since := 0, num := 0, foreign := [], wrote := [] }
def stuck : State := { oneC owner clr0 with matCmds := [(0, call0)], sliceQueue := [(0, [0])], standard := false, entries := List.replicate 32 0x100 }
theorem zeros_run (p : CallArgs) (fuel pc i j : Nat) (acc : List (BitVec 128 × Nat × Nat)) : (callTrace [] p fuel pc i j acc).2 = .running := by
  induction fuel generalizing pc acc with
  | zero => rfl
  | succ n ih =>
    have h : mwOk 0#128 = true := by decide
    have e : mwField 0#128 16 3 = 0 := by decide
    simp [callTrace, h, e, ih]
theorem witness_SequencerHangs : headCmd stuck 0 = some (0, call0) ∧ jobAway stuck call0 0 = none ∧ jobHangs stuck 0 0 call0 = true := by
  refine ⟨rfl, rfl, ?_⟩
  have h : ∀ p, (callCourse stuck 0 p).2 = .running := fun p => zeros_run p _ _ _ _ _
  have hs : stuck.standard = false := rfl
  simp only [jobHangs, call0, callHangs, hs]
  generalize hc : callCourse stuck 0 _ = r
  have := h ⟨0, 0, 0, false, List.replicate 8 0⟩
  rw [hc] at this
  obtain ⟨tr, e⟩ := r
  simp only at this
  subst this
  rfl

theorem witness_SystemRegisterAccess : allOf (
  let a := withS team [(2, 0x123), (4, 512)]
  let s := one a
  let wr : Instr := .wrsys (fw 0 194 0x30 0 true)
  let t := sysWrite s false 0 0x123 .fstat
  let far : Instr := .rdsys (fw 200 196 0x18 1 true)
  [SysReg.ofNum 0x30 == some .fstat, startsAt s (.rdsys (fw 200 0 0x30 0 true)) 200, !flagsDue s a,
   (SysReg.ofNum 0x18).any (· != .routePair) && traps far s .reservedField 0,
   (Tab.find t.agents 1).isSome && goes wr s t, goes (.wrsys (gd (fw 0 194 0x30 0 true) true 0xFF)) s s,
   SysReg.ofNum 0x1A == some .reftime && startsAt s (.rdsys (fw 200 0 0x1A 2 true)) 200, startsAt s (.rdsys (gd (fw 200 0 0x30 0 true) true 0xFF)) 200]) = true := by decide +kernel
theorem witness_SystemRegisterValues : allOf [
    sysRead (one team) (agentWrite team 0xFFF .fstat) false 0 .fstat == 63,
    sysRead (sysWrite (one team) false 0 15 .clrLimit) team false 0 .clrLimit == 12] = true := by decide +kernel

theorem witness_SoftwareTraps : allOf (
  let s := one team
  let t : FArgs := fw 0 0 5 0 true
  let b : FArgs := fw 0 0 0
  let v : FArgs := { t with g := ⟨false, 0, 7⟩ }
  [traps (.trap t) s .softwareTrap 0, traps (.brk b) s .breakpoint 0, goes (.trap (gd t true 0xFF)) s s, goes (.brk (gd b true 0xFF)) s s,
   [Instr.trap (fw 0 0 5), .trap v, .brk (fw 0 0 0 0 true), .brk (fw 0 0 1), .brk { b with g := ⟨false, 0, 7⟩ }].all (fun i =>
     (notYet s team i).isNone && nx (exec i s) == some (takeTrap s 1 .reservedField 0))]) = true := by decide +kernel

theorem witness_ReturnFromTrap : allOf (
  let a := { team with trapPc := 0x4000, ppriv := false }
  let s := one a
  let e : Instr := .eret (fw 0 0 0)
  let odd := one { a with trapPc := 0x4004 }
  let user := { a with priv := false }
  [goesTo e s (s.setMe { a with priv := false }) 0x4000, goes (.eret (gd (fw 0 0 0) true 0xFF)) s s, traps e odd .misaligned 0x4004,
   (notYet (one user) user e).isNone && nx (exec e (one user)) == some (takeTrap (one user) 1 .privilege 0),
   nx (exec (.eret (fw 1 0 0)) s) == some (takeTrap s 1 .reservedField 0)]) = true := by decide +kernel
/-- At user level: an instruction that goes on, and one that takes a trap. -/
theorem witness_UserLevelKeeps : allOf (
  let a := { team with priv := false, trapPc := 0x4000 }
  let s := one a
  let u := fun (i : Instr) => (nx (exec i s)).map (fun t => (t.me.priv, t.me.ppriv, t.me.trapPc.toNat))
  [shapeOf nopI != .event, u nopI == some (false, false, 0x4000), u (.trap (fw 0 0 5 0 true)) == some (true, false, 0x1000),
   u (.wrsys (fw 0 194 0x3C 0 true)) == some (true, false, 0x1000)]) = true := by decide +kernel

theorem witness_ShootDown : allOf (
  let a := withS team [(2, 0x2000), (4, 0), (6, 50)]
  let s := one a
  let i : Instr := .tlbi (fw 0 194 196)
  let w : State := { one { a with hold := .tlbi } with shootdown := some (0, 0, 0x2000, 1, [0]) }
  let two : State := { w with shootdown := some (0, 0, 0x2000, 1, [0, 1]) }
  let sl : Instr := .sleep (fw 0 198 0)
  let p := one { a with wakePend := true }
  [decide (Ready s a i) && (match exec i s with | .next t => t.shootdown == some (0, 0, 0x2000, 1, List.range 641) && heldByEvent t.me | _ => false),
   !unitBusy w 0 && (w.die 0).relock.isNone, (match exec (.tlbiAcknowledge 0) w with | .next t => t.shootdown.isNone && t.me.pc == 0x1008 | _ => false),
   (match exec (.tlbiAcknowledge 0) two with | .next t => t.shootdown == some (0, 0, 0x2000, 1, [1]) | _ => false),
   decide (Ready s a sl) && guardOn a sl && !a.wakePend,
   goes sl p (openPhase (p.setMe { p.me with wakePend := false }) 1 2), goes (.sleep (gd (fw 0 198 0) true 0xFF)) s s,
   (wakeAgent s 1).me.wakePend]) = true := by decide +kernel

/-- A team that sleeps until REFTIME 5, at REFTIME 10. -/
def slept : State := { one { team with state := .sleep, sleepEnd := 5 } with reftime := 10 }
theorem witness_SleepEnds : Tab.find slept.agents 1 = some { team with state := .sleep, sleepEnd := 5 } ∧ 5 ≤ refCopy slept 0 := by
  refine ⟨rfl, ?_⟩
  show 5 ≤ 10 + (Config.dieSkew 0).toNat % 5 - 2
  omega

/-- A privileged team, and a second one in slot 3 of its core. -/
def oneT (t : Agent) : State :=
  { one (withS team [(2, 0x2000), (4, 3), (6, 16), (8, 0x2001)]) with agents := [(1, withS team [(2, 0x2000), (4, 3), (6, 16), (8, 0x2001)]), (2, { t with slot := 3 })] }
theorem witness_ContextResults : allOf (
  let s := oneT team
  let a := s.me
  let sv := fw 200 194 196
  let both := fun (f : FArgs) => [Instr.ctxsv f, .ctxld f]
  let gone := one a
  let k : Agent := { team with state := .saved, slot := 3 }
  [(both (fw 200 194 198)).all (fun i => traps i s .reservedField 0), (both (fw 200 200 196)).all (fun i => traps i s .misaligned 0x2001), (both (gd sv true 0xFF)).all (fun i => goes i s s),
   (both sv).all (fun i => (teamAt gone 0 3).isNone && goes i gone (gone.setMe (wrN { a with hold := .none } 200 1 (fun _ => some 1)))),
   teamAt s 0 3 == some 2 && (s.agent 2).state != .saved && mayCtxsv (s.agent 2) && decide (Ready s a (.ctxsv sv)),
   (let u := oneT { k with state := .saved }; goes (.ctxsv sv) u (u.setMe (wrN a 200 1 (fun _ => some 1)))),
   goes (.ctxld sv) s (s.setMe (wrN a 200 1 (fun _ => some 1))),
   (let w := oneT { team with lahead := [due] }
    !mayCtxsv (w.agent 2) && decide (Ready w a (.ctxsv sv)) && nx (exec (.ctxsv sv) w) == some (w.setMe ({ a with hold := .saveOther 3 } : Agent).heldBack)),
   (let w := oneT { team with allot := 0 }; (drainPosted w 1 (redTouches [])).posted.isEmpty),
   (let u := oneT k; teamAt u 0 3 == some 2 && (u.agent 2).state == .saved && decide (Ready u a (.ctxld sv)))]) = true := by decide +kernel

/-! An area is some 22,000 bytes: that it can be translated and read follows from its page, byte by byte. -/
theorem xlate_page (s : State) (k : Nat) (ht : Tab.get s.tlbs k [] = [⟨0, 0, 2 ^ 16, 0x1F⟩]) (va : Nat) (p : Perm) (u : Bool) (h : va < 2 ^ 16)
    (hp : p ≠ .fetch) : xlate s k 0 va p u = .ok va := by
  have e : lookup s k 0 va = .ok (2 ^ 16, 0x1F) := by
    have hd : decide (va < 65536) = true := decide_eq_true h
    simp [lookup, ht, hd]
  have m : va % 2 ^ 16 = va := Nat.mod_eq_of_lt h
  have hq : permits 0x1F p u = true := by cases u <;> cases p <;> first | rfl | exact absurd rfl hp
  have z : fieldN 0x1F 52 11 * 2 ^ 40 + fieldN 0x1F 10 38 * 1024 + va % 2 ^ 16 = va := by
    rw [m]; simp [fieldN]
  have b : ¬ va ≥ 2 ^ 50 := by omega
  simp only [xlate, e, if_neg b, hq, if_true, z]
theorem xlateRange_page (s : State) (k : Nat) (ht : Tab.get s.tlbs k [] = [⟨0, 0, 2 ^ 16, 0x1F⟩]) (va n : Nat) (p : Perm) (u : Bool) (h : va + n ≤ 2 ^ 16)
    (hp : p ≠ .fetch) : xlateRange s k 0 va n p u = .ok ((List.range n).map (va + ·)) := by
  have key : ∀ l : List Nat, (∀ i ∈ l, va + i < 2 ^ 16) → l.foldr (fun i r =>
      match xlate s k 0 (va + i) p u with
      | .error m => .error (va + i, m)
      | .ok x => r.map (x :: ·)) (.ok []) = (.ok (l.map (va + ·)) : Except (Nat × Miss) (List Nat)) := by
    intro l hl
    induction l with
    | nil => rfl
    | cons i l ih =>
      simp only [List.foldr_cons, ih (fun j hj => hl j (List.mem_cons_of_mem _ hj)), xlate_page s k ht (va + i) p u (hl i (List.mem_cons_self ..)) hp]
      rfl
  exact key _ (fun i hi => by have := List.mem_range.mp hi; omega)
/-- The second team of `oneT`, with no registers, about to be saved; and saved by CTXSV with an area whose header was of this byte. -/
def leaving : Agent := { team with allot := 0, state := .saved, savedFrom := .run, inPlace := true, slot := 3 }
def savedTeam (v : Byte) : Agent := { leaving with area := List.replicate 144 v }
theorem toBytes_len : ∀ n x, (toBytes n x).length = n
  | 0, _ => rfl
  | n + 1, x => by simp [toBytes, toBytes_len n]
theorem flatten_len (n c : Nat) (f : Nat → List Byte) (h : ∀ i, (f i).length = c) : (((List.range n).map f).flatten).length = n * c := by
  induction n with
  | zero => simp
  | succ n ih => simp only [List.range_succ, List.map_append, List.flatten_append, List.length_append, ih]; simp [h, Nat.succ_mul]
theorem area_len (s : State) (k : Nat) (a : Agent) (h1 : a.allot = 0) (h2 : a.stack = []) (h3 : a.watch = []) (h4 : a.arrivals = [])
    (e : sideEntries s k = []) (hh : (areaHeader s k a).length = 144) : (teamArea s k a []).length = 22528 := by
  have hs : (sBytes a).length = 256 := flatten_len 64 4 _ (fun _ => toBytes_len _ _)
  simp only [teamArea, lookArea, e, h1, h2, h3, h4, arrivalArea, List.flatten_cons, List.flatten_nil, List.length_append, List.length_nil, hh, hs,
    padTo, toBytes_len, List.length_replicate, List.map_nil, List.reverse_nil, List.range_zero]
theorem witness_ContextSave : ∃ locs, xlateRange (oneT { team with allot := 0 }) 0 0 0x2000
    (teamArea (oneT { team with allot := 0 }) 2 leaving []).length .write false = .ok locs := by
  refine ⟨_, xlateRange_page _ 0 rfl _ _ _ _ ?_ (by decide)⟩
  rw [area_len _ _ _ rfl rfl rfl rfl rfl (by decide +kernel)]
  decide
theorem zeros_read (s : State) (a : Agent) (n : Nat) (ht : Tab.get s.tlbs 0 [] = [⟨0, 0, 2 ^ 16, 0x1F⟩]) (hu : a.unit = 0) (ha : a.asid = 0)
    (hp : ∀ x, poisoned s a x = false) (hj : ∀ l, unjoined s l = []) (hv : s.versions = []) (hc : ∀ x, sideCovers s s.cur x = false) (hn : 0x2000 + n ≤ 2 ^ 16) (hs : ∀ x, x < 2 ^ 16 → seeByte s a x = some 0) :
    ∃ b locs, readAtIssue s a 0x2000 n = .ok (b, locs) ∧ readAway s a locs = none ∧ b.take 42 = List.replicate (min 42 n) 0 := by
  have hz : ∀ x ∈ (List.range n).map (0x2000 + ·), seeByte s a x = some 0 := by
    intro x hx
    obtain ⟨i, hi, rfl⟩ := List.mem_map.mp hx
    exact hs _ (by have := List.mem_range.mp hi; omega)
  refine ⟨((List.range n).map (0x2000 + ·)).zipIdx.map (fun x => (seeByte s a x.1).getD 0), (List.range n).map (0x2000 + ·), ?_, ?_, ?_⟩
  · unfold readAtIssue
    have hx' : xlateRange s a.unit a.asid 0x2000 n .read (!a.priv) = .ok ((List.range n).map (0x2000 + ·)) := by
      rw [hu, ha]; exact xlateRange_page s 0 ht _ n _ _ hn (by decide)
    have f1 : (((List.range n).map (0x2000 + ·)).zipIdx).find? (fun e => poisoned s a e.1) = none := by
      rw [List.find?_eq_none]; intro e _; simp [hp]
    have f2 : (((List.range n).map (0x2000 + ·)).zipIdx).find? (fun e => (seeByte s a e.1).isNone
          && (!reachable s (homeOf e.1) || (a.lostLine.map (·.1)) == some (lineOf e.1))) = none := by
      rw [List.find?_eq_none]; intro e he; simp [hz e.1 (List.fst_mem_of_mem_zipIdx he)]
    have f0 : ((List.range n).map (0x2000 + ·)).filter (sideCovers s s.cur) = [] := by
      rw [List.filter_eq_nil_iff]; intro x _; simp [hc]
    simp only [hx', f0, f1, f2, hj, List.contains_nil, List.isEmpty_nil, Bool.not_true, Bool.false_eq_true, if_false]
  · unfold readAway
    rw [List.find?_eq_none]; intro x hx; simp [hz x hx, olderAt, hv]
  · have h0 : ∀ x ∈ (((List.range n).map (0x2000 + ·)).zipIdx.map (fun x => (seeByte s a x.1).getD 0)).take 42, x = 0 := by
      intro x hx
      obtain ⟨y, hy, rfl⟩ := List.mem_map.mp (List.mem_of_mem_take hx)
      simp [hz y.1 (List.fst_mem_of_mem_zipIdx hy)]
    rw [List.eq_replicate_of_mem h0]
    simp
theorem area_read (v : Byte) : ∃ b locs, readAtIssue (oneT (savedTeam v)) (oneT (savedTeam v)).me 0x2000 (areaSize (savedTeam v)) = .ok (b, locs) ∧
    readAway (oneT (savedTeam v)) (oneT (savedTeam v)).me locs = none ∧ b.take 42 = List.replicate 42 0 := by
  have hn : areaSize (savedTeam v) = 22528 := rfl
  rw [hn]
  exact zeros_read (oneT (savedTeam v)) (oneT (savedTeam v)).me 22528 rfl rfl rfl
    (fun x => by simp [poisoned, badAt, lineBad, noPath, noPathAway, show (oneT (savedTeam v)).poison = [] from rfl, show (oneT (savedTeam v)).pairs = [] from rfl,
      show (oneT (savedTeam v)).grove (oneT (savedTeam v)).me.grove = Grove.reset from rfl, show Grove.reset.poison = [] from rfl])
    (fun l => by simp [unjoined, show (oneT (savedTeam v)).traces = [] from rfl, show (oneT (savedTeam v)).matCmds = [] from rfl]) rfl (fun x => rfl) (by omega) (fun x hx => by
    have h0 : homeOf x = 0 := Nat.div_eq_of_lt (by omega)
    have hd : (oneT (savedTeam v)).device = 0 := rfl
    show sharedByte (oneT (savedTeam v)) 0 x = some 0
    simp only [sharedByte, h0, hd]
    rfl)
theorem witness_ContextLoad : (List.replicate 42 0 = (savedTeam 0).area.take 42) ∧ List.replicate 42 0 ≠ (savedTeam 1).area.take 42 := by decide

/-! ### Events -/
def fop (kind flags arg : Nat) (data : List Byte := []) : FabOp :=
  { kind := kind, flags := flags, key := 0, asid := 0, tag := 0, addr := 0x80, arg := arg, data := data, src := 0, tc := 1 }
def oneOp (o : FabOp) : State := { one team with inbox := [o] }
/-- The event answers this state. -/
def gives (i : Instr) (s t : State) : Bool := nx (exec i s) == some t
/-- The event answers a state of which this holds. -/
def toSome (i : Instr) (s : State) (p : State → Bool) : Bool := (nx (exec i s)).any p
def logged (t : State) (code : Nat) : Bool := (t.growth.getLast?).any (fun e => e.code == code)

theorem witness_FaultAnswers : allOf (
  let r : FaultRec := { asid := 0, va := 0x5000, cause := .pageNotPresent, access := 0, malf := false, user := true, source := 0, slot := 0
                        gridId := 0, wgid := 0, cursor := 0, ring := 0, whom := .hold 1, posted := some 2, overflowed := false }
  let a : Agent := { team with state := .faultHold, priv := false }
  let s : State := { one a with faults := [r] }
  let u := one a
  let fq : List Byte := (List.range 64).map (fun i => if i = 40 then 3 else if i = 35 then 0x80 else if i = 33 then 0x20 else if i = 17 then 0x90 else 0)
  let p : State := { u with faults := [{ r with posted := none }], asidCache := [(0, fq)] }
  let e : SideEntry := { agent := 1, va := 0x2000, mask := 1, red := false, ctrl := 0, ord := 0, slot := 0, seq := 0, data := 7, user := false, num := 1, code := 1 }
  let l : State := (one team).setCore 0 { Core.reset with sideLog := [e] }
  let q : State := { one team with posted := [(4, ⟨1, 0, 1, .red 0x12 0 0x2000 0x2000 5⟩)] }
  let b := reissue a
  [(recordAt u 0 2).isNone && gives (.faultrespRetry 0 2) u u && gives (.faultrespReject 0 2) u u && gives (.faultrespAbort 0 2) u u,
   recordAt s 0 2 == some r && gives (.faultrespRetry 0 2) s (u.setAgent 1 b) && gives (.faultrespReject 0 2) s (takeTrap (u.setAgent 1 b) 1 .pageNotPresent 0x5000)
     && gives (.faultrespAbort 0 2) s (abortGrid u a.grid),
   gives .fqovfClear { u with fqSticky := true, fqCount := 3 } { u with fqSticky := false, fqCount := 0 },
   queueInForce p 0 && (recordAt p 0 (fqIndex p 0)).isNone && gives (.faultRecordPost 0) p (postRecord p { r with posted := none })
     && toSome (.faultRecordPost 0) p (fun t => (recordAt t 0 0).isSome && t.mem.readNat 0x9000 8 == 0x5000 && t.mem.readNat 0x9020 4 == 0),
   !pageWaits l 1 0 && onPage l l.me 0 0x2000 && toSome (.sideLogReplay 1 0) l (fun t => (t.core 0).sideLog.isEmpty && Tab.find t.me.stores 0x2000 == some 7),
   -- the answers to records of a page of the side log, of a copy, of a queue, and to an INFO record; and by the register
   (let w : State := { l with faults := [{ r with whom := .side 0 1 0x2000 }] }
    gives (.faultrespRetry 0 2) w l && gives (.faultrespReject 0 2) w (rejectSide l 1 .pageNotPresent 0x2000) && gives (.faultrespAbort 0 2) w (abortGrid l 0)),
   (let c : Copy := { agent := 1, grid := 0, wg := 0, grove := 0, core := 0, asid := 0, user := true, ring := some (0, 0), cmd := none
                      job := .lanes 4 true true [(0x40, 0x10040)], cursor := 0, suspended := true, view := [], mark := 0, lost := [], num := 0
                      crc := (0, 0), crcBack := (0, 0), crcFree := false }
    let w : State := { u with faults := [{ r with whom := .copy 0 }], copies := [(0, c)] }
    let v : State := { w with faults := [], copies := [(0, { c with suspended := false })] }
    let x : State := { w with faults := [] }
    gives (.faultrespRetry 0 2) w v && gives (.faultrespReject 0 2) w (abortGrid x 0) && gives (.faultrespAbort 0 2) w (abortGrid x 0)),
   (let w : State := { u with faults := [{ r with whom := .queue 3 }] }
    toSome (.faultrespRetry 0 2) w (fun t => !(t.queue 3).blocked) && toSome (.faultrespReject 0 2) w (fun t => !(t.queue 3).en)),
   (let w : State := { u with faults := [{ r with whom := .info }] }
    [Instr.faultrespRetry 0 2, .faultrespReject 0 2, .faultrespAbort 0 2].all (fun i => gives i w u)),
   sysWrite s false 0 0x20000 .faultresp == u.setAgent 1 b && sysWrite s false 0 0xC0020000 .faultresp == s,
   postedReady q 4 ⟨1, 0, 1, .red 0x12 0 0x2000 0x2000 5⟩ && toSome (.postedAccessPerformed 4) q (fun t => t.posted.isEmpty && t.mem.readNat 0x2000 4 == 5)])
  = true := by decide +kernel

def gotBytes (g : CopyGot) : Option (List Byte) := match g with | .bytes b => some b | _ => none
def boot : State := { one team with bootStage := 15, powered := true }
/-- A queue at 0x8000 of local memory with sixteen slots, of address space 0. -/
def q0 : Queue := { Queue.reset with base := 0x8000, ctl := 0xC0040000, tail := 1 }
/-- A command at the first slot of that queue, and as it is once taken up. -/
def oneQ (bs : List Byte) : State := { boot with queues := [(3, q0)], mem := Memory.writeCells [] (bs.zipIdx.map (fun e => (0x8000 + e.2, e.1))) }
def took (bs : List Byte) : Cmd := { queue := 3, loc := true, asid := 0, prio := 0, slotAddr := 0x8000, bytes := bs, order := 0, begun := false, done := false, deadline := 0, phase := 0, record := [], verdict := none, producer := none }
def oneCmd (bs : List Byte) : State := { oneQ bs with cmds := [(0, took bs)], nextOrder := 1 }
def cmdBytes (op flags : Nat) (fs : List (Nat × Nat × Nat)) : List Byte := bytesOf 64 ((0, 1, op) :: (1, 1, flags) :: fs)

theorem witness_QueueRegisters : allOf (
  let s := boot
  let good : Word := 0x80048005
  let live : State := s.setQueue 3 q0
  [gives (.qctlEnable 3 good) (one team) (one team), gives (.qctlDisable 3 good) (one team) (one team), gives (.qtailDoorbell 3 1) (one team) (one team),
   toSome (.qctlEnable 3 good) s (fun t => (t.queue 3).en && (t.queue 3).log2n == 4 && (t.queue 3).prio == 2 && (t.queue 3).asid == 5 && (t.queue 3).ctl == 0x80048005),
   toSome (.qctlEnable 3 0x80030000) s (fun t => !(t.queue 3).en), toSome (.qctlEnable 3 0x80110000) s (fun t => !(t.queue 3).en),
   toSome (.qctlEnable 3 0x80100000) s (fun t => (t.queue 3).en), gives (.qctlEnable 3 good) live live, toSome (.qctlDisable 3 0) live (fun t => !(t.queue 3).en),
   gives (.qtailDoorbell 3 15) live (live.setQueue 3 { q0 with tail := 15 }), gives (.qtailDoorbell 3 16) live live,
   toSome (.qtailDoorbell 3 15) ((live.setQueue 3 { q0 with qown := 0x201 }).setQueue 9 { q0 with qown := 0x201 })
     (fun t => (t.queue 3).tail == 15 && (t.queue 9).tail == 15)]) = true := by decide +kernel

theorem witness_CommandTakeUp : allOf (
  let bs := cmdBytes 4 0 [(8, 8, 0x2000), (16, 8, 0x3000), (24, 8, 128)]
  let s := oneQ bs
  let odd := oneQ (cmdBytes 7 0 [])
  [nextQueue s == some 3 && gotBytes (readSlot s q0).2 == some bs && queueGrids s == 0 && gives (.commandTakeUp 3) s (takeUp (readSlot s q0).1 3 q0 bs),
   toSome (.commandTakeUp 3) s (fun t => (t.queue 3).head == 1 && (Tab.find t.cmds 0) == some (took bs)),
   nextQueue odd == some 3 && toSome (.commandTakeUp 3) odd (fun t => (t.queue 3).head == 1 && (Tab.find t.cmds 0).all (·.done))]) = true := by decide +kernel

/-- A launch record as a queue holds it. -/
def good : List Byte := bytesOf 256 [(0, 4, 1), (4, 2, 1), (6, 2, 1), (8, 2, 32), (10, 1, 32), (24, 8, 0x4000), (32, 4, 8), (64, 8, 0x1000), (44, 4, 5), (84, 1, 1), (85, 1, 4)]
theorem witness_CommandResults : allOf (
  let at_ := fun (op : Nat) (fs : List (Nat × Nat × Nat)) => oneCmd (cmdBytes op 0 fs)
  let x := fun (s : State) => (openCmd s 0).getD (took [])
  let may := fun (s : State) (last : Bool) (n : Nat) => mayBegin s (x s) last && cmdClean (x s) n
  let l := at_ 1 [(8, 8, 0x2000)]
  let g := at_ 2 [(8, 8, 0x2000), (16, 8, 5), (24, 8, 1)]
  let w := at_ 3 [(8, 8, 0x2000), (16, 8, 0), (24, 8, 1)]
  let w2 : State := { w with cmds := [(0, { x w with begun := true, bytes := cmdBytes 3 0 [(8, 8, 0x2000), (16, 8, 1), (24, 8, 0)] })] }
  let c := at_ 4 [(8, 8, 0x2000), (16, 8, 0x3000), (24, 8, 128)]
  let bad := fun (op : Nat) => at_ op [(40, 8, 1)]
  let read := fun (v : Nat) => ({ l with cmds := [(0, { x l with record := rec0, verdict := some v })] } : State)
  let live : State := { read 0 with grids := [(7, { grid0 with gridId := BitVec.ofNat 32 (recHandle rec0) })] }
  [(x l).verdict.isNone && gives (.launchCommand 0) l (readRecord l 0 (x l)),
   cmdClean (x l) 16 && gotBytes (frontRead l 0 0x2000 256).2 == some (List.replicate 256 0)
     && readRecord l 0 (x l) == (frontRead l 0 0x2000 256).1.setCmd 0 { x l with verdict := some 2 },
   (let g : State := { l with mem := Memory.writeCells [] (good.zipIdx.map (fun e => (0x2000 + e.2, e.1))) }
    let r := frontRead g 0 0x2000 256
    recordOk r.1 good false && decide (0 < recHandle good) && decide (recHandle good < 0x80000000)
      && readRecord g 0 (x g) == r.1.setCmd 0 { x g with record := good, verdict := some 0, producer := liveProducer r.1 0 good }),
   (let b := at_ 1 [(8, 8, 0x2040)]; readRecord b 0 (x b) == b.setCmd 0 { x b with verdict := some 1 }),
   mayBegin (read 0) (x (read 0)) false && (liveGrid (beginCmd (read 0) 0 (x (read 0))) 0 (recHandle rec0)).isNone && gives (.launchCommand 0) (read 0)
     (addGrid (beginCmd (read 0) 0 (x (read 0))) 0 rec0 0 (recHandle rec0) (sliceN rec0 13 1) (max (recPrio rec0) 0) none (some 0) none []),
   (liveGrid (beginCmd live 0 (x live)) 0 (recHandle rec0)).isSome && gives (.launchCommand 0) live (completeCmd (beginCmd live 0 (x live)) 0 3),
   gives (.launchCommand 0) (read 2) (completeCmd (beginCmd (read 2) 0 (x (read 2))) 0 2),
   may g true 32 && semOk (x g) && (match semAccess (beginCmd g 0 (x g)) 0 0 0x2000 2 5 3 with
     | .value u _ => gives (.signal 0) g (completeCmd u 0 0) && u.mem.readNat 0x2000 8 == 5
     | _ => false),
   -- a signal waits while bytes are on their way to another device
   (let away : State := { g with sent := [(0, { op := fop 2 0 0, more := [], dest := 1, why := .place 1, deadline := 9, path := none, old := false, seq := 0, answers := [] })] }
    let t := carryClosed away 0xFFFFFFFF 0
    homeward t 0 && gives (.signal 0) away t && !homeward (carryClosed g 0xFFFFFFFF 0) 0 && carryClosed g 0xFFFFFFFF 0 == g),
   may w false 32 && semOk (x w) && gives (.waitsig 0) w (readSemaphore (beginCmd w 0 (x w)) 0 (x w)) && toSome (.waitsig 0) w (fun t => (openCmd t 0).isNone),
   (x w2).begun && !cmdSent w2 0 && gives (.waitsigReread 0) w2 (readSemaphore w2 0 (x w2)) && toSome (.waitsigReread 0) w2 (fun t => (openCmd t 0).isSome),
   may c false 32 && toSome (.copy 0) c (fun t => t.copies.map (fun e => e.2.job) == [.range 0x2000 0x3000 128]),
   [(Instr.signal 0, 2), (.waitsig 0, 3), (.copy 0, 4)].all (fun e => !cmdClean (x (bad e.2)) 32 && mayBegin (bad e.2) (x (bad e.2)) true
     && gives e.1 (bad e.2) (completeCmd (beginCmd (bad e.2) 0 (x (bad e.2))) 0 1))]) = true := by decide +kernel

theorem witness_TopologyCommands : allOf (
  let at_ := fun (op : Nat) (fs : List (Nat × Nat × Nat)) => oneCmd (cmdBytes op 0 fs)
  let x := fun (s : State) => (openCmd s 0).getD (took [])
  let off := fun (s : State) => { s with queues := [(3, { q0 with qown := 1 })] }
  let d := at_ 8 [(8, 1, 4), (16, 8, 100)]
  let t := at_ 9 [(8, 1, 4), (16, 8, 100)]
  let up := fun (s : State) => s.setPort 4 { s.port 4 with pstate := 2 }
  let w := at_ 11 [(8, 8, 0x2000), (16, 8, 1)]
  let ready : State := { w with routes := [some (bytesOf 64 [(6, 2, 9)]), none] }
  let late : State := { ready with cmds := [(0, { x w with begun := true, phase := 2 })] }
  let out := fun (s : State) => { s with cmds := [(0, { x s with begun := true, deadline := 0 })] }
  let may := fun (s : State) => mayBegin s (x s) true
  [[(Instr.portdrain 0, d), (.porttrain 0, t), (.routeload 0, at_ 10 []), (.routeswap 0, w)].all (fun e =>
     may (off e.2) && gives e.1 (off e.2) (completeCmd (beginCmd (off e.2) 0 (x (off e.2))) 0 1)),
   may d && portCmdOk (x d) && toSome (.portdrain 0) d (fun u => (u.port 4).pstate == 0) && (q0.func == 0),
   may t && portCmdOk (x t),
   gives (.porttrain 0) (up t) (completeCmd (beginCmd (up t) 0 (x t)) 0 18),
   may w && semOk (x w) && cmdClean (x w) 24 && (loadedImage w).isNone && gives (.routeswap 0) w (completeCmd (beginCmd w 0 (x w)) 0 21),
   may ready && (match semAccess ((beginCmd ready 0 (x ready)).setCmd 0 { x ready with begun := true, phase := 1 }) 0 0 0x2000 2 1 3 with
     | .value u _ => gives (.routeswap 0) ready (readSwap u 0 (x ready))
     | _ => false),
   toSome (.routeswap 0) ready (fun u => u.current == some 0 && u.device == 9 && (openCmd u 0).isNone),
   !cmdSent late 0 && gives (.routeswapSemaphoreRead 0) late (readSwap late 0 (x late)) && toSome (.routeswapSemaphoreRead 0) late (fun u => u.current.isNone),
   (out d).reftime == 0 && toSome (.portCommandTimeout 0) (out (up d)) (fun u => (u.port 4).pstate == 2)
     && toSome (.portCommandTimeout 0) ((out t).setPort 4 { (out t).port 4 with pstate := 1 }) (fun u => (u.port 4).pstate == 0)]) = true := by decide +kernel

/-- A PORTTRAIN of port 4, whose management frame has octets that the spec leaves open. -/
def trainCmd : State := oneCmd (cmdBytes 9 0 [(8, 1, 4), (16, 8, 100)])
theorem witness_PortTrain : exec (.porttrain 0) trainCmd = .next (sendManagement ((runPortCmd (beginCmd trainCmd 0 (took (cmdBytes 9 0 [(8, 1, 4), (16, 8, 100)]))) 0
    (took (cmdBytes 9 0 [(8, 1, 4), (16, 8, 100)]))).setPort 4 (training (trainCmd.port 4))) 4 0 0) := rfl
/-- A ROUTELOAD of an image of one device. -/
def loadCmd : State :=
  { oneCmd (cmdBytes 10 0 [(8, 8, 0x2000)]) with mem := Memory.writeCells [] ((bytesOf 8 [(0, 4, 0x52544231), (4, 2, 1)]).zipIdx.map (fun e => (0x2000 + e.2, e.1))) }
theorem fill_page (s : State) (ht : Tab.get s.tlbs 640 [] = [⟨0, 0, 2 ^ 16, 0x1F⟩]) (va : Nat) (h : va < 2 ^ 16) : fillTlb s 640 0 va = s := by
  have hd : decide (va < 65536) = true := decide_eq_true h
  have e : lookup s 640 0 va = .ok (2 ^ 16, 0x1F) := by simp [lookup, ht, hd]
  have z : va / 65536 = 0 := Nat.div_eq_of_lt h
  simp [fillTlb, e, ht, z]
theorem image_read (s : State) (n : Nat) (ht : Tab.get s.tlbs 640 [] = [⟨0, 0, 2 ^ 16, 0x1F⟩]) (hg : s.groves = []) (hp : s.poison = []) (hq : s.pairs = [])
    (hv : s.versions = []) (ho : s.orphans = [])
    (hc : ∀ p, s.agentsWhere (fun _ b => b.closes.any p) = []) (hh : s.held = []) (hd : s.device = 0) (h0 : 0 < n) (hn : 0x2000 + n ≤ 2 ^ 16) : ∃ bs, frontRead s 0 0x2000 n = (s, .bytes bs) := by
  have hx := xlateRange_page s 640 ht 0x2000 n .read false hn (by decide)
  have hf : ∀ l : List Nat, l.foldl (fun s ln => flushAll s 0 (128 * ln)) s = s := by
    intro l
    induction l with
    | nil => rfl
    | cons x l ih =>
      have : flushAll s 0 (128 * x) = s := by simp only [flushAll, flushClosed, settleOrphans, ho, hg, hc, List.map_nil, List.foldl_nil]
      simp only [List.foldl_cons, this, ih]
  have hr : ∀ l : List Nat, resolveEngine s 0 l = s := by intro l; simp [resolveEngine, hv]
  have ht2 : fillTlbs s 640 0 [0x2000, 0x2000 + n - 1] = s := by
    simp only [fillTlbs, List.foldl_cons, List.foldl_nil]
    rw [fill_page s ht 0x2000 (by omega), fill_page s ht _ (by omega)]
  have hb : ∀ x ∈ (List.range n).map (0x2000 + ·), (copyByte s (frontCopy 0) x).isNone = false := by
    intro x hx
    obtain ⟨i, hi, rfl⟩ := List.mem_map.mp hx
    have h0 : homeOf (0x2000 + i) = 0 := Nat.div_eq_of_lt (by have := List.mem_range.mp hi; omega)
    have hgr : s.grove 64 = Grove.reset := by rw [State.grove, hg]; rfl
    have hf : Tab.find s.held (0x2000 + i) = none := by rw [hh]; rfl
    show (sharedByte s 64 (0x2000 + i)).isNone = false
    simp only [sharedByte, hgr, hf, h0, hd]
    rfl
  have hx' : xlateRange s (frontCopy 0).unit (frontCopy 0).asid 0x2000 n .read (frontCopy 0).user = .ok ((List.range n).map (0x2000 + ·)) := hx
  have hcm : (frontCopy 0).cmd.isNone = false := rfl
  refine ⟨((List.range n).map (0x2000 + ·)).map (fun x => (copyByte s (frontCopy 0) x).getD 0), ?_⟩
  have hgv : s.grove (frontCopy 0).via = Grove.reset := by rw [State.grove, hg]; rfl
  have f1 : (((List.range n).map (0x2000 + ·)).zipIdx).find? (fun e => (Tab.find (frontCopy 0).view e.1).isNone
      && ((s.grove (frontCopy 0).via).poison.contains (lineOf e.1)
        || (badAt s (portOfUnit (frontCopy 0).via) e.1 && (Tab.find (s.grove (frontCopy 0).via).staging e.1).isNone))) = none := by
    rw [List.find?_eq_none]; intro e _; simp [badAt, lineBad, noPath, noPathAway, hp, hq, hgv, show Grove.reset.poison = [] from rfl]
  have hl : copyLogged s (frontCopy 0) 0x2000 n = false := rfl
  have f2 : (((List.range n).map (0x2000 + ·)).zipIdx).find? (fun e => (copyByte s (frontCopy 0) e.1).isNone) = none := by
    rw [List.find?_eq_none]; intro e he; simp [hb e.1 (List.fst_mem_of_mem_zipIdx he)]
  simp only [frontRead, hx, hf, hr, ht2, copyRead, hx', hl, Bool.false_eq_true, if_false, f1, f2]
theorem witness_RouteLoad : ∃ head bs, (openCmd loadCmd 0).isSome = true ∧ mayBegin loadCmd (took (cmdBytes 10 0 [(8, 8, 0x2000)])) true = true ∧
    cmdClean (took (cmdBytes 10 0 [(8, 8, 0x2000)])) 16 = true ∧
    gotBytes (frontRead (beginCmd loadCmd 0 (took (cmdBytes 10 0 [(8, 8, 0x2000)]))) 0 0x2000 64).2 = some head ∧ sliceN head 4 2 = 1 ∧
    frontRead (beginCmd loadCmd 0 (took (cmdBytes 10 0 [(8, 8, 0x2000)]))) 0 0x2000 (imageBytes 1) =
      (beginCmd loadCmd 0 (took (cmdBytes 10 0 [(8, 8, 0x2000)])), .bytes bs) := by
  obtain ⟨bs, hb⟩ := image_read (beginCmd loadCmd 0 (took (cmdBytes 10 0 [(8, 8, 0x2000)]))) (imageBytes 1) rfl rfl rfl rfl rfl rfl (fun _ => rfl) rfl rfl (by decide) (by decide)
  refine ⟨bytesOf 64 [(0, 4, 0x52544231), (4, 2, 1)], bs, ?_, ?_, ?_, ?_, ?_, hb⟩ <;> decide +kernel

theorem witness_FabricRequests : allOf (
  let s := fun (o : FabOp) => oneOp o
  let t := fun (o : FabOp) => { s o with inbox := [] }
  let line : List Byte := List.replicate 128 7
  let live := fun (s : State) => s.setPort 0 { Port.reset with pstate := 2 }
  let sent : Sent := { op := fop 1 0 0, more := [], dest := 0, why := .other, deadline := 10, path := none, old := false, seq := 0, answers := [] }
  let ack := s (fop 5 0 0 line)
  let x : State := { one team with sent := [(0, sent)], reftime := 10 }
  let h : State := { one team with held := [(0x80, 5), (2 ^ 40 + 0x80, 6)] }
  [gives .readLine (s (fop 1 1 0)) (answerLine (t (fop 1 1 0)) (fop 1 1 0)),
   toSome .readLine (live { s (fop 1 0 0) with mem := [(0x80, 3)] }) (fun u => (u.port 0).replay.length == 1 && Tab.find u.directory 1 == some (.devices [0])),
   gives .versionFetch (s (fop 1 2 9)) (fetchVersion (t (fop 1 2 9)) (fop 1 2 9)),
   gives .resolvingFetch (s (fop 1 4 0)) (answerLine (resolveLine (t (fop 1 4 0)) 0 1) (fop 1 4 0)),
   toSome .writeLine (s (fop 2 0 0x81 line)) (fun u => u.mem.read 0x80 == 7 && u.mem.read 0x90 == 0 && u.mem.read 0xFF == 7),
   toSome .atomic (s (fop 3 0 0x12_0000_0000_00 (toBytes 8 5))) (fun u => u.mem.readNat 0x80 4 == 5),
   toSome .invalidate (live { s (fop 4 1 0) with peers := [(1, line)] }) (fun u => u.peers.isEmpty && (u.port 0).replay.length == 1),
   toSome .acknowledge { ack with sent := [(0, sent)] } (fun u => u.sent.isEmpty && Tab.find u.peers 1 == some line), gives .acknowledge ack (t (fop 5 0 0 line)),
   gives (.fabricTimeout 0) x (timedOut x 0 sent) && toSome (.fabricTimeout 0) x (fun u => u.sent.isEmpty),
   gives (.lineEviction 1 4) (one team) (flushWhere (fun x => x / 128 == 4) (pushWhere (one team) 0 1 0 (fun x => x / 128 == 4)) 1),
   (let s := (one team).setDie 0 { Die.reset with relock := some (0, 0, 0, 1900) }; dieStopped s 0 && gives (.lineEviction 1 4) s s),
   -- an invalidation by multicast: of a device that was not asked, of one of two, and of the last
   (let m : Sent := { sent with answers := [0, 7] }
    let two : State := { ack with sent := [(0, m)] }
    let other := { two with inbox := [{ fop 5 0 0 line with src := 9 }] }
    let last : State := { ack with sent := [(0, { m with answers := [0] })] }
    gives .acknowledge two { two with inbox := [], sent := [(0, { m with answers := [7] })] } && gives .acknowledge other { other with inbox := [] }
      && gives .acknowledge last (answer { last with inbox := [] } { m with answers := [0] } (fop 5 0 0 line))),
   (let d : State := { ack with sent := [(0, { sent with dest := 3 })] }; gives .acknowledge d { d with inbox := [] }),
   toSome (.heldBytesPlaced 1) h (fun u => u.mem.read 0x80 == 5 && u.held == [(2 ^ 40 + 0x80, 6)]),
   homeOf (128 * (2 ^ 33 + 1)) == 1 && gives (.heldBytesPlaced (2 ^ 33 + 1)) h (pushHeld h 0xFFFFFFFF (lineAsid h (2 ^ 33 + 1) 0) (2 ^ 33 + 1)),
   (let d : State := { h with directory := [(1, .devices [3])] }; lineShared d 1 && gives (.heldBytesPlaced 1) d d),
   -- other devices hold the line: they are asked first
   [((Instr.readLine : Instr), fop 1 1 0), (.readLine, fop 1 0 0), (.versionFetch, fop 1 2 9), (.resolvingFetch, fop 1 4 0), (.writeLine, fop 2 0 0x81 line),
     (.atomic, fop 3 0 0x12_0000_0000_00 (toBytes 8 5)), (.bundleCommit, fop 7 0 77)].all (fun e =>
       let d : State := { s e.2 with directory := [(1, .owner 3)], versions := [⟨1, 77, [], 0, 0, false, none⟩] }
       inOrder d e.2 && !recalling d 1 && mustRecall d e.2
         && gives e.1 d (recallLine d 0 1 (if e.2.kind ≤ 2 ∧ e.2.flags < 2 then 0 else d.device))),
   (let b : State := { one team with poison := [1] }; answerLine b (fop 1 0 0) == replyTo b (fop 1 0 0) 0x0C []),
   (let b := one team; answerLine b (fop 1 0 0) == replyTo (addHolder b 1 0 false) (fop 1 0 0) 0 (lineNow b (opLine b (fop 1 0 0))))]) = true := by decide +kernel

theorem witness_LineWritten : (fop 2 0 0x81 (List.replicate 128 7)).data.length = 128 ∧ (fop 2 0 0x81).addr < 2 ^ 40 ∧ Memory.wf (one team).mem = true := by
  decide +kernel

theorem witness_BundleMessages : allOf (
  let m : FabOp := fop 6 1 77 (toBytes 16 3)
  let d : FabOp := fop 6 0 77 (List.replicate 128 9)
  let s : State := { one team with inbox := [d, m] }
  let e : State := one team
  let full : State := { s with versions := [⟨1, 76, [], 0, 0, false, none⟩] }
  let placed : State := placePending e m d
  let c : State := { placed with inbox := [fop 7 0 77] }
  let w : State := { commitVersion placed 0 77 1 with inbox := [fop 7 1 77] }
  let b : Bundle := { ident := 77, name := 1, agent := 1, scope := 2, state := .placed, bytes := [(0x80, 9)], lines := [1], sig := 0, unacked := [], refusedAt := none }
  let sb := fun (b : Bundle) => ({ placed with bundles := [(4, b)] } : State)
  let r : State := { sb { b with state := .pending, refusedAt := some 0 } with reftime := 2000 }
  [gives .bundlePending s placed && (placed.versions.map (·.cells)) == [[(0x80, 9), (0x81, 9)]],
   !takesVersion { full with inbox := [] } 77 1 && toSome .bundlePending full (fun w => w.versions == full.versions && w.refusals.length == 1),
   toSome .bundleCommit c (fun u => u.mem.read 0x80 == 9 && u.mem.read 0x82 == 0 && Tab.find u.lineVer 1 == some [77]),
   toSome .bundleSettle w (fun u => u.versions.isEmpty && u.mem.read 0x81 == 9),
   gives (.bundleCommitSend 4) (sb b) (commitBundle (sb b) 4 b) && toSome (.bundleCommitSend 4) (sb b) (fun u => u.mem.read 0x80 == 9),
   toSome (.bundleSettleSend 4) (sb { b with state := .committed, lines := [] }) (fun u => (Tab.find u.bundles 4).any (fun x => x.state == .settled && x.ident == 77)),
   (let far := { b with lines := [2 ^ 33 + 1], bytes := [(2 ^ 40 + 128, 9)] }
    gives (.bundleCommitSend 4) (sb far) (abandonBundle (sb far) 4 (2 ^ 33 + 1) far)
      && gives (.bundleCommitSend 4) (sb { b with state := .committed, unacked := [2 ^ 33 + 1] }) (sb { b with state := .committed, unacked := [2 ^ 33 + 1] })),
   toSome (.bundleSettleSend 4) (sb { b with state := .committed }) (fun u => (Tab.find u.bundles 4).any (fun x => x.state == .settled)),
   toSome (.bundleWithdrawal 4) r (fun u => logged u 0x60),
   gives .bundleSettle w (settleOp { w with inbox := [] } (fop 7 1 77))]) = true := by decide +kernel

/-- A port that runs, with one frame of this device sent on it and not acknowledged. -/
def up0 : Port := { Port.reset with pstate := 2, lmask := 0xFF, width := 3, neigh := 5 }
def ack0 : List Byte := sealFrame (rawFrame ⟨0x7FF, 0x7FF, 7, 2, false, 5, 0⟩ []) 0 0x40
def withPort (x : Port) (now : Nat) : State := { one team with ports := [(4, x)], reftime := now }
theorem witness_LinkEvents : allOf (
  let s := withPort up0 0
  let bad := ack0.set 20 1
  let short := sealFrame ((rawFrame ⟨0x7FF, 0x7FF, 7, 2, false, 5, 0⟩ []).set 6 0) 0 0
  let busy : Port := { up0 with replay := [⟨ack0, 0, 0, true, none⟩], ackDue := true }
  let held := fun (x : Port) (now : Nat) => withPort x now
  [gives (.frameReceived 4 ack0) s (receiveFrame s 4 ack0) && fcsOk ack0 && (frameParse ack0).isSome && toSome (.frameReceived 4 ack0) s (fun u => (u.port 4).rxSeq == 1 && (u.port 4).ackDue),
   !fcsOk bad && toSome (.frameReceived 4 bad) s (fun u => (u.port 4).nakDue && (u.port 4).rxSeq == 0),
   fcsOk short && (frameParse short).isNone && gives (.frameReceived 4 short) s (s.setPort 4 { up0 with drops := 1 }),
   (let s := withPort { Port.reset with pstate := 1 } 0
    let u := refillPort (s.setPort 4 { s.port 4 with pstate := 2, neigh := 9, lmask := 0xFF, width := (s.port 4).floor, nextWidth := none }) 4
    gives (.managementFrame 4 9 0) s ((portCmds u 9 4).foldl (fun s c => completeCmd s c (16 + 65536 * 9)) u) && (u.port 4).pstate == 2),
   (let h := readHead ack0
    h.seq == 0 && !noTransit s h (frameOps ack0) && (let u := takeLink (s.setPort 4 { up0 with rxSeq := 1, ackDue := true }) 4 (frameLink ack0)
      receiveFrame s 4 ack0 == routeFrame (endDrain (refillPort u 4) 4) h [] (frameOps ack0))),
   gives (.managementFrame 4 0 1) s (s.setPort 4 { up0 with width := 1 }),
   toSome (.linkReplayTimeout 4) (held busy 4000) (fun u => (u.port 4).retries == 1 && (u.port 4).replay == [⟨ack0, 4000, 0, true, none⟩]),
   toSome (.emptyAckFrame 4) (held busy 0) (fun u => !(u.port 4).ackDue && (u.port 4).txSeq == 1 && (u.port 4).replay.length == 2),
   toSome (.portWidthTakesEffect 4) (held { up0 with width := 1, nextWidth := some 2, widenAt := 5 } 5) (fun u => (u.port 4).width == 2),
      (let y := { up0 with width := 1 }; let s := withPort y 0; toSome (.wavelengthLoss 4 7 1) s (fun u => (u.port 4).width == 1 && logged u 0x20)),
   toSome (.wavelengthRelock 4 7 3) (withPort { up0 with lmask := 0x7F } 0) (fun u => (u.port 4).lmask == 0xFF && (u.port 4).relocks == 1)]) = true := by decide +kernel
theorem witness_PortWiden : allOf (
  let x : Port := { up0 with width := 1, band := 2 }
  let s := withPort x 1000
  [decide (2 ≤ (s.port 4).pstate), (s.port 4).nextWidth.isNone, decide ((s.port 4).width < widestFor (countBits (s.port 4).lmask 8))]) = true := by decide +kernel
/-! Each of these tells the far end by a management frame, whose octets the spec leaves open. -/
theorem witness_WidthTold :
    exec (.wavelengthLoss 4 7 0) (withPort up0 0) = .next (loseWavelength (withPort up0 0) 4 7 0) ∧
    exec (.portWiden 4) (withPort { up0 with width := 1, band := 2 } 1000) = .next (sendManagement
      (withPort { up0 with width := 1, band := 2, nextWidth := some 2, widenAt := 2200 } 1000) 4 1 2) ∧
    exec (.portNarrow 4) (withPort up0 20000) = .next (sendManagement (withPort { up0 with width := 2 } 20000) 4 1 2) := ⟨rfl, rfl, rfl⟩

def coll0 (op n : Nat) : Collective :=
  { Collective.reset with en := true, busy := true, sent := true, recAddr := 0x2000, rankmap := [0], fork := bytesOf 128 [(0, 1, op), (4, 2, n), (16, 8, 0x3000), (24, 8, 0x4000), (32, 4, if op = 0 then 2 else 128)] }
def withColl (x : Collective) : State := { one team with collectives := [(6, x)] }
theorem witness_CollectiveEvents : allOf (
  let s := one team
  let shard : FabOp := fop 8 0 (6 * 2 ^ 40) (List.replicate 128 1)
  let pass : FabOp := fop 8 0 (6 * 2 ^ 40 + 1) (List.replicate 128 1)
  let ex := { coll0 1 1 with slot := 2 }
  [toSome (.ccctlEnable 6 0x80000005) s (fun t => (t.coll 6).en && (t.coll 6).asid == 5), toSome (.ccctlDisable 6 0) (withColl { coll0 0 1 with busy := false }) (fun t => !(t.coll 6).en),
   toSome (.ccctlDisable 6 0) (withColl (coll0 0 1)) (fun t => (t.coll 6).en && (t.coll 6).unbind),
   toSome (.ccctlEnable 6 0x80000005) (withColl (coll0 0 1)) (fun t => (t.coll 6).asid == 0), toSome (.ccctlDisable 6 5) s (fun t => (t.coll 6).asid == 5),
   toSome .collectiveShard { withColl (coll0 0 1) with inbox := [shard] } (fun t => (t.coll 6).shards.length == 1),
   toSome .collectiveShard { s with inbox := [pass] } (fun t => (t.coll 6).shards.length == 1),
   (startSlot (beginForks (withColl (coll0 1 1))) 6 == withColl (coll0 1 1)) && shardsAcked (withColl (coll0 1 1)) 6 && gives (.collectiveSlotEnd 6) (withColl (coll0 1 1)) (endSlot (withColl (coll0 1 1)) 6),
   toSome (.collectiveSlotEnd 6) (withColl (coll0 1 1)) (fun t => (t.coll 6).slot == 1),
   toSome (.collectiveCompletion 6) (withColl { coll0 0 1 with bad := true }) (fun t => logged t 0x70 && !(t.coll 6).busy),
   gives (.collectiveCompletion 6) (withColl (coll0 0 1)) (finishReduce (withColl (coll0 0 1)) 6) && toSome (.collectiveCompletion 6) (withColl (coll0 0 1)) (fun t => !(t.coll 6).busy && (t.coll 6).runs == 1 && t.mem.readNat 0x2030 8 == 1),
   (startSlot (beginForks (withColl ex)) 6 == withColl ex)]) = true := by decide +kernel
theorem witness_ExchangeEnds : exec (.collectiveCompletion 6) (withColl { coll0 1 1 with slot := 2 }) =
    .next (finishExchange (withColl { coll0 1 1 with slot := 2 }) 6) := rfl

theorem witness_PairEvents : allOf (
  let s := one team
  let sel := 18
  let put := fun (p : Pair) => s.setPair 18 p
  let p := s.pair 18
  let lost := put { p with alost := true, retraining := 1 }
  [!pairOf 18 && pairOf 19, toSome (.flitReceived 19 ⟨2, 0, 0⟩ true) s (fun t => Tab.get (t.pair 19).recvSeq 2 0 == 1),
   toSome (.flitReceived 19 ⟨2, 0, 0⟩ false) s (fun t => (t.pair 19).failed == [(2, 0)] && (t.pair 19).tries == []),
   toSome (.flitReceived 19 ⟨2, 0, 0⟩ false) (s.setPair 19 { p with failed := [(2, 0)] }) (fun t => Tab.get (t.pair 19).tries 4 0 == 1),
   toSome (.flitReceived 19 ⟨2, 0, 1⟩ true) (s.setPair 19 { p with failed := [(6, 1)], tries := [(13, 3)] })
     (fun t => (t.pair 19).early == [6] && (t.pair 19).recvSeq.isEmpty && (t.pair 19).failed.isEmpty && (t.pair 19).tries.isEmpty),
   toSome (.flitReceived 19 ⟨2, 0, 0⟩ true) (s.setPair 19 { p with early := [6] }) (fun t => Tab.get (t.pair 19).recvSeq 2 0 == 2 && (t.pair 19).early.isEmpty),
   (let d := s.setPair 19 { p with early := [6] }; gives (.flitReceived 19 ⟨2, 1, 1⟩ false) d d),
   (let d := s.setPair 19 { p with next := some 1, failed := [(2, 0)] }; !(d.pair 19).drained && gives (.pairDrainEnd 19) d d),
   (let d := s.setPair 19 { p with next := some 1, alost := true, failed := [(2, 0)] }; (d.pair 19).drained && toSome (.pairDrainEnd 19) d (fun t => (t.pair 19).marked == [2])),
   (let d := s.setPair 19 { p with next := some 4, alost := true, blost := true, failed := [(2, 0)], early := [6] }
    toSome (.pairDrainEnd 19) d (fun t => (t.pair 19).active == 4 && (t.pair 19).failed.isEmpty && (t.pair 19).early.isEmpty)),
   (let d := s.setPair 19 { p with recvSeq := [(2, 5)] }; gives (.flitReceived 19 ⟨2, 0, 4⟩ true) d d),
   (let d := s.setPair 19 { p with active := 4 }; gives (.flitReceived 19 ⟨2, 0, 0⟩ true) d d),
   sel == 18, toSome (.colourLost 19 0 1) s (fun t => (t.pair 19).alost && !(t.pair 19).blost && (t.pair 19).losts == 1 && logged t 0x10 && (t.pair 19).next == some 1),
   toSome (.colourLost 19 1 3) (s.setPair 19 { p with failed := [(2, 1)], tries := [(5, 16)] }) (fun t => (t.pair 19).blost),
   toSome (.colourBGateOff 19) s (fun t => (t.pair 19).bgated), toSome (.colourBWake 19) s (fun t => !(t.pair 19).bgated),
   toSome (.pairDrainEnd 19) (s.setPair 19 { p with next := some 0 }) (fun t => (t.pair 19).next.isNone),
   toSome (.pairDrainEnd 19) (s.setPair 19 { p with next := some 1, alost := true }) (fun t => (t.pair 19).active == 1 && (t.pair 19).next.isNone && logged t 0x11),
   toSome (.routePairWrite 19 0x000D0100) s (fun t => (t.pair 19).relayk == 13 && (t.pair 19).mode == 1), toSome (.routePairWrite 19 0x000D0300) s (fun t => (t.pair 19).mode == 0),
   toSome (.routePairRetrain 19) (s.setPair 19 { p with alost := true, blost := true }) (fun t => (t.pair 19).retraining == 3),
   (lost.pair 18).alost, toSome (.pairRetrainEnd 19 3) (s.setPair 19 { p with alost := true, retraining := 1 }) (fun t => !(t.pair 19).alost && (t.pair 19).retraining == 0 && logged t 0x12)])
  = true := by decide +kernel
theorem witness_PairRouting : allOf (
  let s := one team
  let p := s.pair 19
  let both := s.setPair 19 { p with alost := true, blost := true }
  let alone : State := { both with pairs := both.pairs ++ ((List.range 17).map (fun k => (17 + k, { p with active := 4, alost := true, blost := true }))) }
  [routing s 19 == 0, routing (s.setPair 19 { p with alost := true }) 19 == 1, routing (s.setPair 19 { p with blost := true, mode := 1, relayk := 13 }) 19 == 2,
   routing (s.setPair 19 { p with blost := true, mode := 1, relayk := 1 }) 19 == 1, routing both 19 == 3, relayUsable both 19 0, !relayUsable both 19 2, !relayUsable both 19 1,
   routing alone 19 == 4]) = true := by decide +kernel

theorem witness_ClockAndPowerEvents : allOf (
  let s : State := { one team with reftime := 1000000 }
  let put := fun (x : Die) => s.setDie 3 x
  let d := Die.reset
  [!(s.die 3).emergency, toSome (.frequencyDecision 3 2200) s (fun t => (t.die 3).wanted == some 2200), toSome (.frequencyDecision 3 600) s (fun t => (t.die 3).wanted == some 600),
   gives (.relockStart 3) (put { d with wanted := some 950 }) (beginRelock (put d) 3 950),
   gives (.relockStart 3) (put { d with wanted := some 1900, lastRelock := some 900000 }) (put { d with lastRelock := some 900000 }),
   toSome (.relockEnd 3) (put { d with relock := some (0, 0, 0, 1900), mhz := 950 }) (fun t => (t.die 3).relock.isNone && (t.die 3).mhz == 950 && (t.die 3).ncyc == 1900000),
   toSome (.thermalEmergencyEnd 3) (put { d with emergency := true }) (fun t => !(t.die 3).emergency && logged t 0x31),
   dramNext 0 1361 == 1 && toSome (.dramStackStateChange 5 1361) s (fun t => Tab.get t.drams 5 0 == 1 && logged t 0x32),
   toSome (.relockEnd 3) (put { d with relock := some (0, 0, 0, 1900), mhz := 950, emergencyDue := true }) (fun t => (t.die 3).relock.isSome && (t.die 3).mhz == 600),
   toSome (.thermalEmergency 3) s (fun t => (t.die 0).emergency && logged t 0x30 && (t.die 0).mhz == 600),
   toSome (.thermalEmergency 200) (put { d with relock := some (0, 0, 0, 1900) }) (fun t => (t.die 3).emergencyDue),
   toSome (.uncorrectableError 0x80) s (fun t => t.poison == [1] && logged t 0x90),
   gives .powerClassChange s { s with pclass := 0 }, toSome .budgetWindow s (fun t => t.budgetSince == 1000000 && t.rails.length == 17), gives (.patrolScrub 4) s s,
   gives (.correctedSoftErrors 4 3 2) s (logEvent { s with softSince := [(0x4003, 1000000)] } 0x80 0x4003 0 (toBytes 4 2)),
   (let t : State := { s with softSince := [(0x4003, 1)] }; gives (.correctedSoftErrors 4 3 2) t t),
   (let t : State := { s with drams := [(5, 1)] }; dramNext 1 1300 == 1 && gives (.dramStackStateChange 5 1300) t { t with dramTemps := [(5, 1300)] })]) = true := by decide +kernel

/-- FIPS 180-4's example: the hash of "abc". -/
theorem test_sha256 : sha256 [0x61, 0x62, 0x63] = toBytesBE 32 0xba7816bf8f01cfea414140de5dae2223b00361a396177a9cb410ff61f20015ad := by
  decide +kernel

theorem witness_HostEvents : allOf (
  let s : State := { boot with mem := [(0x10, 7)], poison := [5] }
  let fresh : State := { one team with powered := true }
  let last : State := { fresh with bootStage := 4 }
  [windowOk s (windowAddr s 0x10) && !lineBad s 16 (lineOf (windowAddr s 0x10)), toSome (.bar2Read 0x10 2) s (fun t => t.hostRead == [7, 0]),
   (let off : State := { s with w2base := 0xFFC0000000 }; !windowOk off (windowAddr off 0) && toSome (.bar2Read 0 1) off (fun t => t.hostRead == [0xFF])),
   toSome (.bar2Write 0x20 [1, 2]) s (fun t => t.mem.read 0x20 == 1 && t.mem.read 0x21 == 2 && t.mem.read 0x10 == 7),
   toSome .powerOn (one team) (fun t => t.powered && t.bootStage == 0 && t.agents.isEmpty),
   toSome (.bootStage 5) fresh (fun t => t.bootFail == 5 && t.bootStage == 0 && logged t 0x01),
   (let old : State := { fresh with bootStage := 2, flash := [⟨1, []⟩, ⟨4, []⟩], record := { fresh.record with minver := [1, 5] } }
    belowMin old && [0, 3].all (fun v => toSome (.bootStage v) old (fun t => t.bootFail == 3 && t.bootStage == 2 && logged t 0x01))),
   (let t : State := { s with w2ctl := 0x2000, windowKeys := [(0x10, 4)] }
    toSome (.bar2Write 0x11 [9]) t (fun u => Tab.find u.windowKeys 0x11 == some 0) && (Tab.find t.windowKeys 0x11).isNone && windowKey t == 0), fresh.powered && fresh.bootFail == 0 && decide (last.bootStage ≤ 4),
   toSome .packageResetRequest s (fun t => t.agents.isEmpty && t.bootStage == 0 && logged t 0xA0),
   !s.go && gives (.attestationGo (List.replicate 32 3)) s { s with go := true, nonce := List.replicate 32 3 },
   gives (.registerWrite 0x10000 0x40000000 true) s (writeBar0 s 0x10000 0x40000000 true) && (writeBar0 s 0x10000 0x40000000 true).w2base == 0x40000000,
   gives .uncorrectableLinkError s { s with aer := true }, toSome (.debuggerHalt 511) s (fun t => (t.core 511).halted), toSome (.debuggerResume 511) s (fun t => !(t.core 511).halted),
   toSome (.corePowerGating 0 true) s (fun t => (t.core 0).gated && (Tab.get t.tlbs 0 []).isEmpty), toSome (.corePowerGating 0 false) s (fun t => !(t.core 0).gated)]) = true := by decide +kernel

theorem witness_HostRegisters : allOf (
  let s := boot
  let live := s.setQueue 255 q0
  [!(s.queue 255).en && ((writeBar0 s (0x100000 + 64 * 255) 0x12340 true).queue 255).base == 0x12340,
   (live.queue 255).en && writeBar0 live (0x100000 + 64 * 255) 0x12340 true == live,
   writeBar0 s (0x100000 + 64 * 255 + 8) 0x80048005 false == enableQueue s 255 0x80048005, writeBar0 live (0x100000 + 64 * 255 + 8) 0x48005 false == disableQueue live 255 0x48005,
   writeBar0 live (0x100000 + 64 * 255 + 0x10) 7 false == writeQtail live 255 7, s.bootStage == 15,
   (writeBar0 s 0x10008 0xFFFFFFFF true).w2ctl == 0x3FFF]) = true := by decide +kernel

/-- The grid of `rec0` with its one workgroup not placed, after a rest of every grove. -/
def fresh : Grid := { grid0 with placed := [], eligible := [] }
def oneN (g : Grid) : State := { one team with agents := [], grids := [(0, g)], nextOrder := 1, reftime := 1000 }
/-- The record of `rec0` with another value of some bytes. -/
def rec1 (fs : List (Nat × Nat × Nat)) : List Byte := bytesOf 256 ([(0, 4, 1), (4, 2, 1), (6, 2, 1), (8, 2, 32), (10, 1, 32), (24, 8, 0x4000), (32, 4, 8), (64, 8, 0x1000), (84, 1, 1), (85, 1, 4)] ++ fs)
def wg0 : Wg := { grid := 0, wgid := 0, grove := 0, gang := 0, saved := false, retired := false, placedAt := 1, banks := [], rings := [] }
def room (u : State) : Option (Cand × List Reserved) := match nextAct u with | some (.room c xs) => some (c, xs) | _ => none
theorem witness_DistributorEvents : allOf (
  let s := oneN fresh
  let pair := oneN { fresh with record := rec1 [(0, 4, 2), (11, 1, 1)] }
  let half : State := { pair with reservation := some (0, 0), reserved := ((room pair).map (·.2)).getD [] }
  let dep := { fresh with record := rec1 [(224, 4, 9), (232, 4, 1), (236, 2, 1), (238, 2, 1), (240, 8, 0x6000)] }
  let ended : State := { oneN grid0 with wgs := [(7, wg0)] }
  let gone := oneN { grid0 with retired := 1 }
  [dropReservation s == s && (room s).any (fun e => e.1.saved.isEmpty && e.1.wgids.length == 1 && e.1.wgids.all (fun w => e.2.any (fun x => x.wgid == w)) && gives .placement s (placeAll s 0 e.2)),
   toSome .placement s (fun t => t.agents.map (fun e => (e.2.core, e.2.slot, e.2.pc)) == [(0, 0, 0x1000)] && t.wgs.length == 1),
   (room pair).any (fun e => e.1.wgids.length == 2 && e.2.length == 1) && toSome .gangReservation pair (fun t => t.reservation == some (0, 0) && t.agents.isEmpty && t.reserved.length == 1),
   half.reserved.length == 1 && dropReservation half == half && toSome .gangReservation half (fun t => t.reservation.isNone && t.wgs.length == 2 && t.agents.length == 2),
   recProducer dep.record != 0 && toSome (.dependenceEvaluation 0) { oneN dep with mem := [(0x6000, 1)] } (fun t => (Tab.find t.grids 0).any (fun g => g.eligible == [0])),
   wgOver ended 7 && !homeward (retireClose ended 0 0) 0 && toSome (.workgroupRetirement 7) ended (fun t => t.wgs.isEmpty && (Tab.find t.grids 0).any (fun g => g.retired == 1)),
   (let w : State := { ended with sent := [(0, { op := fop 2 0 0, more := [], dest := 1, why := .place 1, deadline := 9, path := none, old := false, seq := 0, answers := [] })] }
    homeward (retireClose w 0 0) 0 && gives (.workgroupRetirement 7) w (retireClose w 0 0)),
   gridOver gone { grid0 with retired := 1 } && toSome (.gridRetirement 0) gone (fun t => t.grids.isEmpty)]) = true := by decide +kernel

/-- One bank of every grove is held by a workgroup of class 1, and a workgroup of class 0 asks for it. -/
def crowd : State :=
  { oneN { fresh with record := rec1 [(36, 4, 1)] } with
    grids := [(0, { fresh with record := rec1 [(36, 4, 1)] }), (1, { grid0 with prio := 1, record := rec1 [(36, 4, 1)] })]
    wgs := (List.range 64).map (fun g => (10 + g, { wg0 with grid := 1, grove := g, wgid := g, gang := g, placedAt := g })) }
def away0 : State := { oneN { grid0 with placed := [0] } with wgs := [(7, { wg0 with saved := true })] }
theorem witness_PreemptionAndRestore : allOf [
    (match nextAct crowd with | .some (.save ws) => ws == [73] && ws.all (fun w => (wgAgents crowd w).isEmpty) && gives .preemption crowd (saveWg crowd 73) | _ => false),
    (room away0).any (fun e => e.1.saved == [7] && gives .restore away0 ((e.1.saved.zip e.2).foldl (fun s e => restoreWg s e.1 e.2) away0)),
    toSome .restore away0 (fun t => (Tab.find t.wgs 7).any (fun w => !w.saved))] = true := by decide +kernel

theorem witness_EncodeThenDecode : shapeOf nopI ≠ .event ∧ shapeOf (Instr.mxMma (lw 202 212 214)) ≠ .event := by decide
theorem witness_DecodeThenEncode : decodeWords 0x0C000000003FC000 0 = .ok nopI := by decide +kernel
theorem witness_StoreFrame : allOf (
  let s := one mover
  let i : Instr := .st (fw 6 2 0)
  [decide (Ready s mover i), decide (Quiet s mover i), (sideEntries s s.cur).isEmpty, (rangeFault (globalEas mover i 2 0) 4).isNone,
   (lanesOf s i 4 .write).any (fun ls => ls.map (·.1) == [0, 1])]) = true := by decide +kernel
theorem witness_AtomicOperations : [atomNew 2 2 0xFFFFFFFF 5, atomNew 6 2 0xFFFFFFFF 5, atomNew 9 2 0xFFFFFFFF 5, atomNew 10 2 5 5, atomNew 11 2 0 5] =
    [4, 0xFFFFFFFF, 0xFFFFFFFF, 0, 5] := by decide +kernel

end Sys2Proof.Tests
end

section
/-! SUPPORT. Proofs of the statements of the scope: what system registers read after a write (R7, R85, R134, R257, R328), and the
completion of a long-latency instruction within its window (R39, R42). -/

namespace Sys2Proof.Machine

open Sys2Proof.Safety

/-! ### System registers (R7, R329, R330) -/

/-- The two level bits of TSTATE are the low two bits of what is written (R328). -/
theorem b2n_bits_01 (v : Nat) : 2 * b2n (bitN v 1) + b2n (bitN v 0) = v % 2 ^ 2 := by
  have bit (k : Nat) : b2n (bitN v k) = v / 2 ^ k % 2 := by
    simp only [b2n, bitN, Nat.testBit_eq_decide_div_mod_eq, decide_eq_true_eq]
    split <;> omega
  rw [bit, bit]
  omega

/-- A register narrower than its word reads the low bits of a write, and the rest of it as zero (R7). -/
theorem toNat_ofNat_narrow {w n : Nat} (h : n ≤ w) (v : Nat) : (BitVec.ofNat w (v % 2 ^ n)).toNat = v % 2 ^ n := by
  rw [BitVec.toNat_ofNat, Nat.mod_eq_of_lt]
  exact (Nat.mod_lt v (Nat.two_pow_pos n)).trans_le (Nat.pow_le_pow_right Nat.two_pos h)

/-- CLR_ASQ reads the address space last selected and that one's quota (R257). -/
theorem readClrAsq_writeClrAsq (s : State) (v : Nat) :
    readClrAsq (writeClrAsq s v) = 65536 * (v / 65536 % 8192) + min 12 (v % 16) := by
  simp [readClrAsq, writeClrAsq, quotaOf, fieldN, Nat.shiftRight_eq_div_pow]

/-- Settles O48, register by register: the width at which each keeps a write. -/
theorem systemRegisterValues : Obligations.SystemRegisterValues := by
  intro s a v
  refine ⟨toNat_ofNat_narrow (n := 6) (by omega) v, BitVec.toNat_ofNat v 32, BitVec.toNat_ofNat v 32,
    toNat_ofNat_narrow (n := 16) (by omega) v, BitVec.toNat_ofNat v 32, toNat_ofNat_narrow (n := 8) (by omega) v,
    BitVec.toNat_ofNat v 64, BitVec.toNat_ofNat v 64, b2n_bits_01 v, BitVec.toNat_ofNat v 32, BitVec.toNat_ofNat v 32,
    BitVec.toNat_ofNat v 32, BitVec.toNat_ofNat v 32, rfl, readClrAsq_writeClrAsq s v, BitVec.toNat_ofNat v 64, ?_, ?_⟩
  · intro r unwritten
    cases r <;> simp_all [agentWrite]
  · show Host.Outcome.next (writeClrAsq s (BitVec.ofNat 32 v).toNat) = _
    rw [BitVec.toNat_ofNat]
    rfl

/-! ### A result that comes within its window (R39, R42) -/

/-- An outstanding instruction of an agent that is in no save pool completes within its window: the registers wait, and all that
happens is `earlyResult`. -/
theorem exec_longLatencyCompletion_early {s : State} {k token : Nat} {a : Agent} {e : LAEntry} (ha : Tab.find s.agents k = some a)
    (he : a.lahead.find? (fun x => x.token == token && !x.done) = some e) (hopen : entryOpen s k e = false)
    (hdie : dieStopped s a.die = false) (hremain : e.remain ≠ 0) (haway : a.away = false) :
    exec (.longLatencyCompletion k token) s = .next (earlyResult s k e) := by
  have h0 : s.agent k = a := agent_of_find ha
  have hpool : poolSave (earlyResult s k e) k = earlyResult s k e := by
    simp [poolSave, earlyResult, State.modAgent, ha, haway]
  show execLongLatencyCompletion k token s = _
  simp [execLongLatencyCompletion, h0, he, hopen, hdie, completeEntry, hremain, hpool]

/-- The completion marks every entry of the token, not only the one whose result has come. -/
theorem earlyResult_lahead {s : State} {k : Nat} {a b : Agent} (e : LAEntry) (ha : Tab.find s.agents k = some a)
    (hb : Tab.find (earlyResult s k e).agents k = some b) :
    b.lahead = a.lahead.map (fun x => if x.token == e.token then { x with done := true, flags := [] } else x) := by
  simp only [earlyResult, State.modAgent, ha, setAgent_agents, Tab.find_put_same, Option.some.injEq] at hb
  rw [← hb]

end Sys2Proof.Machine

namespace Sys2Proof.Counterexamples

open Sys2Proof.Machine

/-- An entry of token 7, of the kind that CTXLD makes of one whose bytes software has changed (R338): such an entry's token may be any
number of 16 bits, and nothing keeps two of them apart. -/
def sharedToken (done : Bool) (remain : Nat) : LAEntry :=
  { token := 7, parks := true, mem := true, dest := 4, nreg := 1, remain := remain, done := done, lanes := 1, taint := 1, values := []
    sext := 0, srcs := [], flags := [], err := none, atTrap := 0, phase := 0, num := 0, tags := [], sites := [] }

/-- Two entries share token 7: the first has completed, and its window ends one issue before that of the second, which has not. -/
def twoOfAToken : Agent := { Agent.blank with lahead := [sharedToken true 1, sharedToken false 2] }
def twoOfATokenState : State := { State.reset with agents := [(0, twoOfAToken)] }

/-- Refutes O14: the statement finds the completed entry again by its token alone, and another entry of that token may stand before it.
In `twoOfATokenState` the entry that completes has 2 instructions of its window left, and the one found by the token has 1. -/
theorem not_longArithmetic : ¬ Obligations.LongArithmetic := by
  rintro ⟨-, completes, -⟩
  have first : Tab.find twoOfATokenState.agents 0 = some twoOfAToken := rfl
  have found : twoOfAToken.lahead.find? (fun x => x.token == 7 && !x.done) = some (sharedToken false 2) := rfl
  have closed : entryOpen twoOfATokenState 0 (sharedToken false 2) = false := rfl
  have runs : dieStopped twoOfATokenState twoOfAToken.die = false := rfl
  obtain ⟨t, b, ht, hb, -, within, -⟩ := completes _ 0 _ _ first found closed runs
  obtain ⟨-, -, y, hy, -, hremain, -⟩ := within (by decide)
  have outcome := exec_longLatencyCompletion_early first found closed runs (by decide) rfl
  obtain rfl : earlyResult twoOfATokenState 0 (sharedToken false 2) = t := Host.Outcome.next.inj (outcome.symm.trans ht)
  rw [earlyResult_lahead _ first hb] at hy
  obtain rfl : sharedToken true 1 = y := Option.some.inj hy
  exact absurd hremain (by decide)

end Sys2Proof.Counterexamples
end

section
/-! SUPPORT. A turn of the machine: the choice of an agent, its fetch, and the end of the turn (R22, R44, R49). -/

namespace Sys2Proof.Machine

open Sys2Proof.Safety


theorem step_of_slot {s : State} {c n : Nat} {ts : List Turn} (h : s.agenda = .slot c n :: ts) (hc : c < 512) (hn : n < 2) :
    step s = slotTurn { s with agenda := ts } c n := by
  simp [step, stepOf, h, runTurn, Nat.mod_eq_of_lt hc, Nat.mod_eq_of_lt hn]

theorem step_of_forester {s : State} {g : Nat} {ts : List Turn} (h : s.agenda = .forester g :: ts) (hg : g < 64) :
    step s = foresterTurn { s with agenda := ts } g := by
  simp [step, stepOf, h, runTurn, Nat.mod_eq_of_lt hg]

/-- Choosing an agent changes nothing of it but its state. -/
theorem chosenBy_agent (s : State) (k : Nat) : (chosenBy s k).agent k = { s.agent k with state := .run } :=
  setAgent_agent_same _ k _

/-- Words that are fetched and decode to an instruction bring it; the second is fetched only for an L frame (R49). -/
theorem fetch_instr {s : State} {a : Agent} {w0 w1 : DWord} {i : Instr} {rest : List Byte} (h0 : fetchWord s a a.pc.toNat = .ok w0)
    (h1 : if w0.extractLsb' 62 2 = 0b10#2 then fetchWord s a (a.pc.toNat + 8) = .ok w1 else w1 = 0)
    (hi : decode (wordBytes [w0, w1]) = .ok (i, rest)) : fetch s a = .instr i := by
  by_cases two : w0.extractLsb' 62 2 = 0b10#2
  · rw [if_pos two] at h1
    simp [fetch, h0, two, h1, hi]
  · rw [if_neg two] at h1
    subst h1
    have one : (w0.extractLsb' 62 2 == 0b10#2) = false := by simpa using two
    simp only [fetch, h0, one, Bool.false_eq_true, if_false, hi]

/-- An agent whose fetch brings an instruction executes it. -/
theorem issueOne_of_fetch {s : State} {k : Nat} {i : Instr} (h : fetch (chosenBy s k) ((chosenBy s k).agent k) = .instr i) :
    issueOne s k = exec i (fillFetch (pastFetch (chosenBy s k) ((chosenBy s k).agent k)) ((chosenBy s k).agent k) i) := by
  unfold issueOne
  change (match fetch (chosenBy s k) ((chosenBy s k).agent k) with | .instr i => _ | .trap c addr => _ | .away loc => _) = _
  rw [h]
  rfl

/-- An agent that issued ends the turn (R44). -/
theorem tryAgents_of_issued {s t : State} {k : Nat} (ks : List Nat) (mark : State → Nat → State) (h : issueOne s k = .next t)
    (issued : t.issued = true) : tryAgents s (k :: ks) mark = .next (markChosen (mark t k) k false) := by
  simp [tryAgents, h, issued]

/-- Settles O4: the agenda's next turn, the fetch of two words, and the end of the turn. -/
theorem stepRunsDecoded : Obligations.StepRunsDecoded := by
  refine ⟨fun s c n ts h hc hn running => ?_, fun s g ts h hg running => ?_, fun s t k ks mark w0 w1 i rest h0 h1 hi ht issued => ?_⟩
  · simp [step_of_slot h hc hn, slotTurn, running]
  · have awake : dieStopped { s with agenda := ts } (g / 8) = false := running
    simp [step_of_forester h hg, foresterTurn, awake]
  · have pc : ((chosenBy s k).agent k).pc = (s.agent k).pc := by rw [chosenBy_agent]
    have fetched := fetch_instr (pc ▸ h0) (pc ▸ h1) hi
    exact tryAgents_of_issued ks mark ((issueOne_of_fetch fetched).trans ht) issued

end Sys2Proof.Machine
end

section
/-! SUPPORT. Ordinary stores: what the agent that stores sees afterwards, and what of other agents and of the state a store may change
(R31, R191, R222, R223). -/

namespace Sys2Proof.Machine

open Sys2Proof.Safety


theorem Tab.find_foldl_put_other {α : Type} (cs : List (Nat × α)) {k : Nat} (h : ∀ c ∈ cs, c.1 ≠ k) (t : Tab α) :
    Tab.find (cs.foldl (fun t c => Tab.put t c.1 c.2) t) k = Tab.find t k := by
  induction cs generalizing t with
  | nil => rfl
  | cons c cs ih =>
    rw [List.foldl_cons, ih (fun d hd => h d (List.mem_cons_of_mem _ hd)), Tab.find_put_other _ _ (h c List.mem_cons_self).symm]

/-- Of several entries set at a key, the last one is found. -/
theorem Tab.find_foldl_put_last {α : Type} (pre post : List (Nat × α)) {k : Nat} (x : α) (h : ∀ c ∈ post, c.1 ≠ k) (t : Tab α) :
    Tab.find ((pre ++ (k, x) :: post).foldl (fun t c => Tab.put t c.1 c.2) t) k = some x := by
  rw [List.foldl_append, List.foldl_cons, Tab.find_foldl_put_other post h, Tab.find_put_same]

theorem Tab.find_filter {α : Type} (p : Nat → Bool) {k : Nat} (hk : p k = true) (t : Tab α) :
    Tab.find (t.filter (fun e => p e.1)) k = Tab.find t k := by
  induction t with
  | nil => rfl
  | cons e t ih =>
    by_cases he : e.1 = k
    · simp [he, hk, Tab.find]
    · rw [List.filter_cons]
      split <;> simp [Tab.find, he, ih]

/-- A table each of whose entries is changed in place. -/
theorem Tab.find_map {α β : Type} (f : Nat × α → β) (t : Tab α) (k : Nat) :
    Tab.find (t.map (fun e => (e.1, f e))) k = (Tab.find t k).map (fun x => f (k, x)) := by
  induction t with
  | nil => rfl
  | cons e t ih =>
    by_cases he : e.1 = k
    · subst he
      simp [Tab.find]
    · simp [Tab.find, he, ih]

/-- Two agents differ at most in the spilled part of the mask stack. -/
def SameButSpill (a b : Agent) : Prop := { b with spilled := a.spilled, spill := a.spill } = a

theorem sameButSpill_refl (a : Agent) : SameButSpill a a := rfl

theorem SameButSpill.trans {a b c : Agent} (h : SameButSpill a b) (g : SameButSpill b c) : SameButSpill a c := by
  have e := congrArg (fun x : Agent => { x with spilled := a.spilled, spill := a.spill }) g
  exact e.trans h

theorem SameButSpill.setSpill {a b : Agent} (h : SameButSpill a b) (t : Tab Byte) : SameButSpill a { b with spill := t } := h

theorem SameButSpill.setSpilled {a b : Agent} (h : SameButSpill a b) (es : List MaskEntry) : SameButSpill a { b with spilled := es } := h

theorem sameButSpill_leaveBytes (a : Agent) (n : Nat) (e : MaskEntry) : SameButSpill a (leaveBytes a n e) :=
  (sameButSpill_refl a).setSpill _

theorem spoilWhere_eq (a : Agent) (hit : Nat → Bool) : ∃ es, ∃ ms, spoilWhere a hit =
    { (es : List (MaskEntry × Nat)).foldl (fun a e => leaveBytes a e.2 e.1) a with spilled := ms } := ⟨_, _, rfl⟩

/-- What software writes over spilled entries changes nothing else of their agent (R31). -/
theorem sameButSpill_spoilWhere (a : Agent) (hit : Nat → Bool) : SameButSpill a (spoilWhere a hit) := by
  have left (es : List (MaskEntry × Nat)) (b : Agent) : SameButSpill b (es.foldl (fun a e => leaveBytes a e.2 e.1) b) := by
    induction es generalizing b with
    | nil => exact sameButSpill_refl b
    | cons e es ih =>
      rw [List.foldl_cons]
      exact (sameButSpill_leaveBytes b e.2 e.1).trans (ih (leaveBytes b e.2 e.1))
  obtain ⟨es, ms, e⟩ := spoilWhere_eq a hit
  rw [e]
  exact (left es a).setSpilled ms

theorem spoilOwn_eq (a : Agent) (vas : List Nat) : ∃ hit t, spoilOwn a vas = { spoilWhere a hit with spill := t } := ⟨_, _, rfl⟩

theorem sameButSpill_spoilOwn (a : Agent) (vas : List Nat) : SameButSpill a (spoilOwn a vas) := by
  obtain ⟨hit, t, e⟩ := spoilOwn_eq a vas
  rw [e]
  exact (sameButSpill_spoilWhere a hit).setSpill t

/-- What a write of software does to the agents: nothing, or each but the writer may find spilled entries written over (R31). -/
theorem softwareWrote_agents (s : State) (k : Nat) (locs : List Nat) : (softwareWrote s k locs).agents = s.agents ∨
    ∃ u, (softwareWrote s k locs).agents = s.agents.map (fun e => (e.1, if e.1 = k then e.2 else spoilAt u e.2 locs)) := by
  unfold softwareWrote touchWritten
  dsimp only
  split
  · exact Or.inl rfl
  · refine Or.inr ⟨{ numberWrite s locs with
      codeGrids := locs.foldl (fun t w => Tab.put t w (residentGrids (numberWrite s locs))) (numberWrite s locs).codeGrids }, ?_⟩
    refine List.map_congr_left fun e _ => ?_
    by_cases he : e.1 = k <;> simp [he]
    simp [← he]

/-- A write of software changes of an agent at most its spilled entries (R31). -/
theorem softwareWrote_find {s : State} {j : Nat} {x : Agent} (k : Nat) (locs : List Nat) (h : Tab.find s.agents j = some x) :
    ∃ y, Tab.find (softwareWrote s k locs).agents j = some y ∧ SameButSpill x y := by
  obtain e | ⟨u, e⟩ := softwareWrote_agents s k locs <;> rw [e]
  · exact ⟨x, h, rfl⟩
  · rw [Tab.find_map (fun e => if e.1 = k then e.2 else spoilAt u e.2 locs), h]
    refine ⟨_, rfl, ?_⟩
    dsimp only
    split
    · rfl
    · exact sameButSpill_spoilWhere x _

/-- Ordinary stores change the agents, and the model's own notes of writes, and nothing else of the state. -/
theorem performStore_frame (s : State) (a : Agent) (cells : List (Nat × Nat × Byte)) :
    { performStore s a cells with agents := s.agents, codeGrids := s.codeGrids, codeSeq := s.codeSeq, codeWrites := s.codeWrites
                                  fullStores := s.fullStores } = s := by
  unfold performStore noteWhole softwareWrote touchWritten
  dsimp only
  split <;> split <;> rfl

@[simp] theorem softwareWrote_cur (s : State) (k : Nat) (locs : List Nat) : (softwareWrote s k locs).cur = s.cur := by
  unfold softwareWrote touchWritten
  dsimp only
  split <;> rfl

@[simp] theorem noteWhole_cur (s : State) (locs : List Nat) : (noteWhole s locs).cur = s.cur := by
  unfold noteWhole
  split <;> rfl

@[simp] theorem noteWhole_agents (s : State) (locs : List Nat) : (noteWhole s locs).agents = s.agents := by
  unfold noteWhole
  split <;> rfl

/-- The storing agent after its store. -/
def storing (a : Agent) (cells : List (Nat × Nat × Byte)) : Agent :=
  let a := storeBytes a (cells.map (fun c => (c.2.1, c.2.2)))
  let a := if a.spilled.isEmpty && a.spill.isEmpty then a else spoilOwn a (cells.map (·.1))
  { a with lineVa := cells.foldl (fun t c => Tab.put t (lineOf c.2.1) (c.1 - c.2.1 % 128)) a.lineVa }

theorem performStore_eq (s : State) (a : Agent) (cells : List (Nat × Nat × Byte)) : performStore s a cells =
    (softwareWrote (noteWhole s (cells.map (·.2.1))) (noteWhole s (cells.map (·.2.1))).cur (cells.map (·.2.1))).setMe (storing a cells) := rfl

/-- Of the storing agent, a store changes what `storeBytes` says, its notes on lines, and its spilled entries. -/
theorem storing_only (a : Agent) (cells : List (Nat × Nat × Byte)) :
    { storing a cells with spilled := a.spilled, spill := a.spill, lineVa := a.lineVa } =
      storeBytes a (cells.map (fun c => (c.2.1, c.2.2))) := by
  unfold storing
  extract_lets b c
  have same : SameButSpill b c := by
    unfold c
    split
    · exact sameButSpill_refl b
    · exact sameButSpill_spoilOwn b _
  exact congrArg (fun x : Agent => { x with lineVa := a.lineVa }) same

theorem performStore_me (s : State) (a : Agent) (cells : List (Nat × Nat × Byte)) :
    Tab.find (performStore s a cells).agents s.cur = some (storing a cells) := by
  simp [performStore_eq, State.setMe]

/-- A store touches of another agent at most its spilled entries (R31). -/
theorem performStore_other {s : State} {k : Nat} {x : Agent} (a : Agent) (cells : List (Nat × Nat × Byte)) (hk : k ≠ s.cur)
    (h : Tab.find s.agents k = some x) : ∃ y, Tab.find (performStore s a cells).agents k = some y ∧ SameButSpill x y := by
  obtain ⟨y, hy, same⟩ := softwareWrote_find (s := noteWhole s (cells.map (·.2.1))) s.cur (cells.map (·.2.1)) (by simpa using h)
  refine ⟨y, ?_, same⟩
  simpa [performStore_eq, State.setMe, Tab.find_put_other _ _ hk] using hy

/-- What an agent sees at a location depends on its own stores and reads and on what it may read there. -/
theorem seeByte_congr {s t : State} {a b : Agent} {loc : Nat} (own : ownByte b loc = ownByte a loc)
    (seen : Tab.find b.seen loc = Tab.find a.seen loc) (shared : eligibleByte t b loc = eligibleByte s a loc) :
    seeByte t b loc = seeByte s a loc := by
  simp only [seeByte, own, seen, shared]

theorem eligibleByte_performStore (s : State) (a b : Agent) (cells : List (Nat × Nat × Byte)) (loc : Nat) :
    eligibleByte (performStore s a cells) b loc = eligibleByte s b loc := by
  have frame := performStore_frame s a cells
  have hgrids : (performStore s a cells).grids = s.grids := (congrArg State.grids frame :)
  have hgroves : (performStore s a cells).groves = s.groves := (congrArg State.groves frame :)
  have hheld : (performStore s a cells).held = s.held := (congrArg State.held frame :)
  have hdevice : (performStore s a cells).device = s.device := (congrArg State.device frame :)
  have hmem : (performStore s a cells).mem = s.mem := (congrArg State.mem frame :)
  have hpeers : (performStore s a cells).peers = s.peers := (congrArg State.peers frame :)
  simp only [eligibleByte, sharedByte, State.grove, hgrids, hgroves, hheld, hdevice, hmem, hpeers]

/-- What the agent that stored reads afterwards: of a location stored to, its last byte there; of any other, what it read before. -/
theorem seeByte_performStore_last (s : State) (a : Agent) (pre post : List (Nat × Nat × Byte)) (va loc : Nat) (x : Byte)
    (last : ∀ c ∈ post, c.2.1 ≠ loc) :
    seeByte (performStore s a (pre ++ (va, loc, x) :: post)) (storing a (pre ++ (va, loc, x) :: post)) loc = some x := by
  have stores : (storing a (pre ++ (va, loc, x) :: post)).stores = _ :=
    (congrArg Agent.stores (storing_only a (pre ++ (va, loc, x) :: post)) :)
  have found : Tab.find (storing a (pre ++ (va, loc, x) :: post)).stores loc = some x := by
    rw [stores]
    simp only [storeBytes, List.map_append, List.map_cons]
    exact Tab.find_foldl_put_last _ _ x (by simpa using fun _ va' b hb => last _ hb) _
  simp [seeByte, ownByte, found]

theorem seeByte_performStore_other (s : State) (a : Agent) (cells : List (Nat × Nat × Byte)) (loc : Nat)
    (away : ∀ c ∈ cells, c.2.1 ≠ loc) : seeByte (performStore s a cells) (storing a cells) loc = seeByte s a loc := by
  have only := storing_only a cells
  have stores : (storing a cells).stores = _ := (congrArg Agent.stores only :)
  have kept : (storing a cells).kept = a.kept := (congrArg Agent.kept only :)
  have closes : (storing a cells).closes = a.closes := (congrArg Agent.closes only :)
  have bundled : (storing a cells).bundled = a.bundled := (congrArg Agent.bundled only :)
  have seen : (storing a cells).seen = _ := (congrArg Agent.seen only :)
  have grid : (storing a cells).grid = a.grid := (congrArg Agent.grid only :)
  have grove : (storing a cells).grove = a.grove := (congrArg Agent.grove only :)
  have away' : ∀ c ∈ cells.map (fun c => (c.2.1, c.2.2)), c.1 ≠ loc := by
    intro c hc
    obtain ⟨d, hd, rfl⟩ := List.mem_map.mp hc
    exact away d hd
  refine seeByte_congr ?_ ?_ ?_
  · simp only [ownByte, stores, kept, closes, bundled, storeBytes, Tab.find_foldl_put_other _ away']
  · have kept : (!((cells.map (fun c => (c.2.1, c.2.2))).any (fun c => c.1 == loc))) = true := by
      simpa using fun va l x hc => away (va, l, x) hc
    rw [seen, storeBytes]
    exact Tab.find_filter (fun k => !((cells.map (fun c => (c.2.1, c.2.2))).any (fun c => c.1 == k))) kept a.seen
  · rw [eligibleByte_performStore]
    simp only [eligibleByte, grid, grove]

/-- Settles O26: the storing agent is `storing`, and the store is private to it. -/
theorem storeSeen : Obligations.StoreSeen := by
  intro s a cells _
  have only := storing_only a cells
  refine ⟨storing a cells, performStore_me s a cells, ?_, seeByte_performStore_other s a cells, ?_,
    (congrArg Agent.sregs only :), (congrArg Agent.vregs only :), (congrArg Agent.fstat only :), fun k x hk hx => performStore_other a cells hk hx⟩
  · rintro pre va loc x post rfl last
    exact seeByte_performStore_last s a pre post va loc x last
  · intro x
    rw [show (performStore s a cells).mem = s.mem from (congrArg State.mem (performStore_frame s a cells) :)]

end Sys2Proof.Machine
end

section
/-! SUPPORT. CTXSV and CTXLD of another team of the core: their checks, status, save and reload (R338). -/

namespace Sys2Proof.Machine

open Sys2Proof.Safety


theorem Tab.put_put {α : Type} (t : Tab α) (k : Nat) (x y : α) : Tab.put (Tab.put t k x) k y = Tab.put t k y := by
  induction t with
  | nil => simp [Tab.put]
  | cons e t ih =>
    simp only [Tab.put]
    split
    · simp [Tab.put]
    · split
      · simp [Tab.put]
      · rename_i ne nlt
        simp [Tab.put, ne, nlt, ih]

@[simp] theorem setMe_setMe (s : State) (a b : Agent) : (s.setMe a).setMe b = s.setMe b := by
  simp [State.setMe, State.setAgent, Tab.put_put]

@[simp] theorem setMe_me (s : State) (a : Agent) : (s.setMe a).me = a := setMe_agent s a

/-- The checks of CTXSV and CTXLD come to the slot and the address (R338). -/
theorem withArea_ok {a : Agent} {f : FArgs} (go : Nat → Nat → Act) (h : rd1 a f.b 0 ≤ 15) (other : rd1 a f.b 0 ≠ a.slot)
    (aligned : rdN a f.a.toNat 2 0 % 256 = 0) : withArea a f go = go (rd1 a f.b 0) (rdN a f.a.toNat 2 0) := by
  simp [withArea, other, aligned, Nat.not_lt.mpr h]

theorem withArea_badSlot {a : Agent} {f : FArgs} (go : Nat → Nat → Act) (h : 15 < rd1 a f.b 0 ∨ rd1 a f.b 0 = a.slot) :
    withArea a f go = .trap .reservedField 0 := by
  simp [withArea, h]

theorem withArea_misaligned {a : Agent} {f : FArgs} (go : Nat → Nat → Act) (h : rd1 a f.b 0 ≤ 15) (other : rd1 a f.b 0 ≠ a.slot)
    (crooked : rdN a f.a.toNat 2 0 % 256 ≠ 0) : withArea a f go = .trap .misaligned (rdN a f.a.toNat 2 0) := by
  simp [withArea, other, crooked, Nat.not_lt.mpr h]

/-- A read at issue of which every byte is at hand goes on with the bytes (R123, R208). -/
theorem withRead_readsNow {s u : State} {a b : Agent} {r : Except ReadFail (List Byte × List Nat)} {bs : List Byte}
    (h : ReadsNow s a r bs u b) (go : State → Agent → List Byte → Act) : withRead s a r go = go u b bs := by
  obtain ⟨locs, rfl, here, rfl, rfl⟩ := h
  simp [withRead, here]

/-- A store whose agent's posted REDs to its lines are performed goes on (R222). -/
theorem afterReds_performed {s : State} {locs : List Nat} (go : State → Act)
    (h : (drainPosted s s.cur (redTouches locs)).posted.any (fun e => e.2.agent == (drainPosted s s.cur (redTouches locs)).cur
      && redTouches (locs.filter (fun x => reachable (drainPosted s s.cur (redTouches locs)) (homeOf x))) e.2.job) = false) :
    afterReds s locs go = go (drainPosted s s.cur (redTouches locs)) := by
  simp [afterReds, h]

section
variable {s : State} {a : Agent} {f : FArgs} {i : Instr} (hi : i = .ctxsv f ∨ i = .ctxld f) (r : Ready s a i)
include hi r

theorem exec_ctx_guardOff (off : guardOn a i = false) : GoesOn i s a s := by
  obtain rfl | rfl := hi
  · show execCtxsv f s = _
    simp [execCtxsv, issue_ready r, off]
  · show execCtxld f s = _
    simp [execCtxld, issue_ready r, off]

theorem exec_ctx_badSlot (on : guardOn a i = true) (bad : 15 < rd1 a f.b 0 ∨ rd1 a f.b 0 = a.slot) : Traps i s .reservedField 0 := by
  obtain rfl | rfl := hi
  · show execCtxsv f s = _
    simp [execCtxsv, issue_ready r, on, withArea_badSlot _ bad]
  · show execCtxld f s = _
    simp [execCtxld, issue_ready r, on, withArea_badSlot _ bad]

theorem exec_ctx_misaligned (on : guardOn a i = true) (slot : rd1 a f.b 0 ≤ 15) (other : rd1 a f.b 0 ≠ a.slot)
    (crooked : rdN a f.a.toNat 2 0 % 256 ≠ 0) : Traps i s .misaligned (rdN a f.a.toNat 2 0) := by
  obtain rfl | rfl := hi
  · show execCtxsv f s = _
    simp [execCtxsv, issue_ready r, on, withArea_misaligned _ slot other crooked]
  · show execCtxld f s = _
    simp [execCtxld, issue_ready r, on, withArea_misaligned _ slot other crooked]

theorem exec_ctx_noTeam (on : guardOn a i = true) (slot : rd1 a f.b 0 ≤ 15) (other : rd1 a f.b 0 ≠ a.slot)
    (aligned : rdN a f.a.toNat 2 0 % 256 = 0) (h : teamAt s a.core (rd1 a f.b 0) = none ∨ ∃ k, teamAt s a.core (rd1 a f.b 0) = some k ∧
      (i = .ctxsv f ∧ (s.agent k).state = .saved ∨ i = .ctxld f ∧ (s.agent k).state ≠ .saved)) :
    GoesOn i s a (s.setMe (wrN { s.me with hold := .none } f.d.toNat 1 (fun _ => some 1))) := by
  obtain rfl | rfl := hi
  · show execCtxsv f s = _
    obtain h | ⟨k, h, ⟨-, saved⟩ | ⟨h', -⟩⟩ := h
    · simp [execCtxsv, issue_ready r, on, withArea_ok _ slot other aligned, h, ctxStatus]
    · simp [execCtxsv, issue_ready r, on, withArea_ok _ slot other aligned, h, saved, ctxStatus]
    · cases h'
  · show execCtxld f s = _
    obtain h | ⟨k, h, ⟨h', -⟩ | ⟨-, standing⟩⟩ := h
    · simp [execCtxld, issue_ready r, on, withArea_ok _ slot other aligned, h, ctxStatus]
    · cases h'
    · simp [execCtxld, issue_ready r, on, withArea_ok _ slot other aligned, h, standing, ctxStatus]
end

section
variable {s : State} {a : Agent} {f : FArgs} {k : Nat} (slot : rd1 a f.b 0 ≤ 15) (other : rd1 a f.b 0 ≠ a.slot)
  (aligned : rdN a f.a.toNat 2 0 % 256 = 0) (team : teamAt s a.core (rd1 a f.b 0) = some k)
include slot other aligned team

/-- CTXSV of a team that is not saved waits, or stores the area of the team at its boundary (R338). -/
theorem exec_ctxsv_waits (r : Ready s a (.ctxsv f)) (on : guardOn a (.ctxsv f) = true) (standing : (s.agent k).state ≠ .saved)
    (busy : mayCtxsv (s.agent k) = false) :
    exec (.ctxsv f) s = .next (s.setMe ({ a with hold := .saveOther (rd1 a f.b 0) } : Agent).heldBack) := by
  show execCtxsv f s = _
  simp [execCtxsv, issue_ready r, on, withArea_ok _ slot other aligned, team, standing, busy, Agent.waitAt]

theorem exec_ctxsv_away (r : Ready s a (.ctxsv f)) (on : guardOn a (.ctxsv f) = true) (standing : (s.agent k).state ≠ .saved)
    (may : mayCtxsv (s.agent k) = true) {t : Agent} {x : Nat} {m : Miss}
    (ht : t = { (writeDone s k).agent k with state := .saved, savedFrom := (s.agent k).state, inPlace := true })
    (hx : xlateRange (writeDone s k) a.unit a.asid (rdN a f.a.toNat 2 0) (teamArea (writeDone s k) k t []).length .write (!a.priv) = .error (x, m)) :
    Traps (.ctxsv f) s m.cause x := by
  subst ht
  show execCtxsv f s = _
  simp [execCtxsv, issue_ready r, on, withArea_ok _ slot other aligned, team, standing, may, hx]

theorem exec_ctxsv_stores (r : Ready s a (.ctxsv f)) (on : guardOn a (.ctxsv f) = true) (standing : (s.agent k).state ≠ .saved)
    (may : mayCtxsv (s.agent k) = true) {z : State} {t : Agent} {bytes : List Byte} {locs : List Nat} (hz : z = writeDone s k)
    (ht : t = { z.agent k with state := .saved, savedFrom := (s.agent k).state, inPlace := true }) (hb : bytes = teamArea z k t [])
    (hx : xlateRange z a.unit a.asid (rdN a f.a.toNat 2 0) bytes.length .write (!a.priv) = .ok locs) {v w : State}
    (hv : v = drainPosted z z.cur (redTouches locs))
    (performed : v.posted.any (fun e => e.2.agent == v.cur && redTouches (locs.filter (fun x => reachable v (homeOf x))) e.2.job) = false)
    (hw : w = (performStore v v.me ((locs.zip bytes).zipIdx.map (fun e => (rdN a f.a.toNat 2 0 + e.2, e.1.1, e.1.2)))).setAgent k
      { t with area := bytes.take 0x5800 }) :
    GoesOn (.ctxsv f) s a (w.setMe (wrN { w.me with hold := .none } f.d.toNat 1 (fun _ => some 0))) := by
  subst hv hw
  have act : afterReds z locs _ = _ := afterReds_performed (fun v => ctxStatus ((performStore v v.me ((locs.zip bytes).zipIdx.map
    (fun e => (rdN a f.a.toNat 2 0 + e.2, e.1.1, e.1.2)))).setAgent k { t with area := bytes.take 0x5800 }) f 0) performed
  subst hz ht hb
  show execCtxsv f s = _
  simp only [execCtxsv, issue_ready r, on, withArea_ok _ slot other aligned, team, may, hx, act]
  simp [standing, ctxStatus]
/-- CTXLD of a saved team takes up the area, unless what software may not change there has changed (R338). -/
theorem exec_ctxld_saved (r : Ready s a (.ctxld f)) (on : guardOn a (.ctxld f) = true) (saved : (s.agent k).state = .saved) {v u : State}
    {c : Agent} {b : List Byte} (area : ReadsNow s a (readAtIssue s a (rdN a f.a.toNat 2 0) (areaSize (s.agent k))) b v c) (hu : u = v.setMe c) :
    exec (.ctxld f) s = issue (.ctxld f) s (fun _ _ =>
      if b.take 42 != (s.agent k).area.take 42 then ctxStatus u f 2 else ctxStatus (reloadTeam u c k (s.agent k) b) f 0) := by
  subst hu
  show execCtxld f s = _
  simp [execCtxld, issue_ready r, on, withArea_ok _ slot other aligned, team, saved, withRead_readsNow area]
end

/-- Settles O52: the checks come first, then what CTXSV and CTXLD do to the team. -/
theorem contextResults : Obligations.ContextResults := by
  intro s a f slot addr gives
  refine ⟨fun i hi r => ⟨exec_ctx_guardOff hi r, exec_ctx_badSlot hi r, exec_ctx_misaligned hi r, exec_ctx_noTeam hi r⟩,
    fun hslot other aligned => ⟨?_, ?_⟩⟩
  · rintro k z t bytes r on team standing rfl ht rfl
    refine ⟨exec_ctxsv_waits hslot other aligned team r on standing, ?_, ?_⟩
    · intro x m may hx
      exact exec_ctxsv_away hslot other aligned team r on standing may ht hx
    · rintro locs v w may hx hv performed rfl
      exact exec_ctxsv_stores hslot other aligned team r on standing may rfl ht rfl hx hv performed rfl
  · rintro k v c u b r on team saved area hu
    have loads := exec_ctxld_saved hslot other aligned team r on saved area hu
    refine ⟨fun same => loads.trans ?_, fun differs => loads.trans ?_⟩
    · simp [issue_ready r, same, ctxStatus]
    · simp [issue_ready r, differs, ctxStatus]

end Sys2Proof.Machine
end

section
/-! SUPPORT. Structured divergence on the execution mask and the mask stack (R29 to R31, R115). -/

namespace Sys2Proof.Machine

open Sys2Proof.Safety

/-! ### The top of the mask stack -/

theorem topEntry_cons {s : State} {a : Agent} {e : MaskEntry} {es : List MaskEntry} (h : a.stack = e :: es) : topEntry s a = some e := by
  simp [topEntry, h]

theorem topEntry_empty {s : State} {a : Agent} (h : a.stack = []) (none : a.spilled = []) : topEntry s a = .none := by
  simp [topEntry, h, none]

theorem topEntry_spilled {s : State} {a : Agent} {e : MaskEntry} {es : List MaskEntry} (h : a.stack = []) (hs : a.spilled = e :: es)
    (whole : e.spoilt = false) : topEntry s a = some e := by
  simp [topEntry, h, hs, refilled, whole]

theorem setTop_cons {a : Agent} {e : MaskEntry} {es : List MaskEntry} (h : a.stack = e :: es) (kind : Region) :
    a.setTop kind = { a with stack := { e with kind := kind } :: es } := by
  simp [Agent.setTop, h]

theorem setTop_spilled {a : Agent} {e : MaskEntry} {es : List MaskEntry} (h : a.stack = []) (hs : a.spilled = e :: es) (kind : Region) :
    a.setTop kind = { a with spilled := { e with kind := kind } :: es } := by
  simp [Agent.setTop, h, hs]

theorem topUsed_cons {s : State} {a : Agent} {e : MaskEntry} {es : List MaskEntry} (h : a.stack = e :: es) : topUsed s a = s := by
  simp [topUsed, h]

theorem topUsed_nil {s : State} {a : Agent} (h : a.stack = []) : topUsed s a = s.used 3 := by
  simp [topUsed, h]

/-! ### Push and pop (R30) -/

theorem pushEntry_room {a : Agent} (e : MaskEntry) (h : a.stack.length < 16) : pushEntry a e = some { a with stack := e :: a.stack } := by
  simp [pushEntry, h]

/-- A push onto a full hardware stack spills the oldest entry, where the stack area has room. -/
theorem pushEntry_spill {a : Agent} {old : MaskEntry} (e : MaskEntry) (full : a.stack.length = 16) (last : a.stack.getLast? = some old)
    (room : 280 * (a.spilled.length + 1) ≤ a.stackSize) :
    pushEntry a e = some { a with stack := e :: a.stack.dropLast, spilled := old :: a.spilled } := by
  simp [pushEntry, full, last, Nat.not_lt.mpr room]

theorem pushEntry_overflow {a : Agent} {old : MaskEntry} (e : MaskEntry) (full : a.stack.length = 16) (last : a.stack.getLast? = some old)
    (crowded : a.stackSize < 280 * (a.spilled.length + 1)) : pushEntry a e = none := by
  simp [pushEntry, full, last, crowded]

theorem popTop_cons {s : State} {a : Agent} {e : MaskEntry} {es : List MaskEntry} (h : a.stack = e :: es) : popTop s a = popEntry s a := by
  simp [popTop, h]

theorem popTop_spilled {s : State} {a : Agent} {e : MaskEntry} {es : List MaskEntry} (h : a.stack = []) (hs : a.spilled = e :: es)
    (whole : e.spoilt = false) : popTop s a = popEntry (s.used 3) { leaveBytes a es.length e with stack := [e], spilled := es } := by
  simp [popTop, h, hs, refilled, whole]

theorem popEntry_hardware {s : State} {a : Agent} {e : MaskEntry} {es : List MaskEntry} (h : a.stack = e :: es)
    (stays : es ≠ [] ∨ a.spilled = []) : popEntry s a = s.setMe { a with stack := es } := by
  obtain stays | none := stays
  · obtain ⟨x, xs, rfl⟩ := List.exists_cons_of_ne_nil stays
    simp [popEntry, h]
  · cases es <;> simp [popEntry, h, none]

/-- A pop that empties the hardware stack brings the latest spilled entry back. -/
theorem popEntry_refill {s : State} {a : Agent} {top x : MaskEntry} {xs : List MaskEntry} (h : a.stack = [top]) (hs : a.spilled = x :: xs) :
    popEntry s a = (s.setMe { (if x.spoilt then a else leaveBytes a xs.length x) with stack := [refilled s a x], spilled := xs }).used 3 := by
  simp [popEntry, h, hs]

/-- An entry that software wrote over is read back with a mask of the team's lanes (R31). -/
theorem refilled_spoilt {s : State} {a : Agent} {e : MaskEntry} (h : e.spoilt = true) : (refilled s a e).spoilt = false ∧
    (refilled s a e).outer &&& ~~~teamLanes a = 0 ∧ (refilled s a e).alt &&& ~~~teamLanes a = 0 := by
  have within (m : Mask) : m &&& teamLanes a &&& ~~~teamLanes a = 0 := by
    rw [BitVec.and_assoc, BitVec.and_not_self]
    exact BitVec.and_zero
  simp [refilled, h, within]

/-! ### Lanes that leave a loop (R115) -/

theorem breakOut_noLoop (leave : Mask) (es : List MaskEntry) (h : ∀ e ∈ es, e.kind ≠ .loop) : breakOut leave es = none := by
  induction es with
  | nil => rfl
  | cons e es ih => simp [breakOut, h e, ih (fun x hx => h x (by simp [hx]))]

theorem breakOut_loop (leave : Mask) (above below : List MaskEntry) (e : MaskEntry) (h : ∀ x ∈ above, x.kind ≠ .loop) (he : e.kind = .loop) :
    breakOut leave (above ++ e :: below) = some (above.map (fun x => { x with outer := x.outer &&& ~~~leave, alt := x.alt &&& ~~~leave }) ++
      { e with alt := e.alt ||| leave } :: below) := by
  induction above with
  | nil => simp [breakOut, he]
  | cons x xs ih => simp [breakOut, h x, ih (fun y hy => h y (by simp [hy]))]

/-! ### The instructions -/

section
variable {s : State} {a : Agent} {f : FArgs}

/-- The entry that DIV.IF pushes. -/
abbrev ifEntry (a : Agent) (f : FArgs) : MaskEntry := ⟨a.mask, a.mask &&& ~~~condMask a (.divIf f), .ifArm, branchTarget a f, false⟩

theorem exec_divIf (r : Ready s a (.divIf f)) {b : Agent} (push : pushEntry a (ifEntry a f) = some b) :
    (a.mask &&& condMask a (.divIf f) ≠ 0 → GoesOn (.divIf f) s a (s.setMe { b with mask := a.mask &&& condMask a (.divIf f) })) ∧
    (a.mask &&& condMask a (.divIf f) = 0 → GoesTo (.divIf f) s (s.setMe b) (branchTarget a f)) := by
  constructor <;> intro h <;> show execDivIf f s = _ <;> simp only [execDivIf, issue_ready r, push, h, if_true, if_false]

theorem exec_divIf_overflow (r : Ready s a (.divIf f)) (push : pushEntry a (ifEntry a f) = none) : Traps (.divIf f) s .stackOverflow 0 := by
  show execDivIf f s = _
  simp only [execDivIf, issue_ready r, push]

theorem exec_divElse (r : Ready s a (.divElse f)) {e : MaskEntry} (top : topEntry s a = some e) (arm : e.kind = .ifArm) :
    (e.alt ≠ 0 → GoesOn (.divElse f) s a ((topUsed s a).setMe { a.setTop .elseArm with mask := e.alt })) ∧
    (e.alt = 0 → GoesTo (.divElse f) s ((topUsed s a).setMe (a.setTop .elseArm)) (branchTarget a f)) := by
  constructor <;> intro h <;> show execDivElse f s = _ <;> simp only [execDivElse, issue_ready r, top, arm, h, if_true, if_false]

theorem exec_divJoin (r : Ready s a (.divJoin f)) {e : MaskEntry} (top : topEntry s a = some e) (arm : e.kind ≠ .loop) :
    GoesOn (.divJoin f) s a (popTop s { a with mask := e.outer }) := by
  show execDivJoin f s = _
  simp only [execDivJoin, issue_ready r, top, arm, if_false]

theorem exec_divLoop_none (r : Ready s a (.divLoop f)) (h : a.mask &&& condMask a (.divLoop f) = 0) :
    GoesTo (.divLoop f) s s (branchTarget a f) := by
  show execDivLoop f s = _
  simp only [execDivLoop, issue_ready r, h, if_true]

theorem exec_divLoop (r : Ready s a (.divLoop f)) (h : a.mask &&& condMask a (.divLoop f) ≠ 0) {b : Agent}
    (push : pushEntry a ⟨a.mask, 0, .loop, a.pc + 8, false⟩ = some b) :
    GoesOn (.divLoop f) s a (s.setMe { b with mask := a.mask &&& condMask a (.divLoop f) }) := by
  show execDivLoop f s = _
  simp only [execDivLoop, issue_ready r, h, push, if_false]

theorem exec_divLoop_overflow (r : Ready s a (.divLoop f)) (h : a.mask &&& condMask a (.divLoop f) ≠ 0)
    (push : pushEntry a ⟨a.mask, 0, .loop, a.pc + 8, false⟩ = none) : Traps (.divLoop f) s .stackOverflow 0 := by
  show execDivLoop f s = _
  simp only [execDivLoop, issue_ready r, h, push, if_false]

theorem exec_divBrk (r : Ready s a (.divBrk f)) {es : List MaskEntry}
    (h : breakOut (a.mask &&& condMask a (.divBrk f)) (a.stack ++ a.spilled) = some es) :
    GoesOn (.divBrk f) s a (s.setMe { a with mask := a.mask &&& ~~~(a.mask &&& condMask a (.divBrk f)), stack := es.take a.stack.length
                                             spilled := es.drop a.stack.length }) := by
  show execDivBrk f s = _
  simp only [execDivBrk, issue_ready r, h]

theorem exec_divBrk_noLoop (r : Ready s a (.divBrk f))
    (h : breakOut (a.mask &&& condMask a (.divBrk f)) (a.stack ++ a.spilled) = none) : GoesOn (.divBrk f) s a s := by
  show execDivBrk f s = _
  simp only [execDivBrk, issue_ready r, h]

theorem exec_divNext (r : Ready s a (.divNext f)) {e : MaskEntry} (top : topEntry s a = some e) (loop : e.kind = .loop) :
    (a.mask &&& condMask a (.divNext f) ≠ 0 → e.addr.toNat % 8 = 0 →
      GoesTo (.divNext f) s ((topUsed s a).setMe { a with mask := a.mask &&& condMask a (.divNext f) }) e.addr) ∧
    (a.mask &&& condMask a (.divNext f) ≠ 0 → e.addr.toNat % 8 ≠ 0 → Traps (.divNext f) s .misaligned e.addr.toNat) ∧
    (a.mask &&& condMask a (.divNext f) = 0 → GoesOn (.divNext f) s a (popTop s { a with mask := e.outer })) := by
  refine ⟨fun h h8 => ?_, fun h h8 => ?_, fun h => ?_⟩ <;> show execDivNext f s = _
  · simp only [execDivNext, issue_ready r, top, loop, h, h8, if_true, if_false, ne_eq, not_true]
  · simp only [execDivNext, issue_ready r, top, loop, h, h8, if_true, if_false, ne_eq, not_false_eq_true]
  · simp only [execDivNext, issue_ready r, top, loop, h, if_true]

/-- An instruction whose requirement on the top of the stack is not met goes on with no effect. -/
theorem exec_div_unmet {i : Instr} (r : Ready s a i) (hi : i = .divElse f ∨ i = .divJoin f ∨ i = .divNext f)
    (unmet : ∀ e, topEntry s a = some e → (i = .divElse f ∧ e.kind ≠ .ifArm ∨ i = .divJoin f ∧ e.kind = .loop ∨ i = .divNext f ∧ e.kind ≠ .loop)) :
    GoesOn i s a s := by
  cases top : topEntry s a with
  | none =>
    obtain rfl | rfl | rfl := hi
    · show execDivElse f s = _
      simp only [execDivElse, issue_ready r, top]
    · show execDivJoin f s = _
      simp only [execDivJoin, issue_ready r, top]
    · show execDivNext f s = _
      simp only [execDivNext, issue_ready r, top]
  | some e =>
    obtain ⟨rfl, kind⟩ | ⟨rfl, kind⟩ | ⟨rfl, kind⟩ := unmet e top
    · show execDivElse f s = _
      simp only [execDivElse, issue_ready r, top, kind, if_false]
    · show execDivJoin f s = _
      simp only [execDivJoin, issue_ready r, top, kind, if_true]
    · show execDivNext f s = _
      simp only [execDivNext, issue_ready r, top, kind, if_false]

/-- DIV.BRK from the most recent loop, wherever its entry lies. -/
theorem exec_divBrk_loop (r : Ready s a (.divBrk f)) {leave : Mask} (hleave : leave = a.mask &&& condMask a (.divBrk f)) {above below : List MaskEntry}
    {e : MaskEntry} (split : a.stack ++ a.spilled = above ++ e :: below) (h : ∀ x ∈ above, x.kind ≠ .loop) (he : e.kind = .loop) :
    ∃ b, GoesOn (.divBrk f) s a (s.setMe b) ∧
      b.stack ++ b.spilled = above.map (fun x => { x with outer := x.outer &&& ~~~leave, alt := x.alt &&& ~~~leave }) ++
        { e with alt := e.alt ||| leave } :: below ∧
      b.stack.length = a.stack.length ∧ { b with stack := a.stack, spilled := a.spilled, mask := a.mask } = a ∧ b.mask = a.mask &&& ~~~leave := by
  have out := breakOut_loop leave above below e h he
  have length : a.stack.length ≤ (above ++ e :: below).length := by
    rw [← split, List.length_append]
    omega
  subst hleave
  rw [← split] at out
  refine ⟨_, exec_divBrk r out, ?_, ?_, rfl, rfl⟩
  · exact List.take_append_drop a.stack.length _
  · simpa using length
end

/-- Settles O22: each instruction on the top of the stack, in hardware or spilled, then push, pop and their limits. -/
theorem divergenceResults : Obligations.DivergenceResults := by
  refine ⟨fun s a f => ⟨?_, ?_, ?_, exec_divLoop_none, ?_, ?_, ?_, ?_, ?_⟩, fun s a f e old => ⟨fun full last => ⟨pushEntry_spill e full last, ?_⟩, ?_⟩⟩
  · exact fun r room => exec_divIf r (pushEntry_room _ room)
  · intro e es r h arm
    have := exec_divElse r (topEntry_cons h) arm
    rwa [topUsed_cons h, setTop_cons h] at this
  · intro e es r h arm
    have := exec_divJoin r (topEntry_cons h) arm
    rw [popTop_cons (a := { a with mask := e.outer }) h] at this
    refine ⟨fun stays => ?_, fun _ _ => this⟩
    rwa [popEntry_hardware (a := { a with mask := e.outer }) h stays] at this
  · exact fun r h room => exec_divLoop r h (pushEntry_room _ room)
  · exact fun leave hleave => ⟨fun above e below r split h he => exec_divBrk_loop r hleave split h he,
      fun r h => exec_divBrk_noLoop r (breakOut_noLoop _ _ h)⟩
  · intro e es r h loop
    have := exec_divNext r (topEntry_cons h) loop
    rwa [topUsed_cons h, popTop_cons (a := { a with mask := e.outer }) h] at this
  · intro i hi r
    refine ⟨fun h none => exec_div_unmet r hi (by simp [topEntry_empty h none]), fun e es h unmet => exec_div_unmet r hi ?_⟩
    simpa [topEntry_cons h] using unmet
  · intro e es h hs whole
    refine ⟨fun r arm alt => ?_, fun r arm => ?_⟩
    · have := (exec_divElse r (topEntry_spilled h hs whole) arm).1 alt
      rwa [topUsed_nil h, setTop_spilled h hs] at this
    · have := exec_divJoin r (topEntry_spilled h hs whole) arm
      rwa [popTop_spilled (a := { a with mask := e.outer }) h hs whole] at this
  · intro crowded
    exact ⟨pushEntry_overflow e full last crowded, fun r => exec_divIf_overflow r (pushEntry_overflow _ full last crowded),
      fun r h => exec_divLoop_overflow r h (pushEntry_overflow _ full last crowded)⟩
  · intro x xs top h hs
    have pop := popEntry_refill (s := s) h hs
    refine ⟨fun whole => ?_, fun spoilt => ⟨refilled s a x, ?_, refilled_spoilt spoilt⟩⟩
    · simpa [whole, refilled] using pop
    · simpa [spoilt] using pop

end Sys2Proof.Machine
end

section
/-! SUPPORT. Instructions that write registers at issue: what they write and what they leave, for the integer and logic block
(R25, R58, R85, R87, R88). -/

namespace Sys2Proof.Machine

open Sys2Proof.Safety

/-! ### The field rules hold of an instruction that comes to its description (R72) -/

theorem staticTrap_of_ready {s : State} {a : Agent} {i : Instr} (r : Ready s a i) : staticTrap a i = none := by
  have early := r.2.2.1
  unfold earlyTrap at early
  split at early
  · cases early
  · split at early
    · cases early
    · assumption

theorem fieldRules_of_ready {s : State} {a : Agent} {i : Instr} (r : Ready s a i) : fieldRules i = true := by
  by_contra broken
  have trapped : staticTrap a i ≠ none := by
    unfold staticTrap
    dsimp only
    split_ifs <;> simp_all
  exact trapped (staticTrap_of_ready r)

theorem rowOf_movi (f : FArgs) : rowOf (.movi f) =
    some { opnds := [oWr f.d (nW f)], fieldsOk := modIn f 0b000010 && f.imm && f.a == 0 } := rfl

/-- MOVI has no form with a register for its immediate (R87). -/
theorem movi_imm {s : State} {a : Agent} {f : FArgs} (r : Ready s a (.movi f)) : f.imm = true := by
  have rules := fieldRules_of_ready r
  simp only [fieldRules, rowOf_movi, Bool.and_eq_true] at rules
  obtain ⟨⟨⟨⟨⟨⟨⟨-, imm⟩, -⟩, -⟩, -⟩, -⟩, -⟩, -⟩ := rules
  exact imm

/-! ### Operands -/

theorem rdN_lt (n : Nat) : ∀ (a : Agent) (r l : Nat), rdN a r n l < 2 ^ (32 * n) := by
  induction n with
  | zero => intro a r l; simp [rdN]
  | succ n ih =>
    intro a r l
    have low := (regGet a r l).isLt
    have high := ih a (r + 1) l
    rw [rdN, show 32 * (n + 1) = 32 * n + 32 by omega, Nat.pow_add]
    omega

theorem wrapN_lt (n : Nat) (x : Int) : wrapN n x < 2 ^ n := by
  have pos : (0 : Int) < ((2 ^ n : Nat) : Int) := by positivity
  have := Int.emod_lt_of_pos x pos
  unfold wrapN
  omega

theorem aW_lt (a : Agent) (f : FArgs) (l : Nat) : aW a f l < 2 ^ wN f := rdN_lt _ _ _ _

theorem bW_lt (a : Agent) (f : FArgs) (l : Nat) : bW a f l < 2 ^ wN f := by
  unfold bW bVal
  split
  · exact wrapN_lt _ _
  · exact rdN_lt _ _ _ _

/-! ### Values -/

theorem wrapN_div (n m : Nat) (x : Int) : wrapN (n + m) x / 2 ^ n = wrapN m (x / ((2 ^ n : Nat) : Int)) := by
  have posA : (0 : Int) < ((2 ^ n : Nat) : Int) := by positivity
  have posB : (0 : Int) < ((2 ^ m : Nat) : Int) := by positivity
  have cut : x % (((2 ^ n : Nat) : Int) * ((2 ^ m : Nat) : Int)) / ((2 ^ n : Nat) : Int) = x / ((2 ^ n : Nat) : Int) % ((2 ^ m : Nat) : Int) := by
    rw [Int.emod_def, Int.emod_def, ← Int.ediv_ediv_of_nonneg posA.le, mul_assoc, Int.sub_mul_ediv_left _ _ posA.ne']
  unfold wrapN
  rw [← cut, Nat.pow_add, Nat.cast_mul]
  generalize hy : x % (((2 ^ n : Nat) : Int) * ((2 ^ m : Nat) : Int)) = y
  have : 0 ≤ y := hy ▸ Int.emod_nonneg _ (by positivity)
  lift y to Nat using this
  rfl

theorem mulHighN_eq (u : Bool) (n x y : Nat) :
    mulHighN u n x y = ((intOf u n x * intOf u n y / ((2 ^ n : Nat) : Int)) % ((2 ^ n : Nat) : Int)).toNat := by
  rw [mulHighN, Nat.two_mul, wrapN_div, wrapN]

theorem notN_of_lt {n x : Nat} (h : x < 2 ^ n) : notN n x = 2 ^ n - 1 - x := by
  rw [notN, Nat.mod_eq_of_lt h]

/-- The least and the greatest integer of N bits. -/
def lowest (u : Bool) (n : Nat) : Int := if u then 0 else -(2 ^ (n - 1))
def highest (u : Bool) (n : Nat) : Int := if u then 2 ^ n - 1 else 2 ^ (n - 1) - 1

theorem lowest_le_highest (u : Bool) (n : Nat) : lowest u n ≤ highest u n := by
  have : (1 : Int) ≤ 2 ^ n := one_le_pow₀ (by norm_num)
  have : (1 : Int) ≤ 2 ^ (n - 1) := one_le_pow₀ (by norm_num)
  unfold lowest highest
  split <;> omega

theorem clampN_eq (u : Bool) (n : Nat) (x : Int) : clampN u n x =
    ((max (lowest u n) (min (highest u n) x) % 2 ^ n).toNat, if x < lowest u n ∨ highest u n < x then flagSAT else 0) := by
  have bounds := lowest_le_highest u n
  have hl : (if u then 0 else -((2 ^ (n - 1) : Nat) : Int)) = lowest u n := by simp [lowest]
  have hh : (if u then ((2 ^ n : Nat) : Int) - 1 else ((2 ^ (n - 1) : Nat) : Int) - 1) = highest u n := by simp [highest]
  unfold clampN wrapN
  simp only [hl, hh]
  by_cases low : x < lowest u n
  · rw [if_pos low, if_pos (.inl low), min_eq_right (by omega), max_eq_left low.le]
    simp
  · by_cases high : highest u n < x
    · rw [if_neg low, if_pos high, if_pos (.inr high), min_eq_left high.le, max_eq_right bounds]
      simp
    · rw [if_neg low, if_neg high, if_neg (by omega), min_eq_right (by omega), max_eq_right (by omega)]
      simp

/-- The OR of one flag over the lanes that set it. -/
theorem orLanes_flag (w : Word) (p : Nat → Prop) [DecidablePred p] (ls : List Nat) :
    orLanes ls (fun l => if p l then w else 0) = if ls.any (fun l => decide (p l)) then w else 0 := by
  have from_ (v : Word) : ls.foldl (fun v l => v ||| if p l then w else 0) v = v ||| if ls.any (fun l => decide (p l)) then w else 0 := by
    induction ls generalizing v with
    | nil => simp
    | cons l ls ih =>
      rw [List.foldl_cons, ih, BitVec.or_assoc]
      by_cases h : p l <;> simp [h]
      split <;> simp
  exact (from_ 0).trans (BitVec.zero_or)

/-! ### Instructions that write a value computed per lane -/

theorem sameButRegs_trans {a b c : Agent} (h : SameButRegs a b) (g : SameButRegs b c) : SameButRegs a c := by
  have e := congrArg (fun x : Agent => { x with
    vregs := a.vregs, sregs := a.sregs, fstat := a.fstat, pc := a.pc, lahead := a.lahead, counted := a.counted
    waiting := a.waiting, hold := a.hold, ringOn := a.ringOn, ringGot := a.ringGot
    state := a.state, yielded := a.yielded, passFor := a.passFor, lostLine := a.lostLine }) g
  exact e.trans h

theorem sameButRegs_wrLanes (a : Agent) (i : Instr) (d : Reg) (n : Nat) (x : Nat → Nat) : SameButRegs a (wrLanes a i d n x) := by
  have e := congrArg (fun y : Agent => { y with
    fstat := a.fstat, pc := a.pc, lahead := a.lahead, counted := a.counted
    waiting := a.waiting, hold := a.hold, ringOn := a.ringOn, ringGot := a.ringGot
    state := a.state, yielded := a.yielded, passFor := a.passFor, lostLine := a.lostLine }) (wrLanes_only a i d n x)
  exact e

theorem sameButRegs_wrFlags (a : Agent) (i : Instr) (d : Reg) (n : Nat) (x : Nat → Nat × Word) : SameButRegs a (wrFlags a i d n x) :=
  sameButRegs_trans (sameButRegs_wrLanes a i d n (fun l => (x l).1)) rfl

section
variable {s : State} {a : Agent} {i : Instr} {d : Reg} {n : Nat} (r : Ready s a i) (q : Quiet s a i)
include r q

/-- An instruction that writes its destination, and flags, at issue: what it leaves. -/
theorem issues_wrFlags {g : Agent → Nat → Nat × Word} (hx : exec i s = aluFlags i s d n g) :
    ∃ t b, Issues i s t b ∧ OnlyAgent s t ∧ b.pc = nextPc a i ∧ SameButRegs a b ∧ Holds a b d n (actsIn a i) (fun l => (g a l).1) ∧
      (∀ x l, x < d.toNat ∨ d.toNat + n ≤ x → regGet b x l = regGet a x l) ∧
      b.fstat = a.fstat ||| orLanes (actLanes a i) (fun l => (g a l).2) := by
  have only := wrLanes_only a i d n (fun l => (g a l).1)
  obtain ⟨t, b, ht, hb, frame, hpc, hv, hs, hf, same⟩ := issue_onAgent r q (fun a => wrFlags a i d n (g a))
    (congrArg Agent.lahead only :)
  have reads (x l : Nat) : regGet b x l = regGet (wrLanes a i d n (fun l => (g a l).1)) x l := regGet_congr hv hs x l
  refine ⟨t, b, ⟨hx.trans ht, hb⟩, frame, hpc, ?_, ?_, ?_, ?_⟩
  · exact sameButRegs_trans (sameButRegs_wrFlags a i d n (g a)) same
  · intro j l hj hl hv
    rw [reads]
    exact holds_wrLanes a i d n _ j l hj hl hv
  · intro x l h
    rw [reads]
    exact wrLanes_other a i d n _ x l h
  · rw [hf]
    have : (wrLanes a i d n (fun l => (g a l).1)).fstat = a.fstat := (congrArg Agent.fstat only :)
    simp only [wrFlags, this]

/-- An instruction that writes its destination at issue and sets no flag. -/
theorem issues_wrLanes {g : Agent → Nat → Nat} (hx : exec i s = alu i s d n g) :
    ∃ t b, Issues i s t b ∧ OnlyAgent s t ∧ b.pc = nextPc a i ∧ SameButRegs a b ∧ Holds a b d n (actsIn a i) (g a) ∧
      (∀ x l, x < d.toNat ∨ d.toNat + n ≤ x → regGet b x l = regGet a x l) ∧ b.fstat = a.fstat := by
  have only := wrLanes_only a i d n (g a)
  obtain ⟨t, b, ht, hb, frame, hpc, hv, hs, hf, same⟩ := issue_onAgent r q (fun a => wrLanes a i d n (g a))
    (congrArg Agent.lahead only :)
  have reads (x l : Nat) : regGet b x l = regGet (wrLanes a i d n (g a)) x l := regGet_congr hv hs x l
  refine ⟨t, b, ⟨hx.trans ht, hb⟩, frame, hpc, sameButRegs_trans (sameButRegs_wrLanes a i d n (g a)) same, ?_, ?_, ?_⟩
  · intro j l hj hl hv
    rw [reads]
    exact holds_wrLanes a i d n _ j l hj hl hv
  · intro x l h
    rw [reads]
    exact wrLanes_other a i d n _ x l h
  · rw [hf]
    exact (congrArg Agent.fstat only :)

theorem gives_of_alu {g : Agent → Nat → Nat} {x : Nat → Nat} (hx : exec i s = alu i s d n g) (hg : ∀ l, g a l = x l) :
    Gives i s a d n x := by
  obtain rfl : g a = x := funext hg
  obtain ⟨t, b, ht, -, hpc, -, holds, -⟩ := issues_wrLanes r q hx
  exact ⟨t, b, ht, hpc, holds⟩

/-- The same of an instruction that may set flags. -/
theorem gives_of_aluFlags {g : Agent → Nat → Nat × Word} {x : Nat → Nat} (hx : exec i s = aluFlags i s d n g) (hg : ∀ l, (g a l).1 = x l) :
    Gives i s a d n x := by
  obtain rfl : (fun l => (g a l).1) = x := funext hg
  obtain ⟨t, b, ht, -, hpc, -, holds, -⟩ := issues_wrFlags r q hx
  exact ⟨t, b, ht, hpc, holds⟩

/-- A saturating instruction clamps, and sets SAT where it has clamped (R85, R87). -/
theorem clamps_of_aluFlags {g : Agent → Nat → Nat × Word} {u : Bool} {x : Nat → Int} (hx : exec i s = aluFlags i s d n g)
    (hg : ∀ l, g a l = clampN u (32 * n) (x l)) : Clamps i s a d n u x := by
  obtain ⟨t, b, ht, -, hpc, -, holds, -, flags⟩ := issues_wrFlags r q hx
  refine ⟨t, b, ht, hpc, ?_, ?_⟩
  · simp only [hg, clampN_eq] at holds
    exact holds
  · simp only [hg, clampN_eq, orLanes_flag, Bool.decide_or] at flags
    change b.fstat = if (actLanes a i).any (fun l => decide (x l < lowest u (32 * n)) || decide (highest u (32 * n) < x l)) = true
      then a.fstat ||| 32 else a.fstat
    rw [flags]
    split
    · rfl
    · exact BitVec.or_zero

end

/-- Settles O10, row by row: what each computes in a lane is the value of its row. -/
theorem integerResults : Obligations.IntegerResults := by
  intro s a f
  refine ⟨fun r q => gives_of_alu r q rfl fun _ => rfl, fun r q => gives_of_alu r q rfl fun _ => rfl,
    fun r q => gives_of_alu r q rfl fun _ => rfl, fun r q => gives_of_alu r q rfl fun _ => rfl,
    fun r q => gives_of_alu r q rfl fun _ => mulHighN_eq _ _ _ _, fun r q => gives_of_alu r q rfl fun _ => rfl,
    fun r q => gives_of_alu r q rfl fun _ => rfl, fun r q => gives_of_alu r q rfl fun _ => rfl,
    fun r q => gives_of_alu r q rfl fun _ => rfl, fun r q => gives_of_alu r q rfl fun _ => rfl,
    fun r q => gives_of_alu r q rfl fun _ => rfl,
    fun r q => gives_of_alu r q rfl fun l => by rw [andnN, notN_of_lt (bW_lt a f l)],
    fun r q => gives_of_alu r q rfl fun l => notN_of_lt (aW_lt a f l), fun r q => gives_of_alu r q rfl fun _ => rfl,
    fun r q => gives_of_alu r q rfl fun _ => by rw [bVal, if_pos (movi_imm r)]; rfl,
    fun r q => clamps_of_aluFlags r q rfl fun _ => rfl,
    fun r q sat => clamps_of_aluFlags r q rfl fun _ => by rw [absN, sat]; simp [wN],
    fun r q sat => clamps_of_aluFlags r q rfl fun _ => by rw [negN, sat]; rfl,
    fun r q wrap => gives_of_aluFlags r q rfl fun _ => by rw [absN, wrap]; simp [wrapN],
    fun r q wrap => gives_of_aluFlags r q rfl fun _ => by rw [negN, wrap]; rfl⟩

end Sys2Proof.Machine
end

section
/-! SUPPORT. Every flag word that an operation of the vector core sets is made of the six sticky flags of FSTAT (R85). -/

namespace Sys2Proof.Machine

open Sys2Proof.Safety

/-- A flag word is made of sticky flags only. -/
def Sticky (w : Word) : Prop := w.toNat < 2 ^ 6

@[simp] theorem sticky_zero : Sticky 0 := by unfold Sticky; decide
@[simp] theorem sticky_zero' : Sticky 0#32 := by unfold Sticky; decide
@[simp] theorem sticky_NV : Sticky flagNV := by unfold Sticky; decide
@[simp] theorem sticky_OF : Sticky flagOF := by unfold Sticky; decide
@[simp] theorem sticky_UF : Sticky flagUF := by unfold Sticky; decide
@[simp] theorem sticky_NX : Sticky flagNX := by unfold Sticky; decide
@[simp] theorem sticky_SAT : Sticky flagSAT := by unfold Sticky; decide

@[simp] theorem sticky_or {v w : Word} : Sticky (v ||| w) ↔ Sticky v ∧ Sticky w := by
  unfold Sticky
  rw [BitVec.toNat_or]
  exact ⟨fun h => ⟨Nat.left_le_or.trans_lt h, Nat.right_le_or.trans_lt h⟩, fun h => Nat.or_lt_two_pow h.1 h.2⟩

@[simp] theorem sticky_flagIf {b : Bool} {w : Word} (h : Sticky w) : Sticky (flagIf b w) := by
  unfold flagIf
  split
  · exact h
  · exact sticky_zero

theorem Sticky.getLsbD {w : Word} (h : Sticky w) {k : Nat} (hk : 6 ≤ k) : w.getLsbD k = false :=
  Nat.testBit_lt_two_pow (h.trans_le (Nat.pow_le_pow_right Nat.two_pos hk))

theorem sticky_orLanes (ls : List Nat) {f : Nat → Word} (h : ∀ l, Sticky (f l)) : Sticky (orLanes ls f) := by
  have from_ (w : Word) (hw : Sticky w) : Sticky (ls.foldl (fun w l => w ||| f l) w) := by
    induction ls generalizing w with
    | nil => exact hw
    | cons l ls ih => exact ih _ (sticky_or.mpr ⟨hw, h l⟩)
  exact from_ 0 sticky_zero

/-- Setting sticky flags sets nothing else, and clears nothing (R85). -/
theorem stickyOnly_or {a b : Agent} {w : Word} (hb : b.fstat = a.fstat ||| w) (h : Sticky w) : StickyOnly a b := by
  rw [StickyOnly, hb]
  refine ⟨fun k hk => by simp [hk], fun k hk => by simp [h.getLsbD hk]⟩

/-! ### Operations on integers -/

@[simp] theorem sticky_clampN (u : Bool) (n : Nat) (x : Int) : Sticky (clampN u n x).2 := by
  rw [clampN_eq]
  dsimp only
  split <;> simp

@[simp] theorem sticky_absN (sat : Bool) (n x : Nat) : Sticky (absN sat n x).2 := by
  cases sat <;> simp [absN]

@[simp] theorem sticky_negN (sat : Bool) (n x : Nat) : Sticky (negN sat n x).2 := by
  cases sat <;> simp [negN]

/-! ### Operations on floating-point values -/

@[simp] theorem sticky_roundF (f : Fmt) (rm : Nat) (neg : Bool) (mag : Nat) (exp : Int) : Sticky (roundF f rm neg mag exp).2 := by
  unfold roundF
  dsimp only
  split_ifs <;> simp

@[simp] theorem sticky_roundV (f : Fmt) (rm : Nat) (v : FVal) : Sticky (roundV f rm v).2 := by
  cases v <;> simp [roundV]

@[simp] theorem sticky_fin1 (f : Fmt) (rm : Nat) {v : FVal × Word} (h : Sticky v.2) : Sticky (fin1 f rm v).2 := by
  simp [fin1, h]

@[simp] theorem sticky_addV (rm : Nat) (x y : FVal) : Sticky (addV rm x y).2 := by
  unfold addV
  split
  · simp
  · simp
  · split <;> simp
  · simp
  · simp
  · dsimp only
    split <;> simp

@[simp] theorem sticky_mulV (x y : FVal) : Sticky (mulV x y).2 := by
  unfold mulV
  split
  · simp
  · simp
  · simp
  · split <;> simp
  · split <;> simp
  · simp

@[simp] theorem sticky_faddC (f : Fmt) (rm x y : Nat) : Sticky (faddC f rm x y).2 := by simp [faddC]
@[simp] theorem sticky_fsubC (f : Fmt) (rm x y : Nat) : Sticky (fsubC f rm x y).2 := by simp [fsubC]
@[simp] theorem sticky_fmulC (f : Fmt) (rm x y : Nat) : Sticky (fmulC f rm x y).2 := by simp [fmulC]
@[simp] theorem sticky_ffmaC (f : Fmt) (rm x y z : Nat) : Sticky (ffmaC f rm x y z).2 := by simp [ffmaC]

@[simp] theorem sticky_fminmaxC (f : Fmt) (isMax : Bool) (x y : Nat) : Sticky (fminmaxC f isMax x y).2 := by
  unfold fminmaxC
  dsimp only
  split_ifs <;> simp

@[simp] theorem sticky_fcmpC (f : Fmt) (c x y : Nat) : Sticky (fcmpC f c x y).2 := by simp [fcmpC]

@[simp] theorem sticky_frndC (f : Fmt) (rm x : Nat) : Sticky (frndC f rm x).2 := by
  unfold frndC
  split
  · simp
  · simp
  · split <;> simp

@[simp] theorem sticky_fscaleC (f : Fmt) (rm x : Nat) (b : Int) : Sticky (fscaleC f rm x b).2 := by
  unfold fscaleC
  split <;> simp

/-- The flags of either element count (R83, R85). -/
theorem sticky_perElem (t : Nat) {g : Fmt → Nat → Nat × Word} (h : ∀ fm k, Sticky (g fm k).2) : Sticky (perElem t g).2 := by
  unfold perElem
  split <;> simp [h]

/-! ### Conversions -/

@[simp] theorem sticky_cvtToFloat (dst rm : Nat) (sat : Bool) (v : FVal) : Sticky (cvtToFloat dst rm sat v).2 := by
  unfold cvtToFloat
  dsimp only
  split_ifs <;> simp

@[simp] theorem sticky_cvtToInt (dst rm : Nat) (v : FVal) : Sticky (cvtToInt dst rm v).2 := by
  unfold cvtToInt
  dsimp only
  split
  · simp
  · simp
  · split_ifs <;> simp

@[simp] theorem sticky_cvtC (dst src rm : Nat) (sat : Bool) (x : Nat) : Sticky (cvtC dst src rm sat x).2 := by
  unfold cvtC
  dsimp only
  split_ifs <;> simp

@[simp] theorem sticky_narrow (u sat : Bool) (w x : Nat) : Sticky (narrow u sat w x).2 := by
  cases sat <;> simp [narrow]

@[simp] theorem sticky_packC (bytes u sat : Bool) (x y d : Nat) : Sticky (packC bytes u sat x y d).2 := by
  cases bytes <;> simp [packC]

@[simp] theorem sticky_quantFlags (cb : List Byte) (slot : Nat) (a : Agent) (f : FArgs) (l : Nat) : Sticky (quantFlags cb slot a f l) := by
  simp [quantFlags]

/-! ### Reductions, scans and the slots of a P pair -/

@[simp] theorem sticky_redStep (mode : Nat) (u : Bool) (x y : Nat) : Sticky (redStep mode u x y).2 := by
  unfold redStep
  split_ifs <;> simp

theorem sticky_redFold {mode : Nat} {u : Bool} {xs : List Nat} {r : Nat × Word} (h : redFold mode u xs = some r) : Sticky r.2 := by
  have from_ (ys : List Nat) (z : Nat × Word) (hz : Sticky z.2) :
      Sticky (ys.foldl (fun r y => let z := redStep mode u r.1 y; (z.1, r.2 ||| z.2)) z).2 := by
    induction ys generalizing z with
    | nil => exact hz
    | cons y ys ih => exact ih _ (by simp [hz])
  cases xs with
  | nil => cases h
  | cons x xs => exact Option.some.inj h ▸ from_ xs (x, 0) sticky_zero

@[simp] theorem sticky_redFold_getD (mode : Nat) (u : Bool) (xs : List Nat) (n : Nat) : Sticky ((redFold mode u xs).getD (n, 0)).2 := by
  cases h : redFold mode u xs with
  | none => exact sticky_zero
  | some r => exact sticky_redFold h

/-- Of the nodes of a level, those that hold a value have sticky flags. -/
def StickyLevel (ns : List (Option (Nat × Word))) : Prop := ∀ n ∈ ns, ∀ r, n = some r → Sticky r.2

theorem sticky_treeNode {x y : Option (Nat × Word)} (hx : ∀ r, x = some r → Sticky r.2) (hy : ∀ r, y = some r → Sticky r.2) :
    ∀ r, treeNode x y = some r → Sticky r.2 := by
  intro r h
  cases x with
  | none => exact hy r h
  | some x =>
    cases y with
    | none => exact hx r h
    | some y => exact Option.some.inj h ▸ by simp [hx x rfl, hy y rfl]

theorem stickyLevel_treeLevel : ∀ {ns : List (Option (Nat × Word))}, StickyLevel ns → StickyLevel (treeLevel ns)
  | [], h => h
  | [_], h => h
  | x :: y :: ns, h => by
    have rest := stickyLevel_treeLevel (ns := ns) fun n hn => h n (by simp [hn])
    intro n hn
    obtain rfl | hn := List.mem_cons.mp hn
    · exact sticky_treeNode (h x (by simp)) (h y (by simp))
    · exact rest n hn

theorem sticky_treeSum {leaves : List (Option (Nat × Word))} (h : StickyLevel leaves) : Sticky ((treeSum leaves).getD (0, 0)).2 := by
  have levels := stickyLevel_treeLevel (stickyLevel_treeLevel (stickyLevel_treeLevel (stickyLevel_treeLevel
    (stickyLevel_treeLevel (stickyLevel_treeLevel h)))))
  unfold treeSum
  generalize treeLevel _ = ns at levels
  cases ns with
  | nil => exact sticky_zero
  | cons n ns =>
    cases n with
    | none => exact sticky_zero
    | some r => exact levels _ List.mem_cons_self r rfl

@[simp] theorem sticky_sredOf (a : Agent) (f : FArgs) (l : Nat) : Sticky (sredOf a f l).2 := by
  unfold sredOf
  dsimp only
  split
  · refine sticky_treeSum fun n hn r hr => ?_
    obtain ⟨j, -, rfl⟩ := List.mem_map.mp hn
    split at hr
    · exact Option.some.inj hr ▸ sticky_zero
    · cases hr
  · exact sticky_redFold_getD _ _ _ _

@[simp] theorem sticky_sscanFlags (a : Agent) (f : FArgs) (l : Nat) : Sticky (sscanFlags a f l) := sticky_redFold_getD _ _ _ _

@[simp] theorem sticky_slotResult (a : Agent) (p : PSlot) (l : Nat) : Sticky (slotResult a p l).2 := by
  unfold slotResult slotValue
  dsimp only
  split <;> simp

end Sys2Proof.Machine
end

section
/-! SUPPORT. The frame of the instructions that write registers at issue: their destination in the lanes they act on, the pc, and
sticky bits of FSTAT (R25, R58, R65, R85, R106, R108, R134). -/

namespace Sys2Proof.Machine

open Sys2Proof.Safety

/-! ### Registers kept -/

theorem regsKept_refl (a : Agent) (written : List Nat) (acts : Nat → Bool) : RegsKept a a written acts := fun _ _ _ _ _ => rfl

theorem regsKept_trans {a b c : Agent} {written : List Nat} {acts : Nat → Bool} (lanes : b.nlanes = a.nlanes)
    (h : RegsKept a b written acts) (g : RegsKept b c written acts) : RegsKept a c written acts :=
  fun r l hl hv kept => (g r l (lanes ▸ hl) hv kept).trans (h r l hl hv kept)

theorem regsKept_mono {a b : Agent} {v w : List Nat} {acts acts' : Nat → Bool} (h : RegsKept a b v acts) (sub : ∀ r ∈ v, r ∈ w)
    (lanes : ∀ l, acts' l = false → acts l = false) : RegsKept a b w acts' :=
  fun r l hl hv kept => h r l hl hv (kept.imp (fun out hr => out (sub r hr)) (Or.imp_left (lanes l)))

theorem regsKept_congr {a b c : Agent} {written : List Nat} {acts : Nat → Bool} (h : RegsKept a b written acts)
    (hv : c.vregs = b.vregs) (hs : c.sregs = b.sregs) : RegsKept a c written acts :=
  fun r l hl hv' kept => (regGet_congr hv hs r l).trans (h r l hl hv' kept)

/-- A register written in the lanes for which there is a value. -/
theorem regsKept_regPut (a : Agent) (d : Nat) (x : Nat → Option Word) : RegsKept a (regPut a d x) [d] (fun l => (x l).isSome) := by
  intro r l hl hv kept
  by_cases hr : r = d
  · subst hr
    rw [regGet_regPut_same a r l x hl hv]
    obtain out | off | fixed := kept
    · simp at out
    · simp [Option.not_isSome_iff_eq_none.mp (by simpa using off)]
    · rw [if_pos fixed]
  · exact regGet_regPut_other a l x hr

theorem regsKept_wrN (n : Nat) : ∀ (a : Agent) (d : Nat) (x : Nat → Option Nat),
    RegsKept a (wrN a d n x) ((List.range n).map (d + ·)) (fun l => (x l).isSome) := by
  induction n with
  | zero => intro a d x; exact regsKept_refl _ _ _
  | succ n ih =>
    intro a d x
    have first := regsKept_regPut a d (fun l => (x l).map (BitVec.ofNat 32))
    have rest := ih (regPut a d (fun l => (x l).map (BitVec.ofNat 32))) (d + 1) (fun l => (x l).map (· / 2 ^ 32))
    refine regsKept_trans (nlanes_regPut _ _ _) (regsKept_mono first ?_ ?_) (regsKept_mono rest ?_ ?_)
    · simp
    · simp
    · intro r hr
      obtain ⟨j, hj, rfl⟩ := List.mem_map.mp hr
      exact List.mem_map.mpr ⟨j + 1, by simpa using hj, by omega⟩
    · simp

theorem regsKept_wrLanes (a : Agent) (i : Instr) (d : Reg) (n : Nat) (x : Nat → Nat) :
    RegsKept a (wrLanes a i d n x) (regSpanFrom d n) (actsIn a i) :=
  regsKept_mono (regsKept_wrN n a d.toNat _) (fun _ h => h) (by simp)

/-- A cross-lane instruction writes the active lanes, or an s register if a lane is active (R108). -/
theorem regsKept_wrCross (a : Agent) (i : Instr) (d : Reg) (n : Nat) (x : Nat → Nat) :
    RegsKept a (wrCross a i d n x) (regSpanFrom d n) (fun l => if isS d then !(crossLanes a i).isEmpty else crossActive a i l) := by
  unfold wrCross
  split
  · split
    · exact regsKept_refl _ _ _
    · rename_i active
      exact regsKept_mono (regsKept_wrN n a d.toNat _) (fun _ h => h) (by simp [active])
  · exact regsKept_mono (regsKept_wrN n a d.toNat _) (fun _ h => h) (by simp)

/-! ### The issuing agent but for what such an instruction changes -/

theorem wrCross_only (a : Agent) (i : Instr) (d : Reg) (n : Nat) (x : Nat → Nat) :
    { wrCross a i d n x with vregs := a.vregs, sregs := a.sregs } = a := by
  unfold wrCross
  split
  · split
    · rfl
    · exact wrN_only n _ _ _
  · exact wrN_only n _ _ _

theorem mem_of_onlyAgent {s t : State} (h : OnlyAgent s t) : t.mem = s.mem := (congrArg State.mem h.1 :)

/-- `i` issues and changes registers of `written`, in the lanes of `acts`, the pc, and the sticky flags `w`, and nothing else. -/
def Framed (i : Instr) (s : State) (a : Agent) (written : List Nat) (acts : Nat → Bool) (w : Word) : Prop :=
  ∃ t b, Issues i s t b ∧ OnlyAgent s t ∧ SameButRegs a b ∧ b.pc = nextPc a i ∧ RegsKept a b written acts ∧
    (∀ x, t.mem.read x = s.mem.read x) ∧ b.fstat = a.fstat ||| w ∧ StickyOnly a b

theorem Framed.mono {i : Instr} {s : State} {a : Agent} {v v' : List Nat} {acts : Nat → Bool} {w : Word} (h : Framed i s a v acts w)
    (sub : ∀ r ∈ v, r ∈ v') : Framed i s a v' acts w := by
  obtain ⟨t, b, ht, frame, same, hpc, regs, rest⟩ := h
  exact ⟨t, b, ht, frame, same, hpc, regsKept_mono regs sub (fun _ h => h), rest⟩

/-- An agent that differs in registers and FSTAT is as the frame has it. -/
theorem sameButRegs_of_only {a b : Agent} (only : { b with vregs := a.vregs, sregs := a.sregs, fstat := a.fstat } = a) :
    SameButRegs a b := by
  have e := congrArg (fun y : Agent => { y with
    pc := a.pc, lahead := a.lahead, counted := a.counted, waiting := a.waiting, hold := a.hold, ringOn := a.ringOn, ringGot := a.ringGot
    state := a.state, yielded := a.yielded, passFor := a.passFor, lostLine := a.lostLine }) only
  exact e

section
variable {s : State} {a : Agent} {i : Instr} (r : Ready s a i) (q : Quiet s a i)
include r q

/-- An instruction that only changes registers and sets flags of its agent. -/
theorem framed_onAgent {f : Agent → Agent} {w : Word} {written : List Nat} {acts : Nat → Bool} (hx : exec i s = issue i s (onAgent f))
    (only : { f a with vregs := a.vregs, sregs := a.sregs, fstat := a.fstat } = a) (regs : RegsKept a (f a) written acts)
    (flags : (f a).fstat = a.fstat ||| w) (sticky : Sticky w) : Framed i s a written acts w := by
  obtain ⟨t, b, ht, hb, frame, hpc, hv, hs, hf, same⟩ := issue_onAgent r q f (congrArg Agent.lahead only :)
  exact ⟨t, b, ⟨hx.trans ht, hb⟩, frame, sameButRegs_trans (sameButRegs_of_only only) same, hpc, regsKept_congr regs hv hs,
    fun x => by rw [mem_of_onlyAgent frame], hf.trans flags, stickyOnly_or (hf.trans flags) sticky⟩

theorem framed_alu {d : Reg} {n : Nat} {g : Agent → Nat → Nat} (hx : exec i s = alu i s d n g) :
    Framed i s a (regSpanFrom d n) (actsIn a i) 0 := by
  have only := wrLanes_only a i d n (g a)
  have flags : (wrLanes a i d n (g a)).fstat = a.fstat := (congrArg Agent.fstat only :)
  exact framed_onAgent r q (f := fun a => wrLanes a i d n (g a)) hx (congrArg (fun x : Agent => { x with fstat := a.fstat }) only :)
    (regsKept_wrLanes a i d n (g a)) (flags.trans BitVec.or_zero.symm) sticky_zero

theorem framed_aluFlags {d : Reg} {n : Nat} {g : Agent → Nat → Nat × Word} (hx : exec i s = aluFlags i s d n g)
    (sticky : ∀ l, Sticky (g a l).2) :
    Framed i s a (regSpanFrom d n) (actsIn a i) (orLanes (actLanes a i) (fun l => (g a l).2)) := by
  have only := wrLanes_only a i d n (fun l => (g a l).1)
  have flags : (wrLanes a i d n (fun l => (g a l).1)).fstat = a.fstat := (congrArg Agent.fstat only :)
  exact framed_onAgent r q (f := fun a => wrFlags a i d n (g a)) hx (congrArg (fun x : Agent => { x with fstat := a.fstat }) only :)
    (regsKept_congr (regsKept_wrLanes a i d n (fun l => (g a l).1)) rfl rfl) (by rw [wrFlags, flags]) (sticky_orLanes _ sticky)
end

/-! ### The block that writes registers, lane by lane (R87, R96, R104, R107) -/

theorem perElem_noFlag (t : Nat) {g : Fmt → Nat → Nat × Word} (h : ∀ fm k, (g fm k).2 = 0) : (perElem t g).2 = 0 := by
  unfold perElem
  split <;> simp [h]

theorem orLanes_zero (ls : List Nat) : orLanes ls (fun _ => 0) = 0 := by simp [orLanes]

/-- The registers of an operand that is written are among those that the instruction writes. -/
theorem mem_writesOf {i : Instr} {o : Opnd} (single : ∀ p, i ≠ .pPair p) (h : o ∈ opndsOf i) (written : o.wr = true) :
    ∀ r ∈ regSpan o, r ∈ writesOf i := by
  intro r hr
  unfold writesOf
  split
  · exact absurd rfl (single _)
  · exact List.mem_flatten.mpr ⟨regSpan o, List.mem_map.mpr ⟨o, List.mem_filter.mpr ⟨h, written⟩, rfl⟩, hr⟩

/-- What an instruction of the block does: it writes `n` registers from `d` on, by lane, and with flags or without. -/
inductive WritesLanes (i : Instr) : Prop where
  | plain (d : Reg) (n : Nat) (g : Agent → Nat → Nat) (o : Opnd) (exec : ∀ s, exec i s = alu i s d n g)
      (opnd : o ∈ opndsOf i) (written : o.wr = true) (span : regSpan o = regSpanFrom d n)
  | flags (d : Reg) (n : Nat) (g : Agent → Nat → Nat × Word) (o : Opnd) (exec : ∀ s, exec i s = aluFlags i s d n g)
      (opnd : o ∈ opndsOf i) (written : o.wr = true) (span : regSpan o = regSpanFrom d n) (sticky : ∀ a l, Sticky (g a l).2)
      (noFlag : setsNoFlag i = true → ∀ a l, (g a l).2 = 0)

theorem writesLanes_of_registerOnly : ∀ i : Instr, registerOnly i = true → WritesLanes i := by
  intro i h
  cases i
  case iadd f | isub f | imul f | imulh f | imad f | idp4 f | imin f | imax f | icmp f | andB f | orB f | xorB f | andn f | notB f | shl f
    | shr f | sar f | rot f | bfx f | bfi f | popc f | clz f | ctz f | brev f | sel f | mov f | movi f | lea f | movw f | unpk f =>
    exact .plain _ _ _ _ (fun _ => rfl) List.mem_cons_self rfl rfl
  case iadds f | iabs f | ineg f | fcmp f | fscale f | cvt f =>
    exact .flags _ _ _ _ (fun _ => rfl) List.mem_cons_self rfl rfl (fun _ _ => by simp [addSatN]) (fun h => nomatch h)
  case fadd f | fsub f | fmul f | ffma f | fmin f | fmax f | frnd f =>
    exact .flags _ _ _ _ (fun _ => rfl) List.mem_cons_self rfl rfl (fun _ _ => sticky_perElem _ (fun _ _ => by simp)) (fun h => nomatch h)
  case fabs f | fneg f | fclass f =>
    exact .flags _ _ _ _ (fun _ => rfl) List.mem_cons_self rfl rfl (fun _ _ => sticky_perElem _ (fun _ _ => by simp))
      (fun _ _ _ => perElem_noFlag _ fun _ _ => rfl)
  case pack f =>
    refine .flags f.d 1 _ _ (fun _ => rfl) List.mem_cons_self ?_ ?_ (fun _ _ => by simp) (fun h => nomatch h)
    · split <;> rfl
    · split <;> rfl
  all_goals exact nomatch h

/-- What the frame says of an instruction of the block. -/
theorem framed_registerOnly {s : State} {a : Agent} {i : Instr} (r : Ready s a i) (q : Quiet s a i) (h : registerOnly i = true) :
    ∃ w, Framed i s a (writesOf i) (actsIn a i) w ∧ (setsNoFlag i = true → w = 0) := by
  have single : ∀ p, i ≠ .pPair p := by rintro p rfl; exact nomatch h
  obtain ⟨d, n, g, o, hx, opnd, written, span⟩ | ⟨d, n, g, o, hx, opnd, written, span, sticky, noFlag⟩ := writesLanes_of_registerOnly i h
  · exact ⟨0, (framed_alu r q (hx s)).mono (span ▸ mem_writesOf single opnd written), fun _ => rfl⟩
  · refine ⟨_, (framed_aluFlags r q (hx s) (sticky a)).mono (span ▸ mem_writesOf single opnd written), fun none => ?_⟩
    simp only [noFlag none, orLanes_zero]

/-! ### The cross-lane block (R108 to R113) -/

section
variable {s : State} {a : Agent} {i : Instr} (r : Ready s a i) (q : Quiet s a i)
include r q

/-- The lanes in which a cross-lane instruction writes its destination. -/
abbrev crossActs (a : Agent) (i : Instr) (d : Reg) (l : Nat) : Bool := if isS d then !(crossLanes a i).isEmpty else crossActive a i l

theorem framed_wrCross {d : Reg} {n : Nat} {x : Nat → Nat} {f : Agent → Agent} (hx : exec i s = issue i s (onAgent f))
    (hf : f a = wrCross a i d n x) : Framed i s a (regSpanFrom d n) (crossActs a i d) 0 := by
  have only := wrCross_only a i d n x
  have flags : (wrCross a i d n x).fstat = a.fstat := (congrArg Agent.fstat only :)
  exact framed_onAgent r q hx (hf ▸ (congrArg (fun x : Agent => { x with fstat := a.fstat }) only :)) (hf ▸ regsKept_wrCross a i d n x)
    (hf ▸ flags.trans BitVec.or_zero.symm) sticky_zero

theorem framed_wrCrossFlags {d : Reg} {n : Nat} {x : Nat → Nat} {f : Agent → Agent} {w : Word} (hx : exec i s = issue i s (onAgent f))
    (hf : f a = { wrCross a i d n x with fstat := (wrCross a i d n x).fstat ||| w }) (sticky : Sticky w) :
    Framed i s a (regSpanFrom d n) (crossActs a i d) w := by
  have only := wrCross_only a i d n x
  have flags : (wrCross a i d n x).fstat = a.fstat := (congrArg Agent.fstat only :)
  exact framed_onAgent r q hx (hf ▸ (congrArg (fun x : Agent => { x with fstat := a.fstat }) only :))
    (hf ▸ regsKept_congr (regsKept_wrCross a i d n x) rfl rfl) (by rw [hf, flags]) sticky

/-- A mask of 64 lanes fills a pair (R111). -/
theorem framed_maskOfLanes {d : Reg} {x : Agent → Nat → Nat} (whole : maskBad a d = false)
    (hx : exec i s = issue i s (fun s b => if maskBad b d then .trap .reservedField 0 else .go (s.setMe (wrCross b i d (maskRegs b) (x b))))) :
    Framed i s a (regSpanFrom d (maskRegs a)) (crossActs a i d) 0 := by
  refine framed_wrCross r q (f := fun b => wrCross b i d (maskRegs b) (x b)) (hx.trans ?_) rfl
  simp [issue_ready r, onAgent, whole]
end

theorem mem_regSpanFrom_maskRegs {a : Agent} {d : Reg} {r : Nat} (h : r ∈ regSpanFrom d (maskRegs a)) :
    r = d.toNat ∨ a.strand = 64 ∧ r = d.toNat + 1 := by
  obtain ⟨j, hj, rfl⟩ := List.mem_map.mp h
  rw [List.mem_range] at hj
  unfold maskRegs at hj
  split at hj <;> omega

/-- A cross-lane instruction's destination is among the registers it writes. -/
theorem crossDest_written (s : State) (a : Agent) {i : Instr} {f : FArgs}
    (hi : i = .shfl f ∨ i = .bcast f ∨ i = .vote f ∨ i = .sred f ∨ i = .sscan f ∨ i = .ballot f ∨ i = .matchLanes f) :
    ∀ r ∈ regSpanFrom f.d 1, r ∈ agentWrites s a i := by
  have first {i : Instr} (single : ∀ p, i ≠ .pPair p) {o : Opnd} {os : List Opnd} (h : opndsOf i = o :: os) (written : o.wr = true)
      (span : regSpan o = regSpanFrom f.d 1) : ∀ r ∈ regSpanFrom f.d 1, r ∈ writesOf i :=
    span ▸ mem_writesOf single (h ▸ List.mem_cons_self) written
  obtain rfl | rfl | rfl | rfl | rfl | rfl | rfl := hi
  · exact first (i := .shfl f) (by simp) rfl rfl rfl
  · exact first (i := .bcast f) (by simp) rfl rfl rfl
  · exact first (i := .vote f) (by simp) rfl rfl rfl
  · exact first (i := .sred f) (by simp) rfl rfl rfl
  · exact first (i := .sscan f) (by simp) rfl rfl rfl
  · exact fun r hr => List.mem_append_left _ (first (i := .ballot f) (by simp) rfl rfl rfl r hr)
  · exact fun r hr => List.mem_append_left _ (first (i := .matchLanes f) (by simp) rfl rfl rfl r hr)

theorem crossMask_written (s : State) (a : Agent) {i : Instr} {f : FArgs} (hi : i = .ballot f ∨ i = .matchLanes f) :
    ∀ r ∈ regSpanFrom f.d (maskRegs a), r ∈ agentWrites s a i := by
  intro r hr
  obtain rfl | ⟨wide, rfl⟩ := mem_regSpanFrom_maskRegs hr
  · exact crossDest_written s a (by tauto) _ (by simp [regSpanFrom])
  · obtain rfl | rfl := hi <;> simp [agentWrites, wide]

/-- What the frame says of a cross-lane instruction (R108). -/
theorem framed_cross {s : State} {a : Agent} {i : Instr} (r : Ready s a i) (q : Quiet s a i) {f : FArgs}
    (hi : i = .shfl f ∨ i = .bcast f ∨ i = .vote f ∨ i = .sred f ∨ i = .sscan f ∨ (i = .ballot f ∨ i = .matchLanes f) ∧ maskBad a f.d = false) :
    ∃ w, Framed i s a (agentWrites s a i) (crossActs a i f.d) w ∧ ((∀ f, i ≠ .sred f ∧ i ≠ .sscan f) → w = 0) := by
  have dest := crossDest_written s a (i := i) (f := f) (by tauto)
  obtain rfl | rfl | rfl | rfl | rfl | ⟨hi, whole⟩ := hi
  · exact ⟨0, (framed_wrCross r q (by rfl) rfl).mono dest, fun _ => rfl⟩
  · exact ⟨0, (framed_wrCross r q (by rfl) rfl).mono dest, fun _ => rfl⟩
  · exact ⟨0, (framed_wrCross r q (by rfl) rfl).mono dest, fun _ => rfl⟩
  · exact ⟨_, (framed_wrCrossFlags r q (by rfl) rfl (sticky_orLanes _ (sticky_sredOf a f))).mono dest, fun other => absurd rfl (other f).1⟩
  · exact ⟨_, (framed_wrCrossFlags r q (by rfl) rfl (sticky_orLanes _ (sticky_sscanFlags a f))).mono dest, fun other => absurd rfl (other f).2⟩
  · refine ⟨0, Framed.mono ?_ (crossMask_written s a hi), fun _ => rfl⟩
    obtain rfl | rfl := hi
    · exact framed_maskOfLanes r q whole rfl
    · exact framed_maskOfLanes r q whole rfl

/-! ### P pairs (R65) -/

theorem slotWrite_only (old a : Agent) (p : PSlot) : { slotWrite old a p with vregs := a.vregs, sregs := a.sregs, fstat := a.fstat } = a :=
  (congrArg (fun x : Agent => { x with fstat := a.fstat }) (regPut_only a p.d.toNat
    (fun l => if slotActs old p l then some (BitVec.ofNat 32 (slotResult old p l).1) else none)) :)

theorem slotWrite_fstat (old a : Agent) (p : PSlot) :
    (slotWrite old a p).fstat = a.fstat ||| orLanes (slotLanes old p) (fun l => (slotResult old p l).2) := by
  have only : (regPut a p.d.toNat _).fstat = a.fstat := (congrArg Agent.fstat (regPut_only a p.d.toNat
    (fun l => if slotActs old p l then some (BitVec.ofNat 32 (slotResult old p l).1) else none)) :)
  rw [slotWrite, only]

theorem regsKept_slotWrite (old a : Agent) (p : PSlot) : RegsKept a (slotWrite old a p) [p.d.toNat] (slotActs old p) :=
  regsKept_congr (regsKept_mono (regsKept_regPut a p.d.toNat _) (fun _ h => h) (by simp)) rfl rfl

theorem framed_pPair {s : State} {a : Agent} {p : PArgs} (r : Ready s a (.pPair p)) (q : Quiet s a (.pPair p)) :
    ∃ w, Framed (.pPair p) s a [p.s0.d.toNat, p.s1.d.toNat] (fun l => slotActs a p.s0 l || slotActs a p.s1 l) w := by
  have only0 := slotWrite_only a a p.s0
  have only1 := slotWrite_only a (slotWrite a a p.s0) p.s1
  have lanes : (slotWrite a a p.s0).nlanes = a.nlanes := (congrArg Agent.nlanes only0 :)
  have flags : (slotWrite a (slotWrite a a p.s0) p.s1).fstat = a.fstat ||| (orLanes (slotLanes a p.s0) (fun l => (slotResult a p.s0 l).2) |||
      orLanes (slotLanes a p.s1) (fun l => (slotResult a p.s1 l).2)) := by
    rw [slotWrite_fstat, slotWrite_fstat, BitVec.or_assoc]
  refine ⟨_, framed_onAgent r q (f := fun a => slotWrite a (slotWrite a a p.s0) p.s1) rfl ?_ ?_ flags ?_⟩
  · exact (congrArg (fun x : Agent => { x with vregs := a.vregs, sregs := a.sregs, fstat := a.fstat }) only1 :).trans only0
  · exact regsKept_trans lanes (regsKept_mono (regsKept_slotWrite a a p.s0) (by simp) (fun _ h => (Bool.or_eq_false_iff.mp h).1))
      (regsKept_mono (regsKept_slotWrite a _ p.s1) (by simp) (by simp))
  · exact sticky_or.mpr ⟨sticky_orLanes _ (sticky_slotResult a p.s0), sticky_orLanes _ (sticky_slotResult a p.s1)⟩

/-! ### CVTQ and CVTD (R106, R134) -/

/-- The end of an instruction that left `u` and the agent `b` in it, and disturbs no window: only the agent changes further. -/
theorem finish_onState {s u : State} {a b : Agent} {i : Instr} (pc : DWord) (h : Tab.find s.agents s.cur = some a) (hc : u.cur = s.cur)
    (hla : b.lahead = a.lahead) (q : Quiet s a i) :
    ∃ c, Tab.find (finish i s (u.setMe b) pc []).agents s.cur = some c ∧ OnlyAgent u (finish i s (u.setMe b) pc [])
      ∧ c.pc = pc ∧ c.vregs = b.vregs ∧ c.sregs = b.sregs ∧ c.fstat = b.fstat ∧ SameButRegs b c := by
  have me : (u.setMe b).agent s.cur = b := hc ▸ setMe_agent u b
  have own : OnlyAgent u (u.setMe b) := onlyAgent_setAgent (onlyAgent_refl u) b
  obtain ⟨la, js, e | e⟩ := finish_quiet (i := i) pc h ((setMe_cur u b).trans hc) me hla q <;> rw [e, ← hc]
  · exact ⟨b.pastIssue la pc, by simp, onlyAgent_marked (onlyAgent_setAgent own _), rfl, rfl, rfl, rfl, sameButRegs_pastIssue _ _ _⟩
  · exact ⟨(b.pastIssue la pc).yieldTo js, by simp, onlyAgent_setAgent (onlyAgent_marked (onlyAgent_setAgent own _)) _,
      rfl, rfl, rfl, rfl, sameButRegs_yieldTo _ _ _ _⟩

/-- Two agents differ at most in registers, FSTAT and the four registers of statistics. -/
def SameButStats (a b : Agent) : Prop :=
  { b with vregs := a.vregs, sregs := a.sregs, fstat := a.fstat, qmax := a.qmax, qsatn := a.qsatn, qnfn := a.qnfn, qctr := a.qctr } = a

theorem SameButStats.trans {a b c : Agent} (h : SameButStats a b) (g : SameButStats b c) : SameButStats a c := by
  have e := congrArg (fun x : Agent => { x with
    vregs := a.vregs, sregs := a.sregs, fstat := a.fstat, qmax := a.qmax, qsatn := a.qsatn, qnfn := a.qnfn, qctr := a.qctr }) g
  exact e.trans h

theorem sameButStats_wrLanes (a : Agent) (i : Instr) (d : Reg) (n : Nat) (x : Nat → Nat) : SameButStats a (wrLanes a i d n x) :=
  (congrArg (fun y : Agent => { y with fstat := a.fstat, qmax := a.qmax, qsatn := a.qsatn, qnfn := a.qnfn, qctr := a.qctr })
    (wrLanes_only a i d n x) :)

/-- What CVTQ does to its agent: the destination, sticky flags, and statistics. -/
theorem quantise_frame (cb : List Byte) (slot : Nat) (f : FArgs) (a : Agent) :
    SameButStats a (quantise cb slot f a) ∧ RegsKept a (quantise cb slot f a) (regSpanFrom f.d (cvtRegs (slotFmt slot))) (actsIn a (.cvtq f)) ∧
      ∃ w, (quantise cb slot f a).fstat = a.fstat ||| w ∧ Sticky w := by
  unfold quantise
  extract_lets i fm ls x stat y z
  have same : SameButStats a x := sameButStats_wrLanes a i f.d (cvtRegs fm) _
  have flags : x.fstat = a.fstat := (congrArg Agent.fstat (wrLanes_only a i f.d (cvtRegs fm) _) :)
  have hy : SameButStats a y ∧ y.vregs = x.vregs ∧ y.sregs = x.sregs ∧ y.fstat = x.fstat ||| orLanes ls (quantFlags cb slot a f) :=
    ⟨same, rfl, rfl, rfl⟩
  have hz : SameButStats a z ∧ z.vregs = y.vregs ∧ z.sregs = y.sregs ∧ z.fstat = y.fstat := by
    unfold z
    split
    · exact ⟨hy.1.trans rfl, rfl, rfl, rfl⟩
    · exact ⟨hy.1, rfl, rfl, rfl⟩
  obtain ⟨samez, hv, hs, hf⟩ := hz
  have regs : RegsKept a z (regSpanFrom f.d (cvtRegs fm)) (actsIn a i) := regsKept_congr (regsKept_wrLanes a i f.d (cvtRegs fm) _) hv hs
  have fz : z.fstat = a.fstat ||| orLanes ls (quantFlags cb slot a f) := by rw [hf, hy.2.2.2, flags]
  have sticky : Sticky (orLanes ls (quantFlags cb slot a f)) := sticky_orLanes ls (sticky_quantFlags cb slot a f)
  split
  · exact ⟨samez.trans rfl, regsKept_congr regs rfl rfl, _, fz, sticky⟩
  · exact ⟨samez, regs, _, fz, sticky⟩

/-- Registers from `d` on, written one after another in the lanes that act. -/
theorem wrN_foldl (a : Agent) (d : Nat) (x : Nat → Nat → Option Nat) (acts : Nat → Bool) (off : ∀ k l, acts l = false → x k l = none)
    (ks : List Nat) (b : Agent) (same : { b with vregs := a.vregs, sregs := a.sregs } = a) :
    { ks.foldl (fun b k => wrN b (d + k) 1 (x k)) b with vregs := a.vregs, sregs := a.sregs } = a ∧
      RegsKept b (ks.foldl (fun b k => wrN b (d + k) 1 (x k)) b) (ks.map (d + ·)) acts := by
  induction ks generalizing b with
  | nil => exact ⟨same, regsKept_refl _ _ _⟩
  | cons k ks ih =>
    have only := wrN_only 1 b (d + k) (x k)
    have same' : { wrN b (d + k) 1 (x k) with vregs := a.vregs, sregs := a.sregs } = a :=
      (congrArg (fun y : Agent => { y with vregs := a.vregs, sregs := a.sregs }) only :).trans same
    obtain ⟨rest, regs⟩ := ih (wrN b (d + k) 1 (x k)) same'
    rw [List.foldl_cons]
    have lanes : (wrN b (d + k) 1 (x k)).nlanes = b.nlanes := (congrArg Agent.nlanes only :)
    refine ⟨rest, regsKept_trans lanes (regsKept_mono (regsKept_wrN 1 b (d + k) (x k)) ?_ ?_) (regsKept_mono regs ?_ ?_)⟩
    · simp
    · intro l hl
      simp [off k l hl]
    · intro r hr
      exact List.mem_cons_of_mem _ hr
    · exact fun _ h => h

/-- What CVTD does to its agent: the destination and sticky flags. -/
theorem dequantise_frame (cb : List Byte) (slot : Nat) (f : FArgs) (a : Agent) :
    { dequantise cb slot f a with vregs := a.vregs, sregs := a.sregs, fstat := a.fstat } = a ∧
      RegsKept a (dequantise cb slot f a) (regSpanFrom f.d (cvtValues (slotFmt slot))) (actsIn a (.cvtd f)) ∧
      ∃ w, (dequantise cb slot f a).fstat = a.fstat ||| w ∧ Sticky w := by
  unfold dequantise
  extract_lets i fm w one n x
  obtain ⟨only, regs⟩ := wrN_foldl a f.d.toNat (fun k l => if actsIn a i l then some (one l k).1 else none) (actsIn a i)
    (fun k l off => by simp [off]) (List.range n) a rfl
  have flags : x.fstat = a.fstat := (congrArg Agent.fstat only :)
  have sticky l k : Sticky (one l k).2 := sticky_fin1 _ _ (sticky_mulV _ _)
  exact ⟨(congrArg (fun y : Agent => { y with fstat := a.fstat }) only :), regsKept_congr regs rfl rfl, _,
    (congrArg (· ||| orLanes (actLanes a i) (fun l => orLanes (List.range n) (fun k => (one l k).2))) flags :),
    sticky_orLanes _ fun l => sticky_orLanes _ (sticky l)⟩

/-- A read at issue leaves its mark on an agent in what it has read and observed alone. -/
def SameButNotes (a b : Agent) : Prop :=
  { b with lastObs := a.lastObs, seen := a.seen, seenVer := a.seenVer, watch := a.watch, overflow := a.overflow, folded := a.folded } = a

theorem sameButNotes_watchBundle {a b : Agent} (h : SameButNotes a b) (e : WatchEntry) : SameButNotes a (watchBundle b e) := by
  unfold watchBundle
  split
  · exact h
  · split
    · exact h
    · split
      · exact h
      · exact h

theorem sameButNotes_foldl {a : Agent} : ∀ (es : List WatchEntry) {b : Agent}, SameButNotes a b → SameButNotes a (es.foldl watchBundle b)
  | [], _, h => h
  | e :: es, _, h => sameButNotes_foldl es (sameButNotes_watchBundle h e)

theorem sameButNotes_observeLines (s : State) (a : Agent) (lines : List Nat) : SameButNotes a (observeLines s a lines) := by
  unfold observeLines
  extract_lets ids stale x
  split
  · rfl
  · exact (sameButNotes_foldl _ rfl : SameButNotes a x)

theorem sameButNotes_readNoted (s : State) (a : Agent) (locs : List Nat) : SameButNotes a (readNoted s a locs) := by
  unfold readNoted noteReads
  extract_lets hot fresh lines x
  exact sameButNotes_observeLines s a lines

/-- The course of CVTQ and CVTD once the codebook is read (R106, R123). -/
theorem exec_slotConvert {s u : State} {a b : Agent} {i : Instr} (r : Ready s a i) {f : FArgs} {nd na : Nat → Nat}
    {go : List Byte → Nat → Agent → Agent} {slot : Nat} {cb : List Byte} (hslot : slotOf s a.grid (f.mod.toNat % 8) = slot)
    (hx : exec i s = issue i s (slotConvert f nd na go)) (good : slotBad slot = false) (book : ReadsNow s a (readBook s a slot) cb u b)
    (hd : f.d.toNat + nd (slotFmt slot) ≤ a.allot) (ha : f.a.toNat + na (slotFmt slot) ≤ a.allot) :
    exec i s = .next (finish i s (u.setMe (go cb slot b)) (nextPc a i) []) := by
  have fit : (decide (a.allot < f.d.toNat + nd (slotFmt slot)) || decide (a.allot < f.a.toNat + na (slotFmt slot))) = false := by
    simp only [Bool.or_eq_false_iff, decide_eq_false_iff_not]
    omega
  rw [hx, issue_ready r]
  simp [slotConvert, hslot, good, fit, withRead_readsNow book]

theorem sameButNotes_of_readsNow {s u : State} {a b : Agent} {r : Except ReadFail (List Byte × List Nat)} {bs : List Byte}
    (reads : ReadsNow s a r bs u b) : SameButNotes a b := by
  obtain ⟨locs, -, -, -, rfl⟩ := reads
  exact sameButNotes_readNoted s a locs

/-- The end of an instruction that read at issue and then changed registers, sticky flags and statistics of its agent. -/
theorem finish_afterRead {s u : State} {a b x : Agent} {i : Instr} {r : Except ReadFail (List Byte × List Nat)} {bs : List Byte}
    (h : Tab.find s.agents s.cur = some a) (q : Quiet s a i) (reads : ReadsNow s a r bs u b) {written : List Nat}
    (regs : RegsKept b x written (actsIn b i)) (same : SameButStats b x) {w : Word} (flags : x.fstat = b.fstat ||| w) (sticky : Sticky w)
    (run : exec i s = .next (finish i s (u.setMe x) (nextPc a i) [])) :
    ∃ t c, Issues i s t c ∧ OnlyAgent u t ∧ c.pc = nextPc a i ∧ RegsKept a c written (actsIn a i) ∧
      SameButRegs { b with qmax := c.qmax, qsatn := c.qsatn, qnfn := c.qnfn, qctr := c.qctr } c ∧ SameButRegs x c ∧
      (∀ x, t.mem.read x = s.mem.read x) ∧ StickyOnly a c := by
  have notes := sameButNotes_of_readsNow reads
  obtain ⟨locs, -, -, hu, -⟩ := reads
  have frame : u.cur = s.cur ∧ u.mem = s.mem := by
    rw [hu, readUsed]
    split <;> exact ⟨rfl, rfl⟩
  have acts : actsIn b i = actsIn a i := (congrArg (fun y : Agent => actsIn y i) notes :)
  have lanes : b.nlanes = a.nlanes := (congrArg Agent.nlanes notes :)
  have bv : b.vregs = a.vregs := (congrArg Agent.vregs notes :)
  have bs : b.sregs = a.sregs := (congrArg Agent.sregs notes :)
  have bf : b.fstat = a.fstat := (congrArg Agent.fstat notes :)
  have la : b.lahead = a.lahead := (congrArg Agent.lahead notes :)
  have xla : x.lahead = b.lahead := (congrArg Agent.lahead same :)
  obtain ⟨c, hc, only, hpc, hv, hs, hf, issue⟩ := finish_onState (b := x) (nextPc a i) h frame.1 (xla.trans la) q
  have stats : SameButRegs { b with qmax := x.qmax, qsatn := x.qsatn, qnfn := x.qnfn, qctr := x.qctr } x := by
    have e := congrArg (fun y : Agent => { y with
      qmax := x.qmax, qsatn := x.qsatn, qnfn := x.qnfn, qctr := x.qctr, pc := b.pc, lahead := b.lahead, counted := b.counted
      waiting := b.waiting, hold := b.hold, ringOn := b.ringOn, ringGot := b.ringGot
      state := b.state, yielded := b.yielded, passFor := b.passFor, lostLine := b.lostLine }) same
    exact e
  have qs : c.qmax = x.qmax ∧ c.qsatn = x.qsatn ∧ c.qnfn = x.qnfn ∧ c.qctr = x.qctr :=
    ⟨(congrArg Agent.qmax issue :), (congrArg Agent.qsatn issue :), (congrArg Agent.qnfn issue :), (congrArg Agent.qctr issue :)⟩
  have flagsC : c.fstat = a.fstat ||| w := by rw [hf, flags, bf]
  have regsC : RegsKept a c written (actsIn a i) := fun r l hl hr kept =>
    (regsKept_congr regs hv hs r l (lanes ▸ hl) hr (acts ▸ kept)).trans (regGet_congr bv bs r l)
  refine ⟨_, c, ⟨run, hc⟩, only, hpc, regsC, ?_, issue, fun y => ?_, stickyOnly_or flagsC sticky⟩
  · rw [qs.1, qs.2.1, qs.2.2.1, qs.2.2.2]
    exact sameButRegs_trans stats issue
  · rw [(congrArg State.mem only.1 :), frame.2]

/-- Settles O15: each instruction is brought to a change of its agent's registers and sticky flags, of which the rules above say what
it keeps. -/
theorem registerFrame : Obligations.RegisterFrame := by
  intro s a i r q
  refine ⟨fun h => ?_, fun f hi => ?_, fun p hi => ?_, fun f u b => ?_⟩
  · obtain ⟨w, ⟨t, b, ht, only, same, hpc, regs, mem, flags, sticky⟩, none⟩ := framed_registerOnly r q h
    exact ⟨t, b, ht, only, same, hpc, regs, mem, fun noFlag => flags.trans (none noFlag ▸ BitVec.or_zero), sticky⟩
  · obtain ⟨w, ⟨t, b, ht, only, same, hpc, regs, mem, flags, sticky⟩, none⟩ := framed_cross r q hi
    exact ⟨t, b, ht, only, same, hpc, regs, mem, fun noFlag => flags.trans (none noFlag ▸ BitVec.or_zero), sticky⟩
  · subst hi
    obtain ⟨w, t, b, ht, only, same, hpc, regs, mem, flags, sticky⟩ := framed_pPair r q
    exact ⟨t, b, ht, only, same, hpc, regs, mem, sticky⟩
  · intro slot good ⟨cb, reads⟩ hi
    obtain ⟨rfl, hd, ha⟩ | ⟨rfl, hd, ha⟩ := hi
    · have run := exec_slotConvert r rfl rfl good reads hd ha
      obtain ⟨same, regs, w, flags, sticky⟩ := quantise_frame cb slot f b
      obtain ⟨t, c, ht, only, hpc, kept, stats, -, mem, st⟩ := finish_afterRead r.1 q reads
        (regsKept_mono regs (fun _ h => List.mem_append_right _ h) (fun _ h => h)) same flags sticky run
      exact ⟨t, c, ht, only, hpc, kept, stats, nofun, mem, st⟩
    · have run := exec_slotConvert r rfl rfl good reads hd ha
      obtain ⟨only, regs, w, flags, sticky⟩ := dequantise_frame cb slot f b
      have same : SameButStats b (dequantise cb slot f b) :=
        (congrArg (fun y : Agent => { y with qmax := b.qmax, qsatn := b.qsatn, qnfn := b.qnfn, qctr := b.qctr }) only :)
      have notes := sameButNotes_of_readsNow reads
      obtain ⟨t, c, ht, frame, hpc, kept, stats, issued, mem, st⟩ := finish_afterRead r.1 q reads
        (regsKept_mono regs (fun _ h => List.mem_append_right _ h) (fun _ h => h)) same flags sticky run
      have keeps {α : Type} (g : Agent → α) (hi : g c = g (dequantise cb slot f b)) (ho : g (dequantise cb slot f b) = g b)
          (hn : g b = g a) : g c = g a := hi.trans (ho.trans hn)
      exact ⟨t, c, ht, frame, hpc, kept, stats, fun _ =>
        ⟨keeps Agent.qmax (congrArg Agent.qmax issued :) (congrArg Agent.qmax only :) (congrArg Agent.qmax notes :),
         keeps Agent.qsatn (congrArg Agent.qsatn issued :) (congrArg Agent.qsatn only :) (congrArg Agent.qsatn notes :),
         keeps Agent.qnfn (congrArg Agent.qnfn issued :) (congrArg Agent.qnfn only :) (congrArg Agent.qnfn notes :),
         keeps Agent.qctr (congrArg Agent.qctr issued :) (congrArg Agent.qctr only :) (congrArg Agent.qctr notes :)⟩, mem, st⟩

end Sys2Proof.Machine
end

section
/-! SUPPORT. The lanes of a mask and of its stack are lanes that the team has (R24, R29): what agents, states, and the ways an instruction
can end are held to, and the rules of the state's operations. -/

namespace Sys2Proof.Machine

open Sys2Proof.Safety

/-- A team's mask and the entries of its mask stack name only lanes that it has. -/
def AgentFits (a : Agent) : Prop := a.kind = .team →
  a.mask &&& ~~~teamLanes a = 0 ∧ ∀ e ∈ a.stack ++ a.spilled, e.outer &&& ~~~teamLanes a = 0 ∧ e.alt &&& ~~~teamLanes a = 0

/-- However an instruction's own effect ends, the state it leaves has fitting masks. -/
def ActFits : Act → Prop
  | .go t | .goTo t _ | .long t _ | .hold t | .gone t | .fault t | .trapIn t _ _ | .wait t => MaskInv t
  | .trap _ _ => True

/-- If an instruction or event leads to a state, that state has fitting masks. -/
def OutcomeFits : Host.Outcome State Fault Refusal → Prop
  | .next t => MaskInv t
  | _ => True

theorem maskInv_of_agents {s t : State} (h : MaskInv s) (same : t.agents = s.agents) : MaskInv t := fun k a e => h k a (same ▸ e)

theorem agentFits_congr {a b : Agent} (h : AgentFits a)
    (same : (b.kind, b.nlanes, b.mask, b.stack, b.spilled) = (a.kind, a.nlanes, a.mask, a.stack, a.spilled)) : AgentFits b := by
  obtain ⟨kind, lanes, mask, stack, spilled⟩ : b.kind = a.kind ∧ b.nlanes = a.nlanes ∧ b.mask = a.mask ∧ b.stack = a.stack ∧
    b.spilled = a.spilled := by simpa using same
  have all : teamLanes b = teamLanes a := by rw [teamLanes, teamLanes, lanes]
  intro team
  rw [mask, stack, spilled, all]
  exact h (kind ▸ team)

theorem agentFits_find {s : State} {k : Nat} {a : Agent} (h : MaskInv s) (e : Tab.find s.agents k = some a) : AgentFits a := h k a e

theorem agentFits_blank : AgentFits Agent.blank := fun _ => ⟨by simp [Agent.blank], by simp [Agent.blank]⟩

theorem agentFits_agent {s : State} {k : Nat} (h : MaskInv s) : AgentFits (s.agent k) := by
  rw [State.agent, Tab.get_eq_find]
  cases e : Tab.find s.agents k with
  | none => exact agentFits_blank
  | some a => exact h k a e

theorem agentFits_me {s : State} (h : MaskInv s) : AgentFits s.me := agentFits_agent h

theorem maskInv_setAgent {s : State} {k : Nat} {a : Agent} (h : MaskInv s) (fits : AgentFits a) : MaskInv (s.setAgent k a) := by
  intro j b e
  by_cases hj : j = k
  · subst hj
    rw [setAgent_agents, Tab.find_put_same] at e
    exact Option.some.inj e ▸ fits
  · exact h j b (by rwa [setAgent_agents, Tab.find_put_other _ _ hj] at e)

theorem maskInv_setMe {s : State} {a : Agent} (h : MaskInv s) (fits : AgentFits a) : MaskInv (s.setMe a) := maskInv_setAgent h fits

theorem maskInv_modAgent {s : State} {k : Nat} {f : Agent → Agent} (h : MaskInv s) (fits : ∀ a, AgentFits a → AgentFits (f a)) :
    MaskInv (s.modAgent k f) := by
  unfold State.modAgent
  split
  · exact h
  · rename_i a e
    exact maskInv_setAgent h (fits a (h k a e))

theorem maskInv_ite {c : Prop} [Decidable c] {s t : State} (hs : MaskInv s) (ht : MaskInv t) : MaskInv (if c then s else t) := by
  split
  · exact hs
  · exact ht

theorem agentFits_ite {c : Prop} [Decidable c] {a b : Agent} (ha : AgentFits a) (hb : AgentFits b) : AgentFits (if c then a else b) := by
  split
  · exact ha
  · exact hb

theorem actFits_ite {c : Prop} [Decidable c] {a b : Act} (ha : ActFits a) (hb : ActFits b) : ActFits (if c then a else b) := by
  split
  · exact ha
  · exact hb

theorem outcomeFits_ite {c : Prop} [Decidable c] {a b : Host.Outcome State Fault Refusal} (ha : OutcomeFits a) (hb : OutcomeFits b) :
    OutcomeFits (if c then a else b) := by
  split
  · exact ha
  · exact hb

theorem maskInv_foldl {α : Type} {f : State → α → State} {xs : List α} {s : State} (step : ∀ s x, MaskInv s → MaskInv (f s x))
    (h : MaskInv s) : MaskInv (xs.foldl f s) := by
  induction xs generalizing s with
  | nil => exact h
  | cons x xs ih => exact ih (step s x h)

theorem agentFits_foldl {α : Type} {f : Agent → α → Agent} {xs : List α} {a : Agent} (step : ∀ a x, AgentFits a → AgentFits (f a x))
    (h : AgentFits a) : AgentFits (xs.foldl f a) := by
  induction xs generalizing a with
  | nil => exact h
  | cons x xs ih => exact ih (step a x h)

/-- Every agent changed in place. -/
theorem maskInv_map {s t : State} {f : Nat × Agent → Nat × Agent} (h : MaskInv s) (ht : t.agents = s.agents.map f)
    (keyed : ∀ e, (f e).1 = e.1) (fits : ∀ e, AgentFits e.2 → AgentFits (f e).2) : MaskInv t := by
  have hf : f = fun e => (e.1, (f e).2) := funext fun e => Prod.ext (keyed e) rfl
  intro k a e
  rw [ht, hf, Tab.find_map, Option.map_eq_some_iff] at e
  obtain ⟨b, hb, rfl⟩ := e
  exact fits (k, b) (h k b hb)

theorem maskInv_erase {s t : State} {k : Nat} (h : MaskInv s) (ht : t.agents = Tab.erase s.agents k) : MaskInv t := by
  intro j a e
  rw [ht] at e
  by_cases hj : j = k
  · subst hj
    simp at e
  · exact h j a (by rwa [Tab.find_erase_other _ hj] at e)

theorem maskInv_getD {o : Option State} {s : State} (ho : ∀ t, o = some t → MaskInv t) (h : MaskInv s) : MaskInv (o.getD s) := by
  cases o with
  | none => exact h
  | some t => exact ho t rfl

/-! ### Masks and entries of the stack -/

/-- A mask names only lanes of the agent, if it is a team. -/
def MaskFits (a : Agent) (m : Mask) : Prop := a.kind = .team → m &&& ~~~teamLanes a = 0

/-- So do both masks of an entry of the stack. -/
def EntryFits (a : Agent) (e : MaskEntry) : Prop := MaskFits a e.outer ∧ MaskFits a e.alt

theorem agentFits_iff {a : Agent} : AgentFits a ↔ MaskFits a a.mask ∧ ∀ e ∈ a.stack ++ a.spilled, EntryFits a e :=
  ⟨fun h => ⟨fun team => (h team).1, fun e he => ⟨fun team => ((h team).2 e he).1, fun team => ((h team).2 e he).2⟩⟩,
   fun h team => ⟨h.1 team, fun e he => ⟨(h.2 e he).1 team, (h.2 e he).2 team⟩⟩⟩

theorem maskFits_congr {a b : Agent} {m : Mask} (kind : b.kind = a.kind) (lanes : b.nlanes = a.nlanes)
    (h : MaskFits a m) : MaskFits b m := by
  have all : teamLanes b = teamLanes a := by rw [teamLanes, teamLanes, lanes]
  intro team
  rw [all]
  exact h (kind ▸ team)

theorem maskFits_zero {a : Agent} : MaskFits a 0 := fun _ => BitVec.zero_and

theorem maskFits_and {a : Agent} {m : Mask} (x : Mask) (h : MaskFits a m) : MaskFits a (m &&& x) := by
  intro team
  have no := h team
  rw [BitVec.and_assoc, BitVec.and_comm x, ← BitVec.and_assoc, no]
  exact BitVec.zero_and

theorem maskFits_or {a : Agent} {m n : Mask} (h : MaskFits a m) (g : MaskFits a n) : MaskFits a (m ||| n) := by
  intro team
  rw [BitVec.and_or_distrib_right, h team, g team]
  exact BitVec.or_zero

/-- Cut to the team's lanes, any mask fits. -/
theorem maskFits_teamLanes {a : Agent} {m : Mask} : MaskFits a (m &&& teamLanes a) := by
  intro _
  rw [BitVec.and_assoc, BitVec.and_not_self]
  exact BitVec.and_zero

end Sys2Proof.Machine
end

section
/-! SUPPORT. What the operations of the state leave of the masks of teams (R24, R29): ports and fabric, agents, memory, closes,
traps, windows, slots and issue. -/

namespace Sys2Proof.Machine

open Sys2Proof.Safety

/-! ### The state of the device as plain data -/

theorem maskInv_reset : MaskInv State.reset := fun _ _ e => nomatch e

/-! ### The ports (R367 to R369) -/

theorem maskInv_setPort {s : State} {p : Nat} {x : Port} (h : MaskInv s) : MaskInv (s.setPort p x) :=
  maskInv_of_agents h rfl

/-! ### Queues and pools (R366, R374, R375) -/

theorem maskInv_dropBranch {s : State} {m : Option Nat} (h : MaskInv s) : MaskInv (dropBranch s m) := by
  unfold dropBranch
  split
  · exact h
  · exact maskInv_of_agents h rfl

theorem maskInv_dropBranches {s : State} {ms : List (Option Nat)} (h : MaskInv s) : MaskInv (dropBranches s ms) :=
  maskInv_foldl (fun _ _ h1 => maskInv_dropBranch h1) h

theorem maskInv_pumpOne {s : State} {p : Nat} (h : MaskInv s) : MaskInv (pumpOne s p) := by
  unfold pumpOne
  extract_lets
  refine maskInv_ite h ?_
  split
  · exact h
  · exact maskInv_setPort h

theorem maskInv_pumpPort {s : State} {p : Nat} (h : MaskInv s) : MaskInv (pumpPort s p) :=
  maskInv_foldl (fun _ _ h1 => maskInv_pumpOne h1) h

theorem maskInv_admitFrames : ∀ {es : List (Nat × OutFrame)} {s : State}, MaskInv s → MaskInv (admitFrames s es)
  | [], _, h => maskInv_of_agents h rfl
  | e :: es, s, h => by
    unfold admitFrames
    exact maskInv_ite (maskInv_admitFrames (maskInv_pumpPort (maskInv_setPort h))) (maskInv_of_agents h rfl)

theorem maskInv_queueFrame {s : State} {p : Nat} {f : OutFrame} (h : MaskInv s) : MaskInv (queueFrame s p f) :=
  maskInv_ite (maskInv_admitFrames h) (maskInv_pumpPort (maskInv_setPort h))

theorem maskInv_refillPort {s : State} {p : Nat} (h : MaskInv s) : MaskInv (refillPort s p) :=
  maskInv_admitFrames (maskInv_pumpPort h)

/-! ### Route tables and paths (R371 to R373) -/

theorem maskInv_sendAlong {s : State} {dest tc : Nat} {path : Nat × Nat} {ops : List FabOp} (h : MaskInv s) :
    MaskInv (sendAlong s dest tc path ops) :=
  maskInv_ite h (maskInv_queueFrame h)

theorem maskInv_sendManagement {s : State} {p kind value : Nat} (h : MaskInv s) : MaskInv (sendManagement s p kind value) :=
  maskInv_queueFrame h

/-! ### Requests and replies -/

theorem maskInv_trySend {s : State} {tag : Nat} (h : MaskInv s) : MaskInv (trySend s tag) := by
  unfold trySend
  split
  · exact h
  · refine maskInv_ite h ?_
    split
    · exact h
    · exact maskInv_sendAlong (maskInv_of_agents h rfl)

theorem maskInv_sendOps {s : State} {dest : Nat} {op : FabOp} {more : List FabOp} {why : SentFor} (h : MaskInv s) :
    MaskInv (sendOps s dest op more why) :=
  maskInv_trySend (maskInv_of_agents h rfl)

theorem maskInv_sendOp {s : State} {dest : Nat} {op : FabOp} {why : SentFor} (h : MaskInv s) : MaskInv (sendOp s dest op why) :=
  maskInv_sendOps h

theorem maskInv_sendVia {s : State} {dest : Nat} {path : Nat × Nat} {op : FabOp} {why : SentFor} (h : MaskInv s) :
    MaskInv (sendVia s dest path op why) :=
  maskInv_sendAlong (maskInv_of_agents h rfl)

theorem maskInv_sendGroup {s : State} {g tc : Nat} {op : FabOp} (h : MaskInv s) : MaskInv (sendGroup s g tc op) :=
  maskInv_ite h (maskInv_foldl (fun _ _ h1 => maskInv_queueFrame h1) (maskInv_of_agents h rfl))

theorem maskInv_sendToAll {s : State} {g : Nat} {devs : List Nat} {op : FabOp} {why : SentFor} (h : MaskInv s) :
    MaskInv (sendToAll s g devs op why) :=
  maskInv_sendGroup (maskInv_of_agents h rfl)

theorem maskInv_dropSent {s : State} {tag : Nat} (h : MaskInv s) : MaskInv (dropSent s tag) :=
  maskInv_foldl (fun _ _ h1 => maskInv_trySend h1) (maskInv_of_agents h rfl)

theorem maskInv_replyTo {s : State} {o : FabOp} {status : Nat} {data : List Byte} (h : MaskInv s) : MaskInv (replyTo s o status data) :=
  maskInv_ite (maskInv_sendAlong h) h

/-! ### Operands -/

theorem agentFits_sPut {a : Agent} {n : Nat} {x : Word} (fits : AgentFits a) : AgentFits (sPut a n x) :=
  agentFits_ite fits (agentFits_ite fits (agentFits_congr fits rfl))

theorem agentFits_vPut {a : Agent} {n : Nat} {f : Nat → Option Word} (h : AgentFits a) : AgentFits (vPut a n f) :=
  agentFits_congr h rfl

theorem agentFits_regPut {a : Agent} {r : Nat} {f : Nat → Option Word} (fits : AgentFits a) : AgentFits (regPut a r f) := by
  unfold regPut
  refine agentFits_ite (agentFits_vPut fits) ?_
  split
  · exact fits
  · exact agentFits_sPut fits

theorem agentFits_wrN {n : Nat} {a : Agent} {r : Nat} {f : Nat → Option Nat} (fits : AgentFits a) : AgentFits (wrN a r n f) := by
  induction n generalizing a r f with
  | zero => exact fits
  | succ n ih => exact ih (agentFits_regPut fits)

theorem agentFits_wrLanes {a : Agent} {i : Instr} {d : Reg} {n : Nat} {f : Nat → Nat} (fits : AgentFits a) : AgentFits (wrLanes a i d n f)
   :=
  agentFits_wrN fits

theorem agentFits_wrFlags {a : Agent} {i : Instr} {d : Reg} {n : Nat} {f : Nat → Nat × Word} (fits : AgentFits a) :
    AgentFits (wrFlags a i d n f) :=
  agentFits_congr (agentFits_wrLanes fits) rfl

/-! ### Access to the parts of the state -/

theorem maskInv_marked {s : State} (h : MaskInv s) : MaskInv s.marked :=
  maskInv_of_agents h rfl

theorem agentFits_unchosen {a : Agent} (h : AgentFits a) : AgentFits a.unchosen :=
  agentFits_congr h rfl

theorem agentFits_heldBack {a : Agent} (h : AgentFits a) : AgentFits a.heldBack :=
  agentFits_congr h rfl

theorem maskInv_setCore {s : State} {c : Nat} {x : Core} (h : MaskInv s) : MaskInv (s.setCore c x) :=
  maskInv_of_agents h rfl

theorem maskInv_setGrove {s : State} {g : Nat} {x : Grove} (h : MaskInv s) : MaskInv (s.setGrove g x) :=
  maskInv_of_agents h rfl

theorem maskInv_setDie {s : State} {d : Nat} {x : Die} (h : MaskInv s) : MaskInv (s.setDie d x) :=
  maskInv_of_agents h rfl

/-! ### Indeterminate values (R9) -/

theorem maskInv_used {s : State} {n : Nat} (h : MaskInv s) : MaskInv (s.used n) :=
  maskInv_of_agents h rfl

theorem maskInv_scrambleReg {s : State} {k r : Nat} {m : Mask} (h : MaskInv s) : MaskInv (scrambleReg s k r m) :=
  maskInv_used (maskInv_setAgent h (agentFits_regPut (agentFits_agent h)))

theorem maskInv_scrambleRegs {s : State} {k : Nat} {rs : List Nat} {m : Mask} (h : MaskInv s) : MaskInv (scrambleRegs s k rs m) :=
  maskInv_foldl (fun _ _ h1 => maskInv_scrambleReg h1) h

/-! ### The growth-ring record and interrupts -/

theorem maskInv_logEvent {s : State} {code source asid : Nat} {detail : List Byte} (h : MaskInv s) :
    MaskInv (logEvent s code source asid detail) :=
  maskInv_ite (maskInv_of_agents h rfl) (maskInv_of_agents h rfl)

theorem maskInv_raiseMsix {s : State} {v : Nat} (h : MaskInv s) : MaskInv (raiseMsix s v) :=
  maskInv_of_agents h rfl

/-! ### Address spaces and translation (R313 to R317) -/

theorem maskInv_fillTlb {s : State} {unit asid va : Nat} (h : MaskInv s) : MaskInv (fillTlb s unit asid va) := by
  unfold fillTlb
  split
  · exact h
  · exact maskInv_ite h (maskInv_of_agents h rfl)

theorem maskInv_fillTlbs {s : State} {unit asid : Nat} {vas : List Nat} (h : MaskInv s) : MaskInv (fillTlbs s unit asid vas) :=
  maskInv_foldl (fun _ _ h1 => maskInv_fillTlb h1) h

/-! ### Memory at its homes -/

theorem maskInv_writeHome {s : State} {bytes : Tab Byte} (h : MaskInv s) : MaskInv (writeHome s bytes) :=
  maskInv_of_agents h rfl

theorem maskInv_recallLine {s : State} {asid pa but : Nat} (h : MaskInv s) : MaskInv (recallLine s asid pa but) := by
  unfold recallLine
  split
  · exact h
  · extract_lets
    refine maskInv_ite (maskInv_of_agents (maskInv_of_agents h rfl) rfl) ?_
    split
    · exact maskInv_sendToAll (maskInv_of_agents h rfl)
    · exact maskInv_foldl (fun _ _ h2 => maskInv_sendOp h2) (maskInv_of_agents h rfl)

theorem maskInv_spoilObjects {s : State} {bytes : Tab Byte} (h : MaskInv s) : MaskInv (spoilObjects s bytes).1 := by
  unfold spoilObjects
  extract_lets hit
  split
  · exact h
  · exact maskInv_used h

theorem maskInv_countForks {before s : State} {bytes : Tab Byte} (h : MaskInv s) : MaskInv (countForks before s bytes) :=
  maskInv_of_agents h rfl

theorem maskInv_writeShared {s : State} {asid : Nat} {bytes : Tab Byte} (h : MaskInv s) : MaskInv (writeShared s asid bytes) := by
  unfold writeShared
  extract_lets before busy later t
  have ht : MaskInv t := maskInv_writeHome h
  exact maskInv_ite (maskInv_countForks ht)
    (maskInv_countForks (maskInv_foldl (fun _ _ h => maskInv_recallLine h) (maskInv_of_agents ht rfl)))

theorem maskInv_writeLocal {s : State} {asid : Nat} {bytes : Tab Byte} (h : MaskInv s) : MaskInv (writeLocal s asid bytes) :=
  maskInv_writeShared (maskInv_spoilObjects h)

theorem maskInv_cutOff {s : State} {port : Nat} {bytes : Tab Byte} (h : MaskInv s) : MaskInv (cutOff s port bytes) :=
  maskInv_ite h (maskInv_of_agents h rfl)

theorem maskInv_pushHeld {s : State} {k asid ln : Nat} (h : MaskInv s) : MaskInv (pushHeld s k asid ln) :=
  maskInv_ite h (maskInv_ite (maskInv_sendOp (maskInv_of_agents h rfl)) (maskInv_sendOp h))

theorem maskInv_observeCovers {s : State} {k : Nat} {hit : Nat → Nat → Bool} (h : MaskInv s) : MaskInv (observeCovers s k hit) :=
  maskInv_of_agents h rfl

theorem maskInv_placeAway {s : State} {k asid : Nat} {away : Tab Byte} (h : MaskInv s) : MaskInv (placeAway s k asid away) :=
  maskInv_foldl (fun _ _ h1 => maskInv_pushHeld h1) (maskInv_of_agents h rfl)

theorem maskInv_placeFrom {s : State} {port k asid : Nat} {bytes : Tab Byte} (h : MaskInv s) : MaskInv (placeFrom s port k asid bytes) :=
  maskInv_ite (maskInv_of_agents (maskInv_writeLocal (maskInv_cutOff h)) rfl) (maskInv_placeAway (maskInv_writeLocal (maskInv_cutOff h)))

theorem maskInv_placeHome {s : State} {k asid : Nat} {bytes : Tab Byte} (h : MaskInv s) : MaskInv (placeHome s k asid bytes) :=
  maskInv_placeFrom h

theorem maskInv_pushWhere {s : State} {g k asid : Nat} {p : Nat → Bool} (h : MaskInv s) : MaskInv (pushWhere s g k asid p) := by
  unfold pushWhere
  extract_lets x t bad u
  have ht : MaskInv t := maskInv_placeFrom h
  have hu : MaskInv u := maskInv_of_agents ht rfl
  exact maskInv_setGrove hu

theorem maskInv_pushStaging {s : State} {g k asid : Nat} (h : MaskInv s) : MaskInv (pushStaging s g k asid) :=
  maskInv_pushWhere h

theorem maskInv_pushAll {s : State} {k asid : Nat} (h : MaskInv s) : MaskInv (pushAll s k asid) :=
  maskInv_foldl (fun _ _ h1 => maskInv_pushStaging h1) h

/-! ### Memory as an agent observes it (R223, R226, R227) -/

theorem agentFits_watchBundle {a : Agent} {e : WatchEntry} (fits : AgentFits a) : AgentFits (watchBundle a e) := by
  unfold watchBundle
  refine agentFits_ite fits ?_
  refine agentFits_ite (agentFits_congr fits rfl) ?_
  split
  · exact fits
  · exact agentFits_congr fits rfl

theorem agentFits_observeLines {s : State} {a : Agent} {lines : List Nat} (fits : AgentFits a) : AgentFits (observeLines s a lines) :=
  agentFits_ite fits (agentFits_congr (agentFits_foldl (fun _ _ fits1 => agentFits_watchBundle fits1) fits) rfl)

theorem agentFits_noteReads {s : State} {a : Agent} {locs : List Nat} (fits : AgentFits a) : AgentFits (noteReads s a locs) :=
  agentFits_congr (agentFits_observeLines fits) rfl

theorem agentFits_storeBytes {a : Agent} {cells : List Host.Cell} (h : AgentFits a) : AgentFits (storeBytes a cells) :=
  agentFits_congr h rfl

/-! ### Closes and opens (R224, R226, R228, R229) -/

theorem maskInv_dropViews {s : State} {k : Nat} {bytes : Tab Byte} (h : MaskInv s) : MaskInv (dropViews s k bytes) :=
  maskInv_of_agents h rfl

theorem maskInv_supersede {s : State} {k num : Nat} {bytes : Tab Byte} (h : MaskInv s) : MaskInv (supersede s k num bytes) :=
  maskInv_dropViews (maskInv_modAgent h (fun _ fits => agentFits_congr fits rfl))

theorem maskInv_flushWhere {p : Nat → Bool} {s : State} {j : Nat} (h : MaskInv s) : MaskInv (flushWhere p s j) :=
  maskInv_dropViews (maskInv_modAgent (maskInv_placeHome h) (fun _ fits => agentFits_congr fits rfl))

theorem maskInv_settleOrphan {s : State} {e : Nat × Agent} (h : MaskInv s) : MaskInv (settleOrphan s e) :=
  maskInv_of_agents (maskInv_foldl (fun _ _ h1 => maskInv_placeFrom h1) h) rfl

theorem maskInv_settleOrphans {s : State} (h : MaskInv s) : MaskInv (settleOrphans s) :=
  maskInv_foldl (fun _ _ h1 => maskInv_settleOrphan h1) h

theorem maskInv_carryClosed {s : State} {k asid : Nat} (h : MaskInv s) : MaskInv (carryClosed s k asid) :=
  maskInv_pushAll (maskInv_foldl (fun _ _ h1 => maskInv_flushWhere h1) (maskInv_settleOrphans h))

theorem maskInv_placeClose {s : State} {k : Nat} {c : Close} (h : MaskInv s) : MaskInv (placeClose s k c) :=
  maskInv_ite (maskInv_setGrove (maskInv_of_agents (maskInv_carryClosed h) rfl))
    (maskInv_foldl (fun _ _ h1 => maskInv_pushHeld h1) (maskInv_placeHome (maskInv_carryClosed h)))

theorem maskInv_launchClose {s : State} {k : Nat} {c : Close} (h : MaskInv s) : MaskInv (launchClose s k c) :=
  maskInv_ite h (maskInv_dropViews (maskInv_setAgent (maskInv_placeClose h) (agentFits_congr (agentFits_agent (maskInv_placeClose h)) rfl)))

theorem maskInv_settleFirst {s : State} {k : Nat} (h : MaskInv s) : MaskInv (settleFirst s k) := by
  unfold settleFirst
  split
  · exact h
  · exact maskInv_ite (maskInv_launchClose h)
      (maskInv_setAgent (maskInv_launchClose h) (agentFits_congr (agentFits_agent (maskInv_launchClose h)) rfl))

theorem maskInv_settleCloses {s : State} {k sc : Nat} (h : MaskInv s) : MaskInv (settleCloses s k sc) :=
  maskInv_foldl (fun _ _ h1 => maskInv_foldl (fun _ _ h2 => maskInv_launchClose h2) h1) (maskInv_settleOrphans h)

theorem maskInv_openPhase {s : State} {k sc : Nat} (h : MaskInv s) : MaskInv (openPhase s k sc) :=
  maskInv_setAgent (maskInv_observeCovers (maskInv_settleCloses h))
    (agentFits_congr (agentFits_agent (maskInv_observeCovers (maskInv_settleCloses h))) rfl)

theorem maskInv_wakeAgent {s : State} {k : Nat} (h : MaskInv s) : MaskInv (wakeAgent s k) :=
  maskInv_ite (maskInv_openPhase (maskInv_setAgent h (agentFits_congr (agentFits_agent h) rfl)))
    (maskInv_setAgent h (agentFits_congr (agentFits_agent h) rfl))

theorem maskInv_deliverWake {s : State} {grid : Nat} {wt : Nat × Nat} (h : MaskInv s) : MaskInv (deliverWake s grid wt) :=
  maskInv_foldl (fun _ _ h1 => maskInv_wakeAgent h1) h

theorem maskInv_completeClose {s : State} {k : Nat} (h : MaskInv s) : MaskInv (completeClose s k) := by
  unfold completeClose
  split
  · exact h
  · extract_lets
    refine maskInv_ite (maskInv_settleFirst h) ?_
    split
    · exact maskInv_settleFirst h
    · exact maskInv_deliverWake (maskInv_settleFirst h)

theorem maskInv_issueClose {s : State} {k sc : Nat} {wake : Option (Nat × Nat)} (h : MaskInv s) : MaskInv (issueClose s k sc wake) :=
  maskInv_ite (maskInv_setAgent h (agentFits_congr (agentFits_agent h) rfl)) (maskInv_setAgent h (agentFits_congr (agentFits_agent h) rfl))

theorem maskInv_closeNow {s : State} {k sc : Nat} (h : MaskInv s) : MaskInv (closeNow s k sc) :=
  maskInv_completeClose (maskInv_issueClose h)

/-! ### The spilled part of a mask stack, as memory (R30, R31) -/

theorem agentFits_leaveBytes {a : Agent} {n : Nat} {e : MaskEntry} (h : AgentFits a) : AgentFits (leaveBytes a n e) :=
  agentFits_congr (b := { a with spill := _ }) h rfl

theorem agentFits_spoilWhere {a : Agent} {hit : Nat → Bool} (h : AgentFits a) : AgentFits (spoilWhere a hit) := by
  have same := sameButSpill_spoilWhere a hit
  obtain ⟨mask, entries⟩ := agentFits_iff.mp h
  have kind : (spoilWhere a hit).kind = a.kind := (congrArg Agent.kind same :)
  have lanes : (spoilWhere a hit).nlanes = a.nlanes := (congrArg Agent.nlanes same :)
  have hmask : (spoilWhere a hit).mask = a.mask := (congrArg Agent.mask same :)
  have hstack : (spoilWhere a hit).stack = a.stack := (congrArg Agent.stack same :)
  have hspilled : (spoilWhere a hit).spilled =
      (a.spilled.reverse.zipIdx.map (fun e => if hit e.2 then { e.1 with spoilt := true } else e.1)).reverse := rfl
  rw [agentFits_iff, hmask, hstack, hspilled]
  refine ⟨maskFits_congr kind lanes mask, fun e he => ?_⟩
  obtain he | he := List.mem_append.mp he
  · obtain ⟨ho, halt⟩ := entries e (List.mem_append_left _ he)
    exact ⟨maskFits_congr kind lanes ho, maskFits_congr kind lanes halt⟩
  · obtain ⟨x, hx, rfl⟩ := List.mem_map.mp (List.mem_reverse.mp he)
    obtain ⟨ho, halt⟩ := entries x.1 (List.mem_append_right _ (List.mem_reverse.mp (List.fst_mem_of_mem_zipIdx hx)))
    split
    · exact ⟨maskFits_congr kind lanes ho, maskFits_congr kind lanes halt⟩
    · exact ⟨maskFits_congr kind lanes ho, maskFits_congr kind lanes halt⟩

theorem agentFits_spoilOwn {a : Agent} {vas : List Nat} (fits : AgentFits a) : AgentFits (spoilOwn a vas) := by
  unfold spoilOwn
  extract_lets b
  have h : AgentFits b := agentFits_spoilWhere fits
  exact agentFits_congr h rfl

theorem agentFits_spoilAt {s : State} {a : Agent} {locs : List Nat} (fits : AgentFits a) : AgentFits (spoilAt s a locs) :=
  agentFits_spoilWhere fits

theorem maskInv_numberWrite {s : State} {locs : List Nat} (h : MaskInv s) : MaskInv (numberWrite s locs) :=
  maskInv_of_agents h rfl

theorem maskInv_touchWritten {s : State} {k : Nat} {locs : List Nat} (h : MaskInv s) : MaskInv (touchWritten s k locs) := by
  refine maskInv_ite (maskInv_of_agents h rfl) (maskInv_map h rfl (fun e => ?_) (fun e fits => ?_))
  · split <;> rfl
  · split
    · exact fits
    · exact agentFits_spoilAt fits

theorem maskInv_softwareWrote {s : State} {k : Nat} {locs : List Nat} (h : MaskInv s) : MaskInv (softwareWrote s k locs) :=
  maskInv_touchWritten (maskInv_numberWrite h)

theorem maskInv_softwareWroteAt {s : State} {k code : Nat} {locs : List Nat} (h : MaskInv s) : MaskInv (softwareWroteAt s k code locs) :=
  maskInv_touchWritten (maskInv_of_agents h rfl)

/-! ### Strong accesses (R197, R200, R231, R233) -/

theorem maskInv_flushClosed {s : State} {k asid line : Nat} (h : MaskInv s) : MaskInv (flushClosed s k asid line) :=
  maskInv_foldl (fun _ _ h1 => maskInv_flushWhere h1) (maskInv_settleOrphans (maskInv_foldl (fun _ _ h1 => maskInv_pushWhere h1) h))

theorem maskInv_flushLine {s : State} {k loc : Nat} (h : MaskInv s) : MaskInv (flushLine s k loc) :=
  maskInv_flushClosed h

theorem maskInv_flushAll {s : State} {asid loc : Nat} (h : MaskInv s) : MaskInv (flushAll s asid loc) :=
  maskInv_flushClosed h

theorem maskInv_giveWay {s : State} {k loc n num : Nat} (h : MaskInv s) : MaskInv (giveWay s k loc n num) :=
  maskInv_modAgent h (fun _ fits => agentFits_congr fits rfl)

theorem maskInv_homeWrite {s : State} {k asid loc n x num : Nat} (h : MaskInv s) : MaskInv (homeWrite s k asid loc n x num) :=
  maskInv_dropViews (maskInv_giveWay (maskInv_writeLocal (maskInv_softwareWrote h)))

/-! ### Taking a trap, and returning (R10, R328, R332) -/

theorem agentFits_trapAgent {vec : Nat} {c : Cause} {addr : Nat} {a : Agent} (h : AgentFits a) : AgentFits (trapAgent vec c addr a) :=
  agentFits_congr h rfl

theorem maskInv_takeTrap {s : State} {k : Nat} {c : Cause} {addr : Nat} (h : MaskInv s) : MaskInv (takeTrap s k c addr) :=
  maskInv_marked (maskInv_setAgent h (agentFits_trapAgent (agentFits_agent h)))

theorem agentFits_trapReturn {a : Agent} (h : AgentFits a) : AgentFits (trapReturn a) :=
  agentFits_congr h rfl

/-! ### Windows (R39 to R43) -/

theorem agentFits_waitFor {a : Agent} {es : List LAEntry} (fits : AgentFits a) : AgentFits (waitFor a es) :=
  agentFits_ite (agentFits_congr fits rfl) (agentFits_unchosen fits)

theorem agentFits_endWindows {es : List LAEntry} {a : Agent} (h : AgentFits a) : AgentFits (endWindows es a) :=
  agentFits_congr h rfl

theorem maskInv_looseSent {s : State} {tag : Nat} (h : MaskInv s) : MaskInv (looseSent s tag) := by
  unfold looseSent
  split
  · exact h
  · exact maskInv_used (maskInv_of_agents h rfl)

/-! ### Issue (R22, R36, R39, R62, R73) -/

theorem agentFits_yieldTo {a : Agent} {js : List Nat} (h : AgentFits a) : AgentFits (a.yieldTo js) :=
  agentFits_congr h rfl

theorem maskInv_yieldAgent {s : State} {k : Nat} (h : MaskInv s) : MaskInv (yieldAgent s k) :=
  maskInv_setAgent h (agentFits_yieldTo (agentFits_agent h))

theorem agentFits_pastIssue {a : Agent} {la : List LAEntry} {pc : DWord} (h : AgentFits a) : AgentFits (a.pastIssue la pc) :=
  agentFits_congr h rfl

theorem agentFits_heldAtIssue {a : Agent} (h : AgentFits a) : AgentFits a.heldAtIssue :=
  agentFits_congr h rfl

theorem maskInv_disturb {k : Nat} {a : Agent} {s : State} {part : List Nat × List Nat} (h : MaskInv s) : MaskInv (disturb k a s part) :=
  maskInv_foldl (fun _ _ h1 => maskInv_looseSent h1) (maskInv_foldl (fun _ _ h1 => maskInv_used (maskInv_homeWrite h1))
    (maskInv_ite h (maskInv_scrambleRegs h)))

theorem maskInv_writeEntry {s : State} {k : Nat} {e : LAEntry} (h : MaskInv s) : MaskInv (writeEntry s k e) :=
  maskInv_used (maskInv_setAgent h (agentFits_congr (agentFits_wrN (agentFits_agent h)) rfl))

theorem maskInv_writeEnded {s : State} {k : Nat} {la : List LAEntry} (h : MaskInv s) : MaskInv (writeEnded s k la) :=
  maskInv_foldl (fun _ _ h1 => maskInv_writeEntry h1) h

theorem maskInv_finish {i : Instr} {old s : State} {pc : DWord} {new : List LAEntry} (h1 : MaskInv s) : MaskInv (finish i old s pc new) :=
  maskInv_ite
    (maskInv_yieldAgent
    (maskInv_foldl (fun _ _ h2 => maskInv_scrambleRegs h2)
    (maskInv_writeEnded
    (maskInv_foldl (fun _ _ h2 => maskInv_disturb h2) (maskInv_marked (maskInv_setAgent h1 (agentFits_pastIssue (agentFits_agent h1))))))))
    (maskInv_foldl (fun _ _ h2 => maskInv_scrambleRegs h2)
    (maskInv_writeEnded
    (maskInv_foldl (fun _ _ h2 => maskInv_disturb h2) (maskInv_marked (maskInv_setAgent h1 (agentFits_pastIssue (agentFits_agent h1)))))))

theorem maskInv_finishHold {i : Instr} {s : State} (h : MaskInv s) : MaskInv (finishHold i s) :=
  maskInv_ite (maskInv_yieldAgent (maskInv_marked (maskInv_setAgent h (agentFits_heldAtIssue (agentFits_agent h)))))
    (maskInv_marked (maskInv_setAgent h (agentFits_heldAtIssue (agentFits_agent h))))

theorem agentFits_notYet {s : State} {a b : Agent} {i : Instr} (h : AgentFits a) (e : notYet s a i = some b) : AgentFits b := by
  unfold notYet at e
  split_ifs at e <;> obtain rfl := Option.some.inj e
  · exact h
  · exact agentFits_waitFor h
  · exact agentFits_waitFor (agentFits_endWindows h)
  · exact agentFits_unchosen h

theorem agentFits_waitAt {i : Instr} {a : Agent} (fits : AgentFits a) : AgentFits (Agent.waitAt i a) := by
  unfold Agent.waitAt
  split
  · exact agentFits_unchosen fits
  · exact agentFits_unchosen fits
  · exact agentFits_unchosen fits
  · exact agentFits_heldBack fits

theorem agentFits_reported {a : Agent} {r : Cause × Nat} (h : AgentFits a) : AgentFits (a.reported r) :=
  agentFits_congr h rfl

theorem agentFits_earlyTrap {s : State} {a b : Agent} {i : Instr} {c : Cause} {addr : Nat} (h : AgentFits a)
    (e : earlyTrap s a i = some (b, c, addr)) : AgentFits b := by
  unfold earlyTrap at e
  split at e
  · cases e
    exact agentFits_congr h rfl
  · split at e
    · cases e
      exact h
    · split at e
      · cases e
        exact agentFits_reported h
      · split at e
        · cases e
          exact h
        · cases e

theorem actFits_reporting {i : Instr} {s : State} {a : Agent} {x : Act} (h : MaskInv s) (fits : AgentFits a) (act : ActFits x) :
    ActFits (reporting i s a x) := by
  unfold reporting
  split
  · exact act
  · exact maskInv_setMe h (agentFits_reported fits)
  · exact act

/-- However an instruction issues, fits are kept if its own effect keeps them. -/
theorem outcomeFits_issue {i : Instr} {s : State} {body : State → Agent → Act} (h : MaskInv s)
    (act : ∀ s a, MaskInv s → AgentFits a → ActFits (body s a)) : OutcomeFits (issue i s body) := by
  unfold issue
  split
  · trivial
  · rename_i a ha
    have fits := agentFits_find h ha
    split
    · rename_i b hb
      exact maskInv_setMe h (agentFits_notYet fits hb)
    · split
      · rename_i b c addr hb
        exact maskInv_takeTrap (maskInv_setMe h (agentFits_earlyTrap fits hb))
      · have done := actFits_reporting (i := i) h fits (act s a h fits)
        split <;> rename_i hx <;> rw [hx] at done
        · exact maskInv_finish done
        · exact maskInv_finish done
        · exact maskInv_finish done
        · exact maskInv_finishHold done
        · exact maskInv_marked done
        · exact maskInv_marked done
        · exact maskInv_takeTrap h
        · exact maskInv_takeTrap done
        · exact maskInv_setMe done (agentFits_waitAt (agentFits_me done))

theorem actFits_holdOnce {a : Agent} {s : State} (h : MaskInv s) : ActFits (holdOnce a s) :=
  actFits_ite h h

theorem actFits_onAgent {f : Agent → Agent} {s : State} {a : Agent} (fits : ∀ a, AgentFits a → AgentFits (f a)) (h : MaskInv s)
    (ha : AgentFits a) : ActFits (onAgent f s a) :=
  maskInv_setMe h (fits a ha)

theorem maskInv_scratchWrite {s : State} {g addr : Nat} {bytes : List Byte} (h : MaskInv s) : MaskInv (scratchWrite s g addr bytes) :=
  maskInv_of_agents h rfl

/-! ### Versions at a home (R239 to R241, R243) -/

theorem maskInv_commitVersion {s : State} {asid ident line : Nat} (h : MaskInv s) : MaskInv (commitVersion s asid ident line) := by
  unfold commitVersion
  split
  · exact h
  · exact maskInv_of_agents (maskInv_writeLocal h) rfl

theorem maskInv_originCommitted {s : State} {ident : Nat} (h : MaskInv s) : MaskInv (originCommitted s ident).1 := by
  unfold originCommitted
  split
  · exact h
  · split_ifs
    · exact h
    · exact h
    · exact maskInv_used h

theorem maskInv_resolveLine {s : State} {asid line : Nat} (h : MaskInv s) : MaskInv (resolveLine s asid line) := by
  unfold resolveLine
  split
  · exact h
  · exact maskInv_ite (maskInv_commitVersion (maskInv_originCommitted h)) (maskInv_originCommitted h)

theorem maskInv_resolveEngine {s : State} {asid : Nat} {locs : List Nat} (h : MaskInv s) : MaskInv (resolveEngine s asid locs) :=
  maskInv_foldl (fun _ _ h1 => maskInv_resolveLine h1) h

theorem maskInv_resolveReads {s : State} {a : Agent} {locs : List Nat} (h : MaskInv s) : MaskInv (resolveReads s a locs) :=
  maskInv_foldl (fun _ _ h1 => maskInv_ite (maskInv_commitVersion h1) (maskInv_ite (maskInv_resolveLine h1) h1)) h

/-! ### Ordinary reads by an agent at issue: codebooks, group tables, descriptors -/

theorem actFits_failRead {s : State} {a : Agent} {e : ReadFail} (h : MaskInv s) (fits : AgentFits a) : ActFits (failRead s a e) :=
  actFits_ite trivial (maskInv_setMe h (agentFits_congr fits rfl))

theorem maskInv_fetchLine {s : State} {asid loc : Nat} {why : SentFor} (h : MaskInv s) : MaskInv (fetchLine s asid loc why) :=
  maskInv_ite h (maskInv_sendOp h)

theorem maskInv_fetchIssue {s : State} {a : Agent} {x : Nat} (h : MaskInv s) : MaskInv (fetchIssue s a x) :=
  maskInv_ite (maskInv_resolveReads h) (maskInv_fetchLine h)

theorem maskInv_readUsed {s : State} {locs : List Nat} (h : MaskInv s) : MaskInv (readUsed s locs) :=
  maskInv_ite h (maskInv_used h)

theorem agentFits_readNoted {s : State} {a : Agent} {locs : List Nat} (fits : AgentFits a) : AgentFits (readNoted s a locs) :=
  agentFits_noteReads fits

theorem actFits_withRead {s : State} {a : Agent} {r : Except ReadFail (List Byte × List Nat)} {go : State → Agent → List Byte → Act}
    (h : MaskInv s) (fits : AgentFits a) (keep : ∀ (a : State) (a_1 : Agent) (a_2 : List Byte), MaskInv a → AgentFits a_1 → ActFits
    (go a a_1 a_2)) : ActFits (withRead s a r go) := by
  unfold withRead
  split
  · exact actFits_failRead h fits
  · split
    · exact maskInv_fetchIssue h
    · exact keep _ _ _ (maskInv_readUsed h) (agentFits_readNoted fits)

end Sys2Proof.Machine
end

section
/-! SUPPORT. What the instructions leave of the masks of teams (R24, R29, R115): structured divergence keeps them within the
team's lanes, every other instruction leaves them as they are. -/

namespace Sys2Proof.Machine

open Sys2Proof.Safety

/-! ### Branches (R53, R114) -/

theorem outcomeFits_execNop {f : FArgs} {s : State} (h : MaskInv s) : OutcomeFits (execNop f s) :=
  outcomeFits_issue h (fun _ _ h1 _ => h1)

theorem outcomeFits_execBra {f : FArgs} {s : State} (h : MaskInv s) : OutcomeFits (execBra f s) :=
  outcomeFits_issue h (fun _ _ h1 _ => actFits_ite h1 h1)

theorem outcomeFits_execBraL {x : LArgs} {s : State} (h : MaskInv s) : OutcomeFits (execBraL x s) :=
  outcomeFits_issue h (fun _ _ h1 _ => actFits_ite h1 h1)

theorem actFits_jumpTo {s : State} {t : Nat} (h : MaskInv s) : ActFits (jumpTo s t) :=
  actFits_ite trivial h

theorem outcomeFits_execBrx {f : FArgs} {s : State} (h : MaskInv s) : OutcomeFits (execBrx f s) :=
  outcomeFits_issue h (fun _ _ h1 _ => actFits_ite (actFits_jumpTo h1) h1)

theorem outcomeFits_execCall {f : FArgs} {s : State} (h : MaskInv s) : OutcomeFits (execCall f s) :=
  outcomeFits_issue h (fun _ _ h1 fits => actFits_ite (maskInv_setMe h1 (agentFits_sPut fits)) h1)

theorem outcomeFits_execRet {f : FArgs} {s : State} (h : MaskInv s) : OutcomeFits (execRet f s) :=
  outcomeFits_issue h (fun _ _ h1 _ => actFits_ite (actFits_jumpTo h1) h1)

/-! ### The mask stack (R29 to R31, R115) -/

theorem agentFits_withMask {a : Agent} {m : Mask} (h : AgentFits a) (fits : MaskFits a m) : AgentFits { a with mask := m } :=
  agentFits_iff.mpr ⟨fits, (agentFits_iff.mp h).2⟩

theorem agentFits_withStack {a b : Agent} {es sp : List MaskEntry} (h : AgentFits b) (kind : b.kind = a.kind) (lanes : b.nlanes = a.nlanes)
    (entries : ∀ e ∈ es ++ sp, EntryFits a e) : AgentFits { b with stack := es, spilled := sp } :=
  agentFits_iff.mpr ⟨(agentFits_iff.mp h).1, fun e he =>
    ⟨maskFits_congr kind lanes (entries e he).1, maskFits_congr kind lanes (entries e he).2⟩⟩

/-- A push keeps to the team's lanes; what it spills did. -/
theorem agentFits_pushEntry {a b : Agent} {e : MaskEntry} (h : AgentFits a) (fits : EntryFits a e) (hb : pushEntry a e = some b) :
    AgentFits b ∧ b.kind = a.kind ∧ b.nlanes = a.nlanes := by
  obtain ⟨mask, entries⟩ := agentFits_iff.mp h
  unfold pushEntry at hb
  split at hb
  · obtain rfl := Option.some.inj hb
    refine ⟨agentFits_iff.mpr ⟨mask, fun x hx => ?_⟩, rfl, rfl⟩
    obtain rfl | hx := List.mem_cons.mp hx
    · exact fits
    · exact entries x hx
  · split at hb
    · rename_i none
      obtain rfl := Option.some.inj hb
      refine ⟨agentFits_iff.mpr ⟨mask, fun x hx => ?_⟩, rfl, rfl⟩
      obtain rfl | hx := List.mem_cons.mp hx
      · exact fits
      · exact entries x (List.mem_append_right _ hx)
    · rename_i old last
      split at hb
      · cases hb
      · obtain rfl := Option.some.inj hb
        refine ⟨agentFits_iff.mpr ⟨mask, fun x hx => ?_⟩, rfl, rfl⟩
        obtain hx | hx := List.mem_append.mp hx
        · obtain rfl | hx := List.mem_cons.mp hx
          · exact fits
          · exact entries x (List.mem_append_left _ (List.dropLast_subset _ hx))
        · obtain rfl | hx := List.mem_cons.mp hx
          · exact entries x (List.mem_append_left _ (List.mem_of_getLast? last))
          · exact entries x (List.mem_append_right _ hx)

theorem entryFits_refilled {s : State} {a : Agent} {e : MaskEntry} (fits : EntryFits a e) : EntryFits a (refilled s a e) := by
  unfold refilled
  split
  · exact ⟨maskFits_teamLanes, maskFits_teamLanes⟩
  · exact fits

/-- The latest spilled entry brought back in place of an empty hardware stack. -/
theorem agentFits_refillTop {s : State} {a : Agent} {e : MaskEntry} {es : List MaskEntry} (fits : AgentFits a) (hs : a.spilled = e :: es) :
    AgentFits { (if e.spoilt then a else leaveBytes a es.length e) with stack := [refilled s a e], spilled := es } := by
  obtain ⟨-, entries⟩ := agentFits_iff.mp fits
  refine agentFits_withStack (a := a) (agentFits_ite fits (agentFits_leaveBytes fits)) ?_ ?_ fun x hx => ?_
  · split
    · rfl
    · unfold leaveBytes
      rfl
  · split
    · rfl
    · unfold leaveBytes
      rfl
  · obtain rfl | hx := List.mem_cons.mp hx
    · exact entryFits_refilled (entries e (by simp [hs]))
    · exact entries x (by simp [hs, show x ∈ es from hx])

theorem maskInv_popEntry {s : State} {a : Agent} (h : MaskInv s) (fits : AgentFits a) : MaskInv (popEntry s a) := by
  unfold popEntry
  split
  · rename_i e es _ hs
    exact maskInv_used (maskInv_setMe h (agentFits_refillTop fits hs))
  · refine maskInv_setMe h (agentFits_withStack (a := a) fits rfl rfl fun x hx => (agentFits_iff.mp fits).2 x ?_)
    obtain hx | hx := List.mem_append.mp hx
    · exact List.mem_append_left _ (List.mem_of_mem_drop hx)
    · exact List.mem_append_right _ hx

theorem entryFits_topEntry {s : State} {a : Agent} {e : MaskEntry} (h : AgentFits a) (he : topEntry s a = some e) : EntryFits a e := by
  obtain ⟨-, entries⟩ := agentFits_iff.mp h
  unfold topEntry at he
  split at he
  · rename_i x xs hs
    exact entries e (by simp [hs, ← Option.some.inj he])
  · obtain ⟨x, hx, rfl⟩ := Option.map_eq_some_iff.mp he
    exact entryFits_refilled (entries x (List.mem_append_right _ (List.mem_of_mem_head? hx)))

theorem setTop_kind (a : Agent) (kind : Region) : (a.setTop kind).kind = a.kind := by
  unfold Agent.setTop
  split <;> rfl

theorem setTop_nlanes (a : Agent) (kind : Region) : (a.setTop kind).nlanes = a.nlanes := by
  unfold Agent.setTop
  split <;> rfl

theorem agentFits_setTop {a : Agent} {kind : Region} (h : AgentFits a) : AgentFits (a.setTop kind) := by
  obtain ⟨mask, entries⟩ := agentFits_iff.mp h
  unfold Agent.setTop
  split
  · rename_i sp e es hs
    refine agentFits_iff.mpr ⟨mask, fun x hx => ?_⟩
    obtain rfl | hx := List.mem_cons.mp hx
    · exact entries e (by simp [hs])
    · exact entries x (hs ▸ List.mem_cons_of_mem _ hx)
  · rename_i e es hk hs
    refine agentFits_iff.mpr ⟨mask, fun x hx => ?_⟩
    obtain hx | hx := List.mem_append.mp hx
    · exact entries x (List.mem_append_left _ hx)
    · obtain rfl | hx := List.mem_cons.mp hx
      · exact entries e (by simp [hs])
      · exact entries x (by simp [hs, hx])
  · exact h

theorem maskInv_popTop {s : State} {a : Agent} (h : MaskInv s) (fits : AgentFits a) : MaskInv (popTop s a) := by
  unfold popTop
  split
  · rename_i e es _ hs
    exact maskInv_popEntry (maskInv_used h) (agentFits_refillTop fits hs)
  · exact maskInv_popEntry h fits

theorem maskInv_topUsed {s : State} {a : Agent} (h : MaskInv s) : MaskInv (topUsed s a) :=
  maskInv_ite (maskInv_used h) h

theorem outcomeFits_execDivIf {f : FArgs} {s : State} (h : MaskInv s) : OutcomeFits (execDivIf f s) := by
  refine outcomeFits_issue h fun s a h fits => ?_
  obtain ⟨mask, -⟩ := agentFits_iff.mp fits
  extract_lets g
  split
  · trivial
  · rename_i b hb
    obtain ⟨fitsB, kind, lanes⟩ := agentFits_pushEntry fits (e := ⟨a.mask, a.mask &&& ~~~g, .ifArm, branchTarget a f, false⟩)
      ⟨mask, maskFits_and _ mask⟩ hb
    exact actFits_ite (maskInv_setMe h fitsB) (maskInv_setMe h (agentFits_withMask fitsB (maskFits_congr kind lanes (maskFits_and g mask))))

theorem outcomeFits_execDivElse {f : FArgs} {s : State} (h : MaskInv s) : OutcomeFits (execDivElse f s) := by
  refine outcomeFits_issue h fun s a h fits => ?_
  split
  · rename_i e he
    refine actFits_ite (actFits_ite ?_ ?_) h
    · exact maskInv_setMe (maskInv_topUsed h) (agentFits_setTop fits)
    · have top := agentFits_setTop (kind := .elseArm) fits
      have alt : MaskFits (a.setTop .elseArm) e.alt :=
        maskFits_congr (setTop_kind a _) (setTop_nlanes a _) (entryFits_topEntry fits he).2
      exact maskInv_setMe (maskInv_topUsed h) (agentFits_withMask top alt)
  · exact h

theorem outcomeFits_execDivJoin {f : FArgs} {s : State} (h : MaskInv s) : OutcomeFits (execDivJoin f s) := by
  refine outcomeFits_issue h fun s a h fits => ?_
  split
  · rename_i e he
    exact actFits_ite h (maskInv_popTop h (agentFits_withMask fits (entryFits_topEntry fits he).1))
  · exact h

theorem outcomeFits_execDivLoop {f : FArgs} {s : State} (h : MaskInv s) : OutcomeFits (execDivLoop f s) := by
  refine outcomeFits_issue h fun s a h fits => ?_
  obtain ⟨mask, -⟩ := agentFits_iff.mp fits
  extract_lets g
  refine actFits_ite h ?_
  split
  · trivial
  · rename_i b hb
    obtain ⟨fitsB, kind, lanes⟩ := agentFits_pushEntry fits (e := ⟨a.mask, 0, .loop, a.pc + 8, false⟩) ⟨mask, maskFits_zero⟩ hb
    exact maskInv_setMe h (agentFits_withMask fitsB (maskFits_congr kind lanes (maskFits_and g mask)))

theorem breakOut_fits {a : Agent} {leave : Mask} (fits : MaskFits a leave) : ∀ {es fs : List MaskEntry}, (∀ e ∈ es, EntryFits a e) →
    breakOut leave es = some fs → ∀ e ∈ fs, EntryFits a e
  | [], _, _, h => nomatch h
  | e :: es, fs, entries, h => by
    unfold breakOut at h
    obtain ⟨ho, halt⟩ := entries e List.mem_cons_self
    have rest : ∀ x ∈ es, EntryFits a x := fun x hx => entries x (List.mem_cons_of_mem _ hx)
    intro x hx
    split at h
    · obtain rfl := Option.some.inj h
      obtain rfl | hx := List.mem_cons.mp hx
      · exact ⟨ho, maskFits_or halt fits⟩
      · exact rest x hx
    · obtain ⟨ys, hys, rfl⟩ := Option.map_eq_some_iff.mp h
      obtain rfl | hx := List.mem_cons.mp hx
      · exact ⟨maskFits_and _ ho, maskFits_and _ halt⟩
      · exact breakOut_fits fits rest hys x hx

theorem outcomeFits_execDivBrk {f : FArgs} {s : State} (h : MaskInv s) : OutcomeFits (execDivBrk f s) := by
  refine outcomeFits_issue h fun s a h fits => ?_
  obtain ⟨mask, entries⟩ := agentFits_iff.mp fits
  extract_lets leave
  split
  · exact h
  · rename_i es he
    have out := breakOut_fits (maskFits_and _ mask) entries he
    refine maskInv_setMe h (agentFits_withStack (a := a) (agentFits_withMask fits (maskFits_and _ mask)) rfl rfl fun x hx => out x ?_)
    rwa [List.take_append_drop] at hx

theorem outcomeFits_execDivNext {f : FArgs} {s : State} (h : MaskInv s) : OutcomeFits (execDivNext f s) := by
  refine outcomeFits_issue h fun s a h fits => ?_
  obtain ⟨mask, -⟩ := agentFits_iff.mp fits
  split
  · rename_i e he
    refine actFits_ite (actFits_ite ?_ (actFits_ite trivial ?_)) h
    · exact maskInv_popTop h (agentFits_withMask fits (entryFits_topEntry fits he).1)
    · exact maskInv_setMe (maskInv_topUsed h) (agentFits_withMask fits (maskFits_and _ mask))
  · exact h

/-! ### End of a team, and yield (R117, R118) -/

theorem maskInv_dropAgent {s : State} {k : Nat} (h : MaskInv s) : MaskInv (dropAgent s k) :=
  maskInv_erase h rfl

theorem outcomeFits_execYieldTeam {f : FArgs} {s : State} (h : MaskInv s) : OutcomeFits (execYieldTeam f s) :=
  outcomeFits_issue h (fun _ _ h1 _ => actFits_ite (maskInv_yieldAgent h1) h1)

/-! ### Launch records (R15, R298 to R301) -/

theorem maskInv_addGrid {s : State} {key : Nat} {r : List Byte} {asid handle depth prio : Nat} {parent : Option (Nat × Nat × Nat)}
    {cmd producer : Option Nat} {view : Tab Byte} (h : MaskInv s) :
    MaskInv (addGrid s key r asid handle depth prio parent cmd producer view) :=
  maskInv_of_agents h rfl

/-! ### Operands of the block -/

theorem outcomeFits_alu {i : Instr} {s : State} {d : Reg} {n : Nat} {g : Agent → Nat → Nat} (h : MaskInv s) : OutcomeFits (alu i s d n g) :=
  outcomeFits_issue h (fun _ _ h1 fits => actFits_onAgent (fun _ fits1 => agentFits_wrLanes fits1) h1 fits)

theorem outcomeFits_aluFlags {i : Instr} {s : State} {d : Reg} {n : Nat} {g : Agent → Nat → Nat × Word} (h : MaskInv s) :
    OutcomeFits (aluFlags i s d n g) :=
  outcomeFits_issue h (fun _ _ h1 fits => actFits_onAgent (fun _ fits1 => agentFits_wrFlags fits1) h1 fits)

theorem outcomeFits_aluLong {i : Instr} {s : State} {d : Reg} {n : Nat} {srcs : List Reg} {g : Agent → Nat → Nat × Word} (h : MaskInv s) :
    OutcomeFits (aluLong i s d n srcs g) :=
  outcomeFits_issue h (fun _ _ h1 _ => h1)

/-! ### The instructions -/

theorem outcomeFits_execIadd {f : FArgs} {s : State} (h : MaskInv s) : OutcomeFits (execIadd f s) :=
  outcomeFits_alu h

theorem outcomeFits_execIsub {f : FArgs} {s : State} (h : MaskInv s) : OutcomeFits (execIsub f s) :=
  outcomeFits_alu h

theorem outcomeFits_execIadds {f : FArgs} {s : State} (h : MaskInv s) : OutcomeFits (execIadds f s) :=
  outcomeFits_aluFlags h

theorem outcomeFits_execImul {f : FArgs} {s : State} (h : MaskInv s) : OutcomeFits (execImul f s) :=
  outcomeFits_alu h

theorem outcomeFits_execImulh {f : FArgs} {s : State} (h : MaskInv s) : OutcomeFits (execImulh f s) :=
  outcomeFits_alu h

theorem outcomeFits_execImad {f : FArgs} {s : State} (h : MaskInv s) : OutcomeFits (execImad f s) :=
  outcomeFits_alu h

theorem outcomeFits_execIdp4 {f : FArgs} {s : State} (h : MaskInv s) : OutcomeFits (execIdp4 f s) :=
  outcomeFits_alu h

theorem outcomeFits_execIdiv {f : FArgs} {s : State} (h : MaskInv s) : OutcomeFits (execIdiv f s) :=
  outcomeFits_aluLong h

theorem outcomeFits_execIrem {f : FArgs} {s : State} (h : MaskInv s) : OutcomeFits (execIrem f s) :=
  outcomeFits_aluLong h

theorem outcomeFits_execImin {f : FArgs} {s : State} (h : MaskInv s) : OutcomeFits (execImin f s) :=
  outcomeFits_alu h

theorem outcomeFits_execImax {f : FArgs} {s : State} (h : MaskInv s) : OutcomeFits (execImax f s) :=
  outcomeFits_alu h

theorem outcomeFits_execIabs {f : FArgs} {s : State} (h : MaskInv s) : OutcomeFits (execIabs f s) :=
  outcomeFits_aluFlags h

theorem outcomeFits_execIneg {f : FArgs} {s : State} (h : MaskInv s) : OutcomeFits (execIneg f s) :=
  outcomeFits_aluFlags h

theorem outcomeFits_execIcmp {f : FArgs} {s : State} (h : MaskInv s) : OutcomeFits (execIcmp f s) :=
  outcomeFits_alu h

theorem outcomeFits_execAndB {f : FArgs} {s : State} (h : MaskInv s) : OutcomeFits (execAndB f s) :=
  outcomeFits_alu h

theorem outcomeFits_execOrB {f : FArgs} {s : State} (h : MaskInv s) : OutcomeFits (execOrB f s) :=
  outcomeFits_alu h

theorem outcomeFits_execXorB {f : FArgs} {s : State} (h : MaskInv s) : OutcomeFits (execXorB f s) :=
  outcomeFits_alu h

theorem outcomeFits_execAndn {f : FArgs} {s : State} (h : MaskInv s) : OutcomeFits (execAndn f s) :=
  outcomeFits_alu h

theorem outcomeFits_execNotB {f : FArgs} {s : State} (h : MaskInv s) : OutcomeFits (execNotB f s) :=
  outcomeFits_alu h

theorem outcomeFits_execShl {f : FArgs} {s : State} (h : MaskInv s) : OutcomeFits (execShl f s) :=
  outcomeFits_alu h

theorem outcomeFits_execShr {f : FArgs} {s : State} (h : MaskInv s) : OutcomeFits (execShr f s) :=
  outcomeFits_alu h

theorem outcomeFits_execSar {f : FArgs} {s : State} (h : MaskInv s) : OutcomeFits (execSar f s) :=
  outcomeFits_alu h

theorem outcomeFits_execRot {f : FArgs} {s : State} (h : MaskInv s) : OutcomeFits (execRot f s) :=
  outcomeFits_alu h

theorem outcomeFits_execBfx {f : FArgs} {s : State} (h : MaskInv s) : OutcomeFits (execBfx f s) :=
  outcomeFits_alu h

theorem outcomeFits_execBfi {f : FArgs} {s : State} (h : MaskInv s) : OutcomeFits (execBfi f s) :=
  outcomeFits_alu h

theorem outcomeFits_execPopc {f : FArgs} {s : State} (h : MaskInv s) : OutcomeFits (execPopc f s) :=
  outcomeFits_alu h

theorem outcomeFits_execClz {f : FArgs} {s : State} (h : MaskInv s) : OutcomeFits (execClz f s) :=
  outcomeFits_alu h

theorem outcomeFits_execCtz {f : FArgs} {s : State} (h : MaskInv s) : OutcomeFits (execCtz f s) :=
  outcomeFits_alu h

theorem outcomeFits_execBrev {f : FArgs} {s : State} (h : MaskInv s) : OutcomeFits (execBrev f s) :=
  outcomeFits_alu h

theorem outcomeFits_execSel {f : FArgs} {s : State} (h : MaskInv s) : OutcomeFits (execSel f s) :=
  outcomeFits_alu h

theorem outcomeFits_execMov {f : FArgs} {s : State} (h : MaskInv s) : OutcomeFits (execMov f s) :=
  outcomeFits_alu h

theorem outcomeFits_execMovi {f : FArgs} {s : State} (h : MaskInv s) : OutcomeFits (execMovi f s) :=
  outcomeFits_alu h

theorem outcomeFits_execLea {f : FArgs} {s : State} (h : MaskInv s) : OutcomeFits (execLea f s) :=
  outcomeFits_alu h

theorem outcomeFits_execMovw {x : LArgs} {s : State} (h : MaskInv s) : OutcomeFits (execMovw x s) :=
  outcomeFits_alu h

/-! ### The schedule of an all-to-all (R387) -/

theorem maskInv_setColl {s : State} {c : Nat} {x : Collective} (h : MaskInv s) : MaskInv (s.setColl c x) :=
  maskInv_of_agents h rfl

theorem maskInv_sendShards {s : State} {c : Nat} {x : Collective} {dest : Nat} {path : Nat × Nat} {first : Nat} {bs : List Byte}
    (h : MaskInv s) : MaskInv (sendShards s c x dest path first bs) :=
  maskInv_foldl (fun _ _ h1 => maskInv_sendVia h1) h

theorem maskInv_startSlot {s : State} {c : Nat} (h : MaskInv s) : MaskInv (startSlot s c) := by
  unfold startSlot
  extract_lets x r read done
  have hd : MaskInv done := maskInv_setColl h
  have hread {va n : Nat} {go : List Byte → State} (hgo : ∀ bs, MaskInv (go bs)) : MaskInv (read va n go) := by
    unfold read
    split
    · exact hgo _
    · exact maskInv_setColl h
    · exact maskInv_fetchLine h
  refine maskInv_ite h (maskInv_ite ?_ ?_)
  · exact hread fun _ => maskInv_foldl (fun _ _ h => maskInv_sendShards h) hd
  · split
    · exact hd
    · exact hread fun _ => maskInv_sendShards hd

theorem maskInv_forkCollective {s : State} {c : Nat} {x : Collective} (h : MaskInv s) : MaskInv (forkCollective s c x) :=
  maskInv_startSlot (maskInv_setColl h)

theorem maskInv_beginForks {s : State} (h : MaskInv s) : MaskInv (beginForks s) :=
  maskInv_foldl (fun _ _ h1 => maskInv_ite (maskInv_forkCollective h1) h1) h

/-! ### One strong access at a local home -/

theorem maskInv_noteStrong {s : State} {k loc n : Nat} (h : MaskInv s) : MaskInv (noteStrong s k loc n) :=
  maskInv_of_agents h rfl

theorem maskInv_strongFrom {s : State} {k asid loc n num : Nat} {f : Nat → Option Nat} (h : MaskInv s) :
    MaskInv (strongFrom s k asid loc n num f).s := by
  unfold strongFrom
  extract_lets u raced old t
  have hu : MaskInv u := maskInv_flushLine (maskInv_resolveReads h)
  have ht : MaskInv t := maskInv_noteStrong (maskInv_ite hu (maskInv_used hu))
  clear_value t u
  split
  · exact hu
  · split
    · exact hu
    · split
      · exact ht
      · exact maskInv_beginForks (maskInv_homeWrite ht)

theorem maskInv_strongAt {s : State} {k asid loc n : Nat} {f : Nat → Option Nat} (h : MaskInv s) : MaskInv (strongAt s k asid loc n f).s :=
  maskInv_strongFrom h

/-! ### One barrier operation at a local home (R246, R247, R254) -/

theorem maskInv_objectAct {s : State} {k asid loc : Nat} {op : BarOp} (h : MaskInv s) : MaskInv (objectAct s k asid loc op).s := by
  unfold objectAct
  extract_lets u raced old t
  have hu : MaskInv u := maskInv_flushLine (maskInv_resolveReads h)
  have ht : MaskInv t := maskInv_noteStrong (maskInv_ite hu (maskInv_used hu))
  clear_value t u
  split
  · exact hu
  · split
    · exact hu
    · split
      · exact ht
      · exact maskInv_dropViews (maskInv_giveWay (maskInv_writeShared (maskInv_softwareWrote ht)))

/-! ### Posted accesses -/

theorem maskInv_performPosted {s : State} {e : Nat} {p : Posted} (h : MaskInv s) : MaskInv (performPosted s e p) := by
  unfold performPosted
  extract_lets
  split
  · exact maskInv_numberWrite (maskInv_setCore (maskInv_of_agents h rfl))
  · exact maskInv_ite
      (maskInv_ite (maskInv_modAgent (maskInv_strongFrom (maskInv_of_agents h rfl)) (fun _ fits => agentFits_congr fits rfl))
      (maskInv_strongFrom (maskInv_of_agents h rfl)))
      (maskInv_ite (maskInv_sendOp (maskInv_giveWay (maskInv_of_agents (maskInv_flushClosed h) rfl))) (maskInv_flushClosed h))

theorem maskInv_drainPosted {s : State} {k : Nat} {p : PostedJob → Bool} (h : MaskInv s) : MaskInv (drainPosted s k p) :=
  maskInv_foldl (fun _ _ h1 => maskInv_performPosted h1) h

theorem maskInv_drainScratch {s : State} {k : Nat} (h : MaskInv s) : MaskInv (drainScratch s k) :=
  maskInv_drainPosted h

theorem maskInv_drainAll {s : State} {k : Nat} (h : MaskInv s) : MaskInv (drainAll s k) :=
  maskInv_drainPosted h

theorem maskInv_openJoin {s : State} {k : Nat} (h : MaskInv s) : MaskInv (openJoin s k) :=
  maskInv_openPhase (maskInv_drainAll h)

/-! ### Fault records (R320 to R324) -/

theorem maskInv_addFault {s : State} {r : FaultRec} (h : MaskInv s) : MaskInv (addFault s r) :=
  maskInv_of_agents h rfl

theorem actFits_heldFault {s : State} {a : Agent} {m : Miss} {va access : Nat} (h : MaskInv s) (fits : AgentFits a) :
    ActFits (heldFault s a m va access) :=
  actFits_ite trivial (maskInv_setMe (maskInv_addFault h) (agentFits_congr fits rfl))

/-! ### Room for versions (R242, R243) -/

theorem maskInv_addRefusal {s : State} {ident line : Nat} (h : MaskInv s) : MaskInv (addRefusal s ident line) :=
  maskInv_of_agents h rfl

theorem maskInv_dropRefusals {s : State} {ident : Nat} (h : MaskInv s) : MaskInv (dropRefusals s ident) :=
  maskInv_of_agents h rfl

/-! ### Placing the versions (R239, R378) -/

theorem maskInv_placeVersion {b : Bundle} {s : State} {ln : Nat} (h : MaskInv s) : MaskInv (placeVersion b s ln) :=
  maskInv_ite (maskInv_of_agents h rfl) (maskInv_addRefusal h)

theorem maskInv_placeVersions {s : State} {id : Nat} (h : MaskInv s) : MaskInv (placeVersions s id) := by
  unfold placeVersions
  split
  · exact h
  · exact maskInv_ite h
      (maskInv_of_agents
      (maskInv_ite
      (maskInv_dropRefusals (maskInv_foldl (fun _ _ h1 => maskInv_sendOps h1) (maskInv_foldl (fun _ _ h1 => maskInv_placeVersion h1) h)))
      (maskInv_foldl (fun _ _ h1 => maskInv_sendOps h1) (maskInv_foldl (fun _ _ h1 => maskInv_placeVersion h1) h))) rfl)

theorem maskInv_tellHome {id : Nat} {b : Bundle} {settle : Bool} {s : State} {ln : Nat} (h : MaskInv s) :
    MaskInv (tellHome id b settle s ln) :=
  maskInv_sendOp h

theorem maskInv_discardVersions {s : State} {id : Nat} {b : Bundle} (h : MaskInv s) : MaskInv (discardVersions s id b) :=
  maskInv_foldl (fun _ _ h1 => maskInv_tellHome h1) (maskInv_of_agents h rfl)

theorem maskInv_logWithdrawal {s : State} {b : Bundle} (h : MaskInv s) : MaskInv (logWithdrawal s b) :=
  maskInv_logEvent h

theorem maskInv_abandonBundle {s : State} {id ln : Nat} {b : Bundle} (h : MaskInv s) : MaskInv (abandonBundle s id ln b) := by
  unfold abandonBundle
  extract_lets t u
  have ht : MaskInv t := maskInv_dropRefusals (maskInv_discardVersions (maskInv_logWithdrawal h))
  have hu : MaskInv u := maskInv_of_agents ht rfl
  exact maskInv_modAgent hu fun _ fits => agentFits_congr fits rfl

theorem maskInv_publish {s : State} {id : Nat} (h : MaskInv s) : MaskInv (publish s id) := by
  unfold publish
  split
  · exact h
  · split
    · exact maskInv_abandonBundle h
    · exact maskInv_placeVersions (maskInv_of_agents h rfl)

theorem maskInv_republish {s : State} {k : Nat} (h : MaskInv s) : MaskInv (republish s k) :=
  maskInv_foldl (fun _ _ h1 => maskInv_publish h1) h

/-! ### Races with engines (R176, R180, R205, R291) -/

theorem maskInv_looseByte {t : Trace} {s : State} {b : Bool × Nat} (h : MaskInv s) : MaskInv (looseByte t s b) := by
  unfold looseByte
  extract_lets
  refine maskInv_ite (maskInv_used (maskInv_scratchWrite h)) ?_
  split
  · exact h
  · exact maskInv_used (maskInv_setGrove h)

theorem maskInv_joinCopy {s : State} {e : Nat × Trace} (h : MaskInv s) : MaskInv (joinCopy s e) :=
  maskInv_foldl (fun _ _ h1 => maskInv_looseByte h1) (maskInv_of_agents h rfl)

theorem maskInv_joinCopies {s : State} {p : Trace → Bool} (h : MaskInv s) : MaskInv (joinCopies s p) :=
  maskInv_foldl (fun _ _ h1 => maskInv_joinCopy h1) h

/-! ### Global loads -/

theorem maskInv_requestLines {s : State} {k asid token : Nat} {vaOf : Nat × Nat × Nat → Nat} {miss : List (Nat × Nat × Nat)}
    (h : MaskInv s) :
    MaskInv (requestLines s k asid token vaOf miss).1 := by
  unfold requestLines
  refine List.foldlRecOn (motive := fun r : State × List Nat => MaskInv r.1) _ _ h fun r hr ln _ => ?_
  exact maskInv_sendOp (maskInv_foldl (fun _ _ h => maskInv_sendOp h) hr)

theorem actFits_loadEntry {i : Instr} {d : Reg} {sz : Nat} {free : Nat → Bool} {s : State} {a : Agent} {ls : List (Nat × Nat × List Nat)}
    (h : MaskInv s) : ActFits (loadEntry i d sz free s a ls) :=
  maskInv_setMe (maskInv_ite (maskInv_used (maskInv_fillTlbs (maskInv_requestLines (maskInv_resolveReads (maskInv_drainPosted h)))))
    (maskInv_fillTlbs (maskInv_requestLines (maskInv_resolveReads (maskInv_drainPosted h)))))
    (agentFits_noteReads (agentFits_congr (agentFits_agent (maskInv_resolveReads (maskInv_drainPosted h))) rfl))

theorem actFits_sideHeld {s : State} {a : Agent} {eas : List (Nat × Nat)} {n : Nat} {go : Act} (h : MaskInv s) (fits : AgentFits a)
    (act : ActFits go) : ActFits (sideHeld s a eas n go) := by
  unfold sideHeld
  split
  · exact act
  · exact maskInv_setMe h (agentFits_congr fits rfl)

theorem actFits_loadAct {i : Instr} {d : Reg} {sz : Nat} {free : Nat → Bool} {eas : List (Nat × Nat)} {s : State} {a : Agent}
    (h : MaskInv s) (fits : AgentFits a) : ActFits (loadAct i d sz free eas s a) := by
  unfold loadAct
  refine actFits_ite h ?_
  split
  · exact trivial
  · split
    · exact actFits_ite trivial (actFits_sideHeld h fits (actFits_heldFault h fits))
    · exact actFits_sideHeld h fits (actFits_loadEntry h)

theorem outcomeFits_execLd {f : FArgs} {s : State} (h : MaskInv s) : OutcomeFits (execLd f s) :=
  outcomeFits_issue h (fun _ _ h1 fits => actFits_loadAct h1 fits)

theorem outcomeFits_execLdL {x : LArgs} {s : State} (h : MaskInv s) : OutcomeFits (execLdL x s) :=
  outcomeFits_issue h (fun _ _ h1 fits => actFits_loadAct h1 fits)

theorem outcomeFits_execLdk {f : FArgs} {s : State} (h : MaskInv s) : OutcomeFits (execLdk f s) := by
  unfold execLdk
  refine outcomeFits_issue h ?_
  intro _ _ h1 fits
  extract_lets
  split
  · exact trivial
  · exact actFits_loadAct h1 fits

/-! ### Global stores (R191, R245, R320, R324) -/

theorem maskInv_noteWhole {s : State} {locs : List Nat} (h : MaskInv s) : MaskInv (noteWhole s locs) :=
  maskInv_ite h (maskInv_of_agents h rfl)

theorem maskInv_performStore {s : State} {a : Agent} {cells : List (Nat × Nat × Byte)} (h : MaskInv s) (fits : AgentFits a) :
    MaskInv (performStore s a cells) :=
  maskInv_setMe (maskInv_softwareWrote (maskInv_noteWhole h))
    (agentFits_congr (agentFits_ite (agentFits_storeBytes fits) (agentFits_spoilOwn (agentFits_storeBytes fits))) rfl)

theorem actFits_afterReds {s : State} {locs : List Nat} {go : State → Act} (h : MaskInv s)
    (keep : ∀ (a : State), MaskInv a → ActFits (go a)) : ActFits (afterReds s locs go) :=
  actFits_ite (maskInv_drainPosted h) (keep _ (maskInv_drainPosted h))

theorem maskInv_logEntries {s : State} {k : Nat} {es : List SideEntry} (h : MaskInv s) : MaskInv (logEntries s k es) :=
  maskInv_setAgent (maskInv_setCore (maskInv_of_agents h rfl)) (agentFits_congr (agentFits_agent h) rfl)

theorem actFits_sideAct {s : State} {a : Agent} {access : Nat} {fails : List (Nat × Nat × Miss)} {held : Option Nat} {es : List SideEntry}
    {t : State} (h : MaskInv s) (fits : AgentFits a) (h1 : MaskInv t) : ActFits (sideAct s a access fails held es t) := by
  unfold sideAct
  extract_lets
  refine actFits_ite ?_
    (actFits_ite (maskInv_setMe h (agentFits_congr fits rfl))
    (actFits_ite (maskInv_foldl (fun _ _ h2 => maskInv_addFault h2) (maskInv_logEntries h1))
    (maskInv_setMe (maskInv_logEntries h1) (agentFits_congr (agentFits_me (maskInv_logEntries h1)) rfl))))
  split
  · exact actFits_heldFault h fits
  · exact maskInv_setMe h (agentFits_congr fits rfl)
  · exact h1

theorem actFits_storeAct {eas : List (Nat × Nat)} {n : Nat} {cells : List (Nat × Byte)} {s : State} {a : Agent} (h : MaskInv s)
    (fits : AgentFits a) : ActFits (storeAct eas n cells s a) := by
  unfold storeAct
  split
  · exact trivial
  · extract_lets
    split
    · exact actFits_ite (actFits_sideAct h fits h)
        (actFits_afterReds h (fun _ h1 => maskInv_performStore (maskInv_fillTlbs h1) (agentFits_me h1)))
    · exact actFits_ite trivial
        (actFits_afterReds h (fun _ h1 => actFits_sideAct h1 (agentFits_me h1) (maskInv_performStore h1 (agentFits_me h1))))

theorem outcomeFits_execSt {f : FArgs} {s : State} (h : MaskInv s) : OutcomeFits (execSt f s) :=
  outcomeFits_issue h (fun _ _ h1 fits => actFits_storeAct h1 fits)

theorem outcomeFits_execStL {x : LArgs} {s : State} (h : MaskInv s) : OutcomeFits (execStL x s) :=
  outcomeFits_issue h (fun _ _ h1 fits => actFits_storeAct h1 fits)

/-! ### Scratchpad loads and stores (R179, R190 to R192, R234) -/

theorem maskInv_seeStores {s : State} {k : Nat} {ps : List Nat} (h : MaskInv s) : MaskInv (seeStores s k ps) := by
  refine maskInv_ite h (maskInv_map h rfl (fun e => ?_) (fun e fits => ?_))
  · split <;> rfl
  · split
    · exact agentFits_congr fits rfl
    · exact fits

theorem actFits_ldsAct {i : Instr} {d : Reg} {sz : Nat} {eas : List (Nat × Nat)} {s : State} {a : Agent} (h : MaskInv s) :
    ActFits (ldsAct i d sz eas s a) := by
  unfold ldsAct
  split
  · exact trivial
  · exact actFits_ite h
      (maskInv_setMe (maskInv_ite (maskInv_used (maskInv_seeStores (maskInv_drainPosted h))) (maskInv_seeStores (maskInv_drainPosted h)))
      (agentFits_congr (agentFits_agent (maskInv_seeStores (maskInv_drainPosted h))) rfl))

theorem outcomeFits_execLds {f : FArgs} {s : State} (h : MaskInv s) : OutcomeFits (execLds f s) :=
  outcomeFits_issue h (fun _ _ h1 _ => actFits_ldsAct h1)

theorem outcomeFits_execLdsL {x : LArgs} {s : State} (h : MaskInv s) : OutcomeFits (execLdsL x s) :=
  outcomeFits_issue h (fun _ _ h1 _ => actFits_ldsAct h1)

theorem maskInv_postJob {s : State} {a : Agent} {j : PostedJob} (h : MaskInv s) : MaskInv (postJob s a j) :=
  maskInv_of_agents h rfl

theorem actFits_stsAct {eas : List (Nat × Nat)} {n : Nat} {cells : List (Nat × Byte)} {s : State} {a : Agent} (h : MaskInv s) :
    ActFits (stsAct eas n cells s a) := by
  unfold stsAct
  split
  · exact trivial
  · exact maskInv_foldl (fun _ _ h1 => maskInv_ite h1 (maskInv_ite (maskInv_setCore h1) (maskInv_postJob h1)))
      (maskInv_ite h (maskInv_numberWrite (maskInv_setMe h (agentFits_congr (agentFits_me h) rfl))))

theorem outcomeFits_execSts {f : FArgs} {s : State} (h : MaskInv s) : OutcomeFits (execSts f s) :=
  outcomeFits_issue h (fun _ _ h1 _ => actFits_stsAct h1)

theorem outcomeFits_execStsL {x : LArgs} {s : State} (h : MaskInv s) : OutcomeFits (execStsL x s) :=
  outcomeFits_issue h (fun _ _ h1 _ => actFits_stsAct h1)

theorem outcomeFits_execPostedAccessPerformed {e : Nat} {s : State} (h : MaskInv s) : OutcomeFits (execPostedAccessPerformed e s) := by
  unfold execPostedAccessPerformed
  split
  · exact h
  · exact outcomeFits_ite (maskInv_performPosted h) h

/-! ### Strong accesses (R196 to R201, R231 to R233) -/

theorem actFits_strongCheck {s : State} {a : Agent} {eas : List (Nat × Nat)} {n : Nat} {go : List (Nat × Nat × List Nat) → Act}
    {held : Nat × Miss → Act} (keep : ∀ (a : List (Nat × Nat × List Nat)), ActFits (go a)) (keep1 : ∀ (a : Nat × Miss), ActFits (held a)) :
    ActFits (strongCheck s a eas n go held) := by
  unfold strongCheck
  split
  · exact trivial
  · split
    · exact trivial
    · split
      · exact keep1 _
      · exact keep _

theorem maskInv_placePart {s : State} {k : Nat} (h : MaskInv s) : MaskInv (placePart s k) :=
  maskInv_dropViews (maskInv_modAgent (maskInv_placeHome (maskInv_pushAll h)) (fun _ fits => agentFits_congr fits rfl))

theorem actFits_released {s : State} {ord sc : Nat} {go : State → Act} (h : MaskInv s) (keep : ∀ (a : State), MaskInv a → ActFits (go a)) :
    ActFits (released s ord sc go) := by
  unfold released
  refine actFits_ite (keep _ h) ?_
  extract_lets
  split
  · exact maskInv_ite (maskInv_placePart (maskInv_republish (maskInv_drainAll h))) (maskInv_republish (maskInv_drainAll h))
  · exact actFits_ite (maskInv_republish (maskInv_drainAll h)) (actFits_ite (maskInv_closeNow (maskInv_republish (maskInv_drainAll h)))
      (keep _ (maskInv_closeNow (maskInv_republish (maskInv_drainAll h)))))

theorem maskInv_sendWatch {s : State} {k asid loc : Nat} (h : MaskInv s) : MaskInv (sendWatch s k asid loc) :=
  maskInv_foldl (fun _ _ h1 => maskInv_sendOp h1) h

theorem maskInv_atomLane {n asid token : Nat} {sure : Bool} {f : Nat → Nat → Option Nat} {msg : Nat → Nat × List Byte} {r : AtomRun}
    {e : Nat × Nat × List Nat} (h : MaskInv r.s) : MaskInv (atomLane n asid token sure f msg r e).s := by
  unfold atomLane
  extract_lets loc x t tag m op
  have hx : MaskInv x.s := maskInv_strongAt h
  have ht : MaskInv t := maskInv_sendWatch (maskInv_ite (maskInv_giveWay h) h)
  clear_value x t
  split
  · exact maskInv_setMe hx (agentFits_observeLines (agentFits_me hx))
  · split
    · exact maskInv_sendOp ht
    · exact h

theorem maskInv_atomLanes {n asid token : Nat} {sure : Bool} {f : Nat → Nat → Option Nat} {msg : Nat → Nat × List Byte} {r : AtomRun}
    {es : List (Nat × Nat × List Nat)} (h : MaskInv r.s) : MaskInv (es.foldl (atomLane n asid token sure f msg) r).s :=
  List.foldlRecOn (motive := fun r : AtomRun => MaskInv r.s) _ _ h fun _ hr _ _ => maskInv_atomLane hr

theorem actFits_atomAct {n ord sc : Nat} {sure : Bool} {eas : List (Nat × Nat)} {f : Nat → Nat → Option Nat} {msg : Nat → Nat × List Byte}
    {mk : AtomRun → LAEntry} {s : State} {a : Agent} (h : MaskInv s) (fits : AgentFits a) :
    ActFits (atomAct n ord sc sure eas f msg mk s a) := by
  refine actFits_ite h (actFits_ite h ?_)
  refine actFits_strongCheck (fun _ => actFits_sideHeld h fits (actFits_released h fun s h => ?_)) fun _ => actFits_heldFault h fits
  extract_lets t far u r v b w
  have ht : MaskInv t := maskInv_drainPosted h
  have hu : MaskInv u := maskInv_foldl (fun _ _ h => maskInv_flushLine h) ht
  refine actFits_ite hu ?_
  have hr : MaskInv r.s := maskInv_atomLanes hu
  clear_value r
  have hv : MaskInv v := maskInv_fillTlbs hr
  have hw : MaskInv w := maskInv_setMe hv (agentFits_congr (agentFits_me hv) rfl)
  exact maskInv_ite (maskInv_openPhase (maskInv_drainAll hw)) hw

theorem outcomeFits_execAtom {f : FArgs} {s : State} (h : MaskInv s) : OutcomeFits (execAtom f s) :=
  outcomeFits_issue h (fun _ _ h1 fits => actFits_atomAct h1 fits)

theorem outcomeFits_execAtomf {f : FArgs} {s : State} (h : MaskInv s) : OutcomeFits (execAtomf f s) :=
  outcomeFits_issue h (fun _ _ h1 fits => actFits_atomAct h1 fits)

theorem outcomeFits_execAtomc {f : FArgs} {s : State} (h : MaskInv s) : OutcomeFits (execAtomc f s) :=
  outcomeFits_issue h (fun _ _ h1 fits => actFits_atomAct h1 fits)

theorem outcomeFits_execAtomag {f : FArgs} {s : State} (h : MaskInv s) : OutcomeFits (execAtomag f s) := by
  refine outcomeFits_issue h fun s a h fits => ?_
  extract_lets regs ls total
  refine actFits_ite h ?_
  generalize hx : atomAct _ _ _ _ _ _ _ _ s a = x
  have done : ActFits x := hx ▸ actFits_atomAct h fits
  split
  · exact maskInv_of_agents (s := _) done rfl
  · exact done

theorem outcomeFits_execRed {f : FArgs} {s : State} (h : MaskInv s) : OutcomeFits (execRed f s) := by
  unfold execRed
  refine outcomeFits_issue h ?_
  intro _ _ h1 _
  extract_lets
  refine actFits_ite h1 ?_
  refine actFits_strongCheck
    (fun _ => actFits_released h1 (fun _ h2 => actFits_ite (actFits_sideAct h2 (agentFits_me h2) h2)
    (maskInv_foldl (fun _ _ h3 => maskInv_postJob h3) (maskInv_fillTlbs h2)))) ?_
  intro _
  refine actFits_ite trivial ?_
  refine actFits_released h1 ?_
  intro _ h2
  extract_lets
  split
  · exact actFits_sideAct h2 (agentFits_me h2) (maskInv_foldl (fun _ _ h3 => maskInv_postJob h3) h2)
  · exact actFits_sideAct h2 (agentFits_me h2) h2

/-! ### FIFO banks (R202) -/

theorem outcomeFits_execFpush {f : FArgs} {s : State} (h : MaskInv s) : OutcomeFits (execFpush f s) :=
  outcomeFits_issue h (fun _ _ h1 _ => actFits_ite trivial (actFits_ite h1 (maskInv_setCore h1)))

theorem outcomeFits_execFpop {f : FArgs} {s : State} (h : MaskInv s) : OutcomeFits (execFpop f s) :=
  outcomeFits_issue h
    (fun _ _ h1 fits => actFits_ite trivial (actFits_ite h1 (maskInv_setMe (maskInv_setCore h1) (agentFits_wrLanes fits))))

/-! ### Prefetch, write-back and invalidation: placement only (R203, R204) -/

theorem outcomeFits_execPref {f : FArgs} {s : State} (h : MaskInv s) : OutcomeFits (execPref f s) :=
  outcomeFits_issue h (fun _ _ h1 _ => h1)

theorem outcomeFits_execCwb {f : FArgs} {s : State} (h : MaskInv s) : OutcomeFits (execCwb f s) :=
  outcomeFits_issue h (fun _ _ h1 _ => h1)

theorem outcomeFits_execCinv {f : FArgs} {s : State} (h : MaskInv s) : OutcomeFits (execCinv f s) :=
  outcomeFits_issue h (fun _ _ h1 _ => h1)

/-! ### Engine accesses -/

theorem maskInv_engineWrite {s t : State} {asid va : Nat} {bytes : List Byte} (h : MaskInv s) (e : engineWrite s asid va bytes = some t) :
    MaskInv t := by
  unfold engineWrite at e
  split at e
  · cases e
  · rw [← Option.some.inj e]
    refine maskInv_placeHome (maskInv_noteWhole (maskInv_fillTlbs (maskInv_softwareWrote ?_)))
    exact maskInv_foldl (fun _ _ h => maskInv_flushAll h) h

/-- An engine's write, or the state as it was where the write fails. -/
theorem maskInv_engineWrite_getD {s : State} {asid va : Nat} {bytes : List Byte} (h : MaskInv s) :
    MaskInv ((engineWrite s asid va bytes).getD s) :=
  maskInv_getD (fun _ e => maskInv_engineWrite h e) h

/-! ### Completion of a command (R296, R306) -/

theorem maskInv_completeCmd {s : State} {c status : Nat} (h : MaskInv s) : MaskInv (completeCmd s c status) := by
  unfold completeCmd
  split
  · exact h
  · exact maskInv_ite h
      (maskInv_ite
      (maskInv_raiseMsix (maskInv_ite (maskInv_engineWrite_getD (maskInv_of_agents h rfl))
      (maskInv_of_agents (maskInv_of_agents h rfl) rfl))) (maskInv_ite (maskInv_engineWrite_getD (maskInv_of_agents h rfl))
      (maskInv_of_agents (maskInv_of_agents h rfl) rfl)))

/-! ### The device clearing table (R259, R276, R277) -/

theorem maskInv_setClearing {s : State} {i : Nat} {c : Clearing} (h : MaskInv s) : MaskInv (s.setClearing i c) :=
  maskInv_of_agents h rfl

theorem maskInv_freeClearing {s : State} {i : Nat} (h : MaskInv s) : MaskInv (freeClearing s i) :=
  maskInv_of_agents h rfl

theorem maskInv_settleFrees {s : State} (h : MaskInv s) : MaskInv (settleFrees s) :=
  maskInv_foldl (fun _ _ h1 => maskInv_ite (maskInv_freeClearing h1) h1) h

/-! ### The ring table (R213, R214) -/

theorem maskInv_putRing {s : State} {wg h : Nat} {r : Ring} (inv : MaskInv s) : MaskInv (putRing s wg h r) :=
  maskInv_of_agents inv rfl

theorem agentFits_gotRing {a : Agent} {seq w : Nat} {report : Option (Cause × Nat)} (fits : AgentFits a) :
    AgentFits (a.gotRing seq w report) :=
  agentFits_ite (agentFits_congr (agentFits_congr fits rfl) rfl) (agentFits_ite (agentFits_congr (agentFits_congr fits rfl) rfl)
    (agentFits_congr fits rfl))

theorem maskInv_settleRing {s : State} {wg h : Nat} {r : Ring} (inv : MaskInv s) : MaskInv (settleRing s wg h r) := by
  unfold settleRing
  extract_lets
  refine maskInv_ite (maskInv_putRing inv) ?_
  split
  · exact maskInv_putRing inv
  · exact maskInv_foldl (fun _ _ h1 => maskInv_setAgent h1 (agentFits_gotRing (agentFits_agent h1))) (maskInv_putRing inv)
  · exact maskInv_foldl (fun _ _ h1 => maskInv_setAgent h1 (agentFits_gotRing (agentFits_agent h1))) (maskInv_putRing inv)

theorem maskInv_creditRing {s : State} {wg h count : Nat} {arm : Bool} (inv : MaskInv s) : MaskInv (creditRing s wg h count arm) := by
  unfold creditRing
  split
  · exact inv
  · exact maskInv_settleRing inv

theorem maskInv_arriveRing {s : State} {wg h seq count : Nat} (inv : MaskInv s) : MaskInv (arriveRing s wg h seq count) := by
  unfold arriveRing
  split
  · exact inv
  · exact maskInv_settleRing inv

theorem maskInv_failRing {s : State} {wg h seq code addr : Nat} (inv : MaskInv s) : MaskInv (failRing s wg h seq code addr) := by
  unfold failRing
  split
  · exact inv
  · exact maskInv_ite (maskInv_putRing inv) inv

/-! ### Room in the side logs (R245, R324) -/

theorem agentFits_reissue {a : Agent} (fits : AgentFits a) : AgentFits (reissue a) :=
  agentFits_ite (agentFits_congr fits rfl) (agentFits_ite (agentFits_congr fits rfl) fits)

theorem maskInv_releaseSide {s : State} (h : MaskInv s) : MaskInv (releaseSide s) :=
  maskInv_map h rfl (fun _ => rfl) (fun _ fits => agentFits_ite (agentFits_reissue fits) fits)

/-! ### Abort of a grid (R326) -/

theorem maskInv_leaveUnit {s : State} {k : Nat} (h : MaskInv s) : MaskInv (leaveUnit s k) :=
  maskInv_of_agents h rfl

theorem maskInv_undoClaim {s : State} {a : Agent} (h : MaskInv s) : MaskInv (undoClaim s a) := by
  unfold undoClaim
  split
  · exact maskInv_freeClearing h
  · exact h

theorem maskInv_killAgent {s : State} {k : Nat} (h : MaskInv s) : MaskInv (killAgent s k) := by
  unfold killAgent
  extract_lets t a _ u _ v
  have ht : MaskInv t := maskInv_leaveUnit (maskInv_drainAll h)
  have hu : MaskInv u := maskInv_ite ht (maskInv_of_agents ht rfl)
  have hv : MaskInv v := maskInv_ite hu (maskInv_setCore hu)
  exact maskInv_releaseSide (maskInv_settleFrees (maskInv_settleOrphans (maskInv_undoClaim (maskInv_erase hv rfl))))

theorem maskInv_abortOne {s : State} {g : Nat} (h : MaskInv s) : MaskInv (abortOne s g) := by
  unfold abortOne
  split
  · exact h
  · extract_lets
    split
    · exact maskInv_completeCmd (maskInv_of_agents (maskInv_foldl (fun _ _ h1 => maskInv_killAgent h1) h) rfl)
    · split
      · exact maskInv_of_agents (maskInv_foldl (fun _ _ h1 => maskInv_killAgent h1) h) rfl
      · rename_i e3
        exact maskInv_ite (maskInv_setAgent (maskInv_of_agents (maskInv_foldl (fun _ _ h1 => maskInv_killAgent h1) h) rfl)
          (agentFits_congr (agentFits_find (maskInv_of_agents (maskInv_foldl (fun _ _ h1 => maskInv_killAgent h1) h) rfl) e3) rfl))
          (maskInv_of_agents (maskInv_foldl (fun _ _ h1 => maskInv_killAgent h1) h) rfl)
    · exact maskInv_of_agents (maskInv_foldl (fun _ _ h1 => maskInv_killAgent h1) h) rfl

theorem maskInv_abortGrid {s : State} {g : Nat} (h : MaskInv s) : MaskInv (abortGrid s g) :=
  maskInv_foldl (fun _ _ h1 => maskInv_abortOne h1) h

/-! ### Issue of a copy -/

theorem maskInv_startCopy {s : State} {a : Agent} {h count : Nat} {arm : Bool} {job : CopyJob} (inv : MaskInv s) :
    MaskInv (startCopy s a h count arm job) :=
  maskInv_creditRing (maskInv_of_agents (maskInv_drainScratch inv) rfl)

theorem actFits_withRing {s : State} {a : Agent} {h : Nat} {go : Act} (inv : MaskInv s) (act : ActFits go) :
    ActFits (withRing s a h go) := by
  unfold withRing
  split
  · exact trivial
  · refine actFits_ite ?_ act
    split
    · exact act
    · exact inv

/-! ### CPY (R206) -/

theorem outcomeFits_execCpy {f : FArgs} {s : State} (h : MaskInv s) : OutcomeFits (execCpy f s) := by
  unfold execCpy
  refine outcomeFits_issue h ?_
  intro _ _ h1 _
  extract_lets
  refine actFits_withRing h1 ?_
  split
  · exact trivial
  · split
    · exact trivial
    · split
      · exact trivial
      · exact maskInv_startCopy h1

/-! ### Tensor copies (R207 to R210) -/

theorem agentFits_takeTrailer {s : State} {a : Agent} {d : List Byte} (fits : AgentFits a) : AgentFits (takeTrailer s a d).2 := by
  unfold takeTrailer
  split
  · exact agentFits_congr fits rfl
  · exact fits

theorem actFits_cpytGo {l : LArgs} {s : State} {a : Agent} {d : List Byte} (h : MaskInv s) (fits : AgentFits a) :
    ActFits (cpytGo l s a d) := by
  unfold cpytGo
  extract_lets sp box x slot tr count
  have taken : AgentFits tr.2 := agentFits_takeTrailer fits
  clear_value tr
  refine actFits_ite trivial (actFits_ite trivial ?_)
  split
  · exact trivial
  · refine actFits_ite trivial (actFits_ite trivial (actFits_ite trivial ?_))
    split
    · exact trivial
    · exact maskInv_startCopy (maskInv_setMe h taken)

theorem outcomeFits_execCpyt {l : LArgs} {s : State} (h : MaskInv s) : OutcomeFits (execCpyt l s) :=
  outcomeFits_issue h
    (fun _ _ h1 fits => actFits_ite h1
    (actFits_withRing h1
    (actFits_ite trivial (actFits_withRead h1 fits (fun _ _ _ h2 fits1 => actFits_cpytGo (maskInv_setMe h2 fits1) fits1)))))

/-! ### The copy unit (R205, R209 to R211, R327) -/

theorem maskInv_copyWrite {s t : State} {c : Copy} {va : Nat} {bs : List Byte} (h : MaskInv s) (e : copyWrite s c va bs = .ok t) :
    MaskInv t := by
  unfold copyWrite at e
  split at e
  · exact nomatch e
  · split at e
    · exact nomatch e
    · split at e
      · exact nomatch e
      · extract_lets cells u v w x at e
        have hu : MaskInv u := maskInv_noteWhole (maskInv_fillTlbs (maskInv_softwareWrote h))
        have hw : MaskInv w := maskInv_of_agents (maskInv_supersede (k := c.agent) (num := c.num) (bytes := cells) hu) rfl
        split at e
        · rw [← Except.ok.inj e]
          exact maskInv_placeHome (maskInv_foldl (fun _ _ h => maskInv_flushAll h) hu)
        · rw [← Except.ok.inj e]
          exact maskInv_setGrove hw

theorem maskInv_setCopyCore {s : State} {c : Copy} {addr : Nat} {x : Core} (h : MaskInv s) : MaskInv (setCopyCore s c addr x) := by
  unfold setCopyCore
  split
  · exact maskInv_ite (maskInv_of_agents h rfl) (maskInv_setCore h)
  · exact maskInv_setCore h

theorem maskInv_copyScratch {s : State} {c : Copy} {addr : Nat} {bs : List Byte} (h : MaskInv s) : MaskInv (copyScratch s c addr bs) :=
  maskInv_ite (maskInv_setCopyCore h) (maskInv_numberWrite (maskInv_setCopyCore h))

theorem maskInv_poisonRange {s : State} {c : Copy} {sp : Bool} {x n : Nat} (h : MaskInv s) : MaskInv (poisonRange s c sp x n) := by
  unfold poisonRange
  refine maskInv_ite (maskInv_setCopyCore h) ?_
  split
  · exact h
  · exact maskInv_of_agents (maskInv_foldl (fun _ _ h1 => maskInv_flushAll h1) h) rfl

theorem maskInv_endCopy {s : State} {id : Nat} {c : Copy} {count status : Nat} (h : MaskInv s) : MaskInv (endCopy s id c count status) := by
  unfold endCopy
  extract_lets
  split
  · exact maskInv_arriveRing (maskInv_of_agents h rfl)
  · exact maskInv_completeCmd (maskInv_of_agents h rfl)
  · exact maskInv_of_agents h rfl

theorem maskInv_copyError {s : State} {c : Copy} {code addr : Nat} (h : MaskInv s) : MaskInv (copyError s c code addr) := by
  unfold copyError
  split
  · exact maskInv_failRing h
  · split
    · exact h
    · exact maskInv_ite (maskInv_of_agents h rfl) h
  · exact h

theorem maskInv_suspendCopy {s : State} {id : Nat} {c : Copy} {va : Nat} {m : Miss} {access cursor : Nat} (h : MaskInv s) :
    MaskInv (suspendCopy s id c va m access cursor) := by
  unfold suspendCopy
  refine maskInv_ite (maskInv_addFault (maskInv_of_agents h rfl)) ?_
  split
  · exact maskInv_completeCmd (maskInv_of_agents h rfl)
  · exact maskInv_abortGrid h

theorem maskInv_copyPoison {s : State} {id : Nat} {c : Copy} {va : Nat} {w : CopyPlace} (h : MaskInv s)
    (past : ∀ (s : State), MaskInv s → MaskInv (w.past s)) : MaskInv (copyPoison s id c va w) := by
  unfold copyPoison
  split
  · exact maskInv_suspendCopy h
  · exact past _
      (maskInv_foldl (fun _ _ h1 => maskInv_poisonRange h1) (maskInv_ite (maskInv_addFault (maskInv_copyError h)) (maskInv_copyError h)))

theorem maskInv_moveBytes {s : State} {id : Nat} {c : Copy} {src : Option (Bool × Nat)} {dst : Bool × Nat} {n : Nat}
    {put : List Byte → List Byte} {w : CopyPlace} {go : List Byte → State → State} (h : MaskInv s)
    (past : ∀ s, MaskInv s → MaskInv (w.past s)) (keep : ∀ bs s, MaskInv s → MaskInv (go bs s)) :
    MaskInv (moveBytes s id c src dst n put w go) := by
  unfold moveBytes
  extract_lets t got lost hot u v
  have ht : MaskInv t := by
    unfold t
    split
    · exact maskInv_resolveEngine h
    · exact h
  have hlost {s : State} (h : MaskInv s) : MaskInv (lost s) := keep _ _ (maskInv_copyError h)
  clear_value got
  have hu : MaskInv u := maskInv_ite (maskInv_used ht) ht
  have hv : MaskInv v := by
    unfold v
    split
    · exact maskInv_fillTlbs hu
    · exact hu
  split
  · exact maskInv_suspendCopy ht
  · exact maskInv_fetchLine ht
  · exact ht
  · exact hlost ht
  · exact maskInv_copyPoison ht past
  · rename_i bs
    extract_lets out left
    refine maskInv_ite (keep _ _ (maskInv_copyScratch hv)) ?_
    split
    · rename_i x hx
      exact keep _ _ (maskInv_copyWrite hv hx)
    · exact maskInv_suspendCopy hv
    · exact hv
    · exact hlost hv

theorem maskInv_stepTo {id cursor : Nat} {s : State} (h : MaskInv s) : MaskInv (stepTo id cursor s) := by
  unfold stepTo
  split
  · exact h
  · exact maskInv_of_agents h rfl

theorem maskInv_stepImage {id cursor : Nat} {bs out : List Byte} {s : State} (h : MaskInv s) : MaskInv (stepImage id cursor bs out s) := by
  unfold stepImage
  split
  · exact h
  · exact maskInv_of_agents h rfl

theorem maskInv_tensorPlace {id : Nat} {d : List Byte} {x : List Int} {box : Nat} {sp out : Bool} {cursor stop : Nat} {s : State}
    (h : MaskInv s) :
    MaskInv ((tensorPlace id d x box sp out cursor stop).past s) :=
  maskInv_stepImage h

theorem maskInv_finishTile {s : State} {id : Nat} {c : Copy} {d : List Byte} {x : List Int} {box : Nat} {sp out : Bool}
    {trailer : List Byte} (h : MaskInv s) : MaskInv (finishTile s id c d x box sp out trailer) := by
  unfold finishTile
  extract_lets off tens src dst at_ _ w from_ put made
  have past (s : State) (h : MaskInv s) : MaskInv (w.past s) := maskInv_tensorPlace (d := d) (x := x) (box := box) (sp := sp) (out := out) h
  exact maskInv_ite (maskInv_moveBytes h past fun _ _ h => maskInv_stepImage h)
    (maskInv_moveBytes (maskInv_used h) past fun _ _ h => maskInv_stepTo (maskInv_ite (maskInv_copyError h) h))

theorem maskInv_copyStep {s : State} {id : Nat} {c : Copy} (h : MaskInv s) : MaskInv (copyStep s id c) := by
  unfold copyStep
  split
  · split
    · exact maskInv_endCopy h
    · exact maskInv_moveBytes h (fun _ h => maskInv_stepTo h) (fun _ _ h => maskInv_stepTo (maskInv_used h))
  · extract_lets e w t next
    have past (s : State) (h : MaskInv s) : MaskInv (w.past s) := maskInv_tensorPlace h
    have keep (bs : List Byte) (s : State) (h : MaskInv s) : MaskInv (next bs s) := maskInv_stepImage (maskInv_used h)
    refine maskInv_ite (maskInv_endCopy h) (maskInv_ite (maskInv_finishTile h) (maskInv_ite ?_ (maskInv_moveBytes h past keep)))
    clear_value t
    split
    · exact maskInv_stepTo h
    · exact maskInv_moveBytes h past keep
  · refine maskInv_ite (maskInv_ite h (maskInv_endCopy h)) ?_
    exact maskInv_moveBytes h (fun _ h => maskInv_stepTo h) (fun _ _ h => maskInv_stepTo (maskInv_used h))

theorem outcomeFits_execCopyLineOperation {id : Nat} {s : State} (h : MaskInv s) : OutcomeFits (execCopyLineOperation id s) := by
  unfold execCopyLineOperation
  split
  · exact h
  · exact outcomeFits_ite h (maskInv_copyStep h)

/-! ### Rings (R212 to R219) -/

theorem outcomeFits_execRingInit {f : FArgs} {s : State} (h : MaskInv s) : OutcomeFits (execRingInit f s) := by
  unfold execRingInit
  refine outcomeFits_issue h ?_
  intro _ _ h1 fits
  extract_lets
  refine actFits_ite h1 ?_
  refine actFits_ite trivial ?_
  refine actFits_withRead h1 fits ?_
  intro _ _ _ h2 fits1
  extract_lets
  refine actFits_ite trivial ?_
  split
  · exact maskInv_setMe h2 (agentFits_wrN fits1)
  · exact maskInv_setMe (maskInv_setGrove h2) (agentFits_wrN fits1)

theorem agentFits_onRing {a : Agent} {h : Nat} (inv : AgentFits a) : AgentFits (a.onRing h) :=
  agentFits_congr inv rfl

theorem maskInv_ringEnd {s : State} {a : Agent} {d : Reg} {h seq w : Nat} (inv : MaskInv s) (fits : AgentFits a) :
    MaskInv (ringEnd s a d h seq w) :=
  maskInv_joinCopies (maskInv_openJoin (maskInv_setMe inv (agentFits_congr (agentFits_wrN fits) rfl)))

theorem outcomeFits_execRingWait {f : FArgs} {s : State} (h : MaskInv s) : OutcomeFits (execRingWait f s) := by
  refine outcomeFits_issue h fun s a h fits => ?_
  extract_lets r waits
  have hw : AgentFits waits := agentFits_onRing fits
  refine actFits_ite h ?_
  split
  · exact trivial
  · split
    · exact trivial
    · exact maskInv_ringEnd h fits
    · split
      · exact actFits_ite (maskInv_setMe h hw) (maskInv_setMe h (agentFits_congr hw rfl))
      · exact maskInv_putRing h
      · exact maskInv_ringEnd h fits

theorem outcomeFits_execRingPark {f : FArgs} {s : State} (h : MaskInv s) : OutcomeFits (execRingPark f s) := by
  refine outcomeFits_issue h fun s a h fits => ?_
  extract_lets r cont waits
  have hw : AgentFits waits := agentFits_onRing fits
  refine actFits_ite h ?_
  split
  · exact trivial
  · refine actFits_ite trivial ?_
    split
    · exact trivial
    · extract_lets t
      have ht : MaskInv t := maskInv_ringEnd h fits
      split
      · exact ht
      · exact ht
    · split
      · exact maskInv_setMe h (agentFits_congr hw rfl)
      · exact maskInv_putRing h
      · exact maskInv_ringEnd h fits

theorem outcomeFits_execRingRel {f : FArgs} {s : State} (h : MaskInv s) : OutcomeFits (execRingRel f s) := by
  unfold execRingRel
  refine outcomeFits_issue h ?_
  intro _ _ h1 _
  extract_lets
  refine actFits_ite h1 ?_
  split
  · exact trivial
  · exact actFits_ite h1 (actFits_ite h1 (maskInv_settleRing h1))

theorem outcomeFits_execRingQ {f : FArgs} {s : State} (h : MaskInv s) : OutcomeFits (execRingQ f s) := by
  unfold execRingQ
  refine outcomeFits_issue h ?_
  intro _ _ h1 fits
  extract_lets
  refine actFits_ite h1 ?_
  split
  · exact trivial
  · exact maskInv_ite (maskInv_joinCopies (maskInv_openJoin (maskInv_setMe h1 (agentFits_wrN fits))))
      (maskInv_setMe h1 (agentFits_wrN fits))

/-! ### Closes and opens (R224, R226, R229, R250, R399) -/

theorem actFits_beforeClose {s : State} {sc : Nat} {go : State → Act} (h : MaskInv s) (keep : ∀ (a : State), MaskInv a → ActFits (go a)) :
    ActFits (beforeClose s sc go) := by
  unfold beforeClose
  extract_lets
  split
  · exact maskInv_ite (maskInv_republish (maskInv_drainAll h)) (maskInv_placePart (maskInv_republish (maskInv_drainAll h)))
  · exact actFits_ite (maskInv_republish (maskInv_drainAll h)) (keep _ (maskInv_republish (maskInv_drainAll h)))

theorem actFits_closeHere {s : State} {a : Agent} {sc : Nat} {go : State → Act} (h : MaskInv s) (fits : AgentFits a)
    (keep : ∀ (a : State), MaskInv a → ActFits (go a)) : ActFits (closeHere s a sc go) := by
  unfold closeHere
  split
  · refine actFits_ite (keep _ (maskInv_setMe h (agentFits_congr fits rfl))) ?_
    split
    · exact h
    · exact h
  · exact actFits_beforeClose h
      (fun _ h1 => actFits_ite (keep _ (maskInv_issueClose h1))
      (maskInv_modAgent (maskInv_ite (maskInv_completeClose (maskInv_issueClose h1)) (maskInv_issueClose h1))
      (fun _ fits1 => agentFits_congr fits1 rfl)))

theorem outcomeFits_execPclose {f : FArgs} {s : State} (h : MaskInv s) : OutcomeFits (execPclose f s) :=
  outcomeFits_issue h (fun _ _ h1 fits => actFits_ite h1 (actFits_closeHere h1 fits (fun _ h2 => h2)))

theorem outcomeFits_execPopen {f : FArgs} {s : State} (h : MaskInv s) : OutcomeFits (execPopen f s) :=
  outcomeFits_issue h (fun _ _ h1 _ => actFits_ite h1 (maskInv_openPhase (maskInv_drainAll h1)))

theorem outcomeFits_execPhase {f : FArgs} {s : State} (h : MaskInv s) : OutcomeFits (execPhase f s) :=
  outcomeFits_issue h (fun _ _ h1 fits => actFits_ite h1 (actFits_closeHere h1 fits (fun _ h2 => maskInv_openPhase h2)))

theorem outcomeFits_execCloseCompletion {k : Nat} {s : State} (h : MaskInv s) : OutcomeFits (execCloseCompletion k s) := by
  unfold execCloseCompletion
  split
  · exact outcomeFits_ite h (maskInv_settleOrphan h)
  · split
    · exact h
    · exact outcomeFits_ite (maskInv_completeClose h) h

theorem outcomeFits_execFence {f : FArgs} {s : State} (h : MaskInv s) : OutcomeFits (execFence f s) :=
  outcomeFits_issue h (fun _ _ h1 _ => actFits_ite h1 (actFits_ite (maskInv_drainAll h1) (maskInv_drainAll h1)))

/-! ### Bundles (R237 to R244, R251, R252) -/

theorem maskInv_closeBeside {s : State} {k sc : Nat} (h : MaskInv s) : MaskInv (closeBeside s k sc) :=
  maskInv_completeClose (maskInv_modAgent h (fun _ fits => agentFits_congr fits rfl))

theorem maskInv_formBundle {s : State} {sc : Nat} {name : Word} (h : MaskInv s) : MaskInv (formBundle s sc name).1 := by
  unfold formBundle
  extract_lets t a c seq lines id b u v
  have ht : MaskInv t := maskInv_closeBeside h
  have hu : MaskInv u := maskInv_setCore ht
  have hv : MaskInv v := maskInv_modAgent hu fun _ fits => agentFits_congr fits rfl
  have published : MaskInv { v with bundles := Tab.put v.bundles id b } := maskInv_of_agents hv rfl
  exact maskInv_publish published

theorem maskInv_placeBeside {s : State} {k : Nat} (h : MaskInv s) : MaskInv (placeBeside s k) :=
  maskInv_modAgent (maskInv_placePart (maskInv_modAgent h (fun _ fits => agentFits_congr fits rfl)))
    (fun _ fits => agentFits_congr fits rfl)

theorem actFits_bundleDone {s : State} {f : FArgs} {id : Nat} (h : MaskInv s) : ActFits (bundleDone s f id) := by
  unfold bundleDone
  split
  · exact maskInv_setMe h (agentFits_congr (agentFits_me h) rfl)
  · exact actFits_ite (actFits_holdOnce (maskInv_setMe h (agentFits_congr (agentFits_me h) rfl)))
      (maskInv_setMe h (agentFits_wrN (agentFits_congr (agentFits_me h) rfl)))

theorem outcomeFits_execBclose {f : FArgs} {s : State} (h : MaskInv s) : OutcomeFits (execBclose f s) := by
  unfold execBclose
  refine outcomeFits_issue h ?_
  intro _ _ h1 _
  refine actFits_ite h1 ?_
  split
  · exact actFits_bundleDone (maskInv_placeVersions h1)
  · refine actFits_ite trivial ?_
    extract_lets
    split
    · exact maskInv_ite (maskInv_republish (maskInv_drainAll h1)) (maskInv_placeBeside (maskInv_republish (maskInv_drainAll h1)))
    · exact actFits_ite (maskInv_republish (maskInv_drainAll h1))
        (actFits_bundleDone (maskInv_formBundle (maskInv_republish (maskInv_drainAll h1))))

theorem outcomeFits_execBquery {f : FArgs} {s : State} (h : MaskInv s) : OutcomeFits (execBquery f s) :=
  outcomeFits_issue h
    (fun _ _ h1 _ => actFits_ite h1
    (actFits_ite h1 (actFits_ite (maskInv_republish h1) (actFits_ite (maskInv_sendOp (maskInv_republish h1)) (maskInv_republish h1)))))

/-! ### Barriers (R246 to R248, R254) -/

theorem maskInv_askObject {s : State} {k asid loc : Nat} {op : BarOp} (h : MaskInv s) : MaskInv (askObject s k asid loc op) :=
  maskInv_sendOp (maskInv_modAgent h (fun _ fits => agentFits_congr fits rfl))

theorem actFits_onObject {s : State} {a : Agent} {addr loc : Nat} {op : BarOp} {go : State → List Byte → Act} (h : MaskInv s)
    (keep : ∀ (a : State) (a_1 : List Byte), MaskInv a → ActFits (go a a_1)) : ActFits (onObject s a addr loc op go) := by
  unfold onObject
  extract_lets
  refine actFits_ite ?_ ?_
  · split
    · exact maskInv_objectAct h
    · exact keep _ _ (maskInv_modAgent (maskInv_objectAct h) (fun _ fits1 => agentFits_congr fits1 rfl))
  · refine actFits_ite
      (actFits_ite h
      (actFits_ite (maskInv_flushLine h) (maskInv_modAgent (maskInv_askObject (maskInv_sendWatch (maskInv_flushLine h)))
      (fun _ fits1 => agentFits_congr fits1 rfl)))) ?_
    refine actFits_ite h ?_
    split
    · exact keep _ _ (maskInv_modAgent (maskInv_ite (maskInv_giveWay h) h) (fun _ fits1 => agentFits_congr fits1 rfl))
    · exact h

theorem actFits_withObject {s : State} {a : Agent} {addr : Nat} {rel : Option Nat} {op : BarOp} {go : State → List Byte → Act}
    (h : MaskInv s) (keep : ∀ (a : State) (a_1 : List Byte), MaskInv a → ActFits (go a a_1)) : ActFits (withObject s a addr rel op go) := by
  unfold withObject
  split
  · exact trivial
  · split
    · exact actFits_released h (fun _ h1 => actFits_onObject h1 (fun _ _ h2 => keep _ _ h2))
    · exact actFits_onObject h (fun _ _ h1 => keep _ _ h1)

theorem outcomeFits_execBarInit {f : FArgs} {s : State} (h : MaskInv s) : OutcomeFits (execBarInit f s) := by
  unfold execBarInit
  refine outcomeFits_issue h ?_
  intro _ _ h1 _
  extract_lets
  refine actFits_ite h1 ?_
  split
  · exact trivial
  · exact actFits_ite trivial (actFits_withObject h1 (fun _ _ h2 => h2))

theorem maskInv_pollObjects {s : State} {k : Nat} (h : MaskInv s) : MaskInv (pollObjects s k) := by
  unfold pollObjects
  extract_lets
  refine maskInv_foldl ?_ h
  intro _ _ h1
  split
  · exact h1
  · exact maskInv_ite h1 (maskInv_askObject h1)

theorem actFits_arrive {f : FArgs} {s : State} {a : Agent} {go : State → Act} (h : MaskInv s)
    (keep : ∀ (a : State), MaskInv a → ActFits (go a)) : ActFits (arrive f s a go) :=
  actFits_ite trivial
    (actFits_ite trivial
    (actFits_ite (maskInv_pollObjects h)
    (actFits_withObject h (fun _ _ h1 => actFits_ite h1 (keep _ (maskInv_setMe h1 (agentFits_congr (agentFits_me h1) rfl)))))))

theorem maskInv_endWait {s : State} {addr sc : Nat} (h : MaskInv s) : MaskInv (endWait s addr sc) :=
  maskInv_openPhase (maskInv_drainAll (maskInv_setMe h (agentFits_congr (agentFits_me h) rfl)))

theorem actFits_barWait {f : FArgs} {s : State} {a : Agent} (h : MaskInv s) : ActFits (barWait f s a) := by
  unfold barWait
  extract_lets
  split
  · exact trivial
  · exact maskInv_endWait h
  · exact actFits_withObject h (fun _ _ h1 => actFits_ite (maskInv_endWait h1) (maskInv_setMe h1 (agentFits_congr (agentFits_me h1) rfl)))

theorem outcomeFits_execBarArv {f : FArgs} {s : State} (h : MaskInv s) : OutcomeFits (execBarArv f s) :=
  outcomeFits_issue h (fun _ _ h1 _ => actFits_ite h1 (actFits_arrive h1 (fun _ h2 => h2)))

theorem outcomeFits_execBarWait {f : FArgs} {s : State} (h : MaskInv s) : OutcomeFits (execBarWait f s) :=
  outcomeFits_issue h (fun _ _ h1 _ => actFits_ite h1 (actFits_barWait h1))

theorem outcomeFits_execBarSync {f : FArgs} {s : State} (h : MaskInv s) : OutcomeFits (execBarSync f s) :=
  outcomeFits_issue h
    (fun _ _ h1 _ => actFits_ite h1
    (actFits_ite (actFits_barWait h1)
    (actFits_arrive h1 (fun _ h2 => actFits_barWait (maskInv_setMe h2 (agentFits_congr (agentFits_me h2) rfl))))))

theorem outcomeFits_execBarrierCompletionNotice {k : Nat} {s : State} (h : MaskInv s) : OutcomeFits (execBarrierCompletionNotice k s) := by
  unfold execBarrierCompletionNotice
  extract_lets
  split
  · exact outcomeFits_ite h
      (outcomeFits_ite (maskInv_pollObjects h) (outcomeFits_ite (maskInv_setAgent h (agentFits_congr (agentFits_agent h) rfl))
      (outcomeFits_ite (maskInv_setAgent h (agentFits_congr (agentFits_agent h) rfl)) h)))
  · exact h

/-! ### The cross-lane block -/

theorem agentFits_wrCross {a : Agent} {i : Instr} {d : Reg} {n : Nat} {f : Nat → Nat} (fits : AgentFits a) : AgentFits (wrCross a i d n f)
   := by
  unfold wrCross
  refine agentFits_ite ?_ (agentFits_wrN fits)
  split
  · exact fits
  · exact agentFits_wrN fits

theorem outcomeFits_execShfl {f : FArgs} {s : State} (h : MaskInv s) : OutcomeFits (execShfl f s) :=
  outcomeFits_issue h (fun _ _ h1 fits => actFits_onAgent (fun _ fits1 => agentFits_wrCross fits1) h1 fits)

theorem outcomeFits_execBcast {f : FArgs} {s : State} (h : MaskInv s) : OutcomeFits (execBcast f s) :=
  outcomeFits_issue h (fun _ _ h1 fits => actFits_onAgent (fun _ fits1 => agentFits_wrCross fits1) h1 fits)

theorem outcomeFits_execBallot {f : FArgs} {s : State} (h : MaskInv s) : OutcomeFits (execBallot f s) :=
  outcomeFits_issue h (fun _ _ h1 fits => actFits_ite trivial (maskInv_setMe h1 (agentFits_wrCross fits)))

theorem outcomeFits_execMatchLanes {f : FArgs} {s : State} (h : MaskInv s) : OutcomeFits (execMatchLanes f s) :=
  outcomeFits_issue h (fun _ _ h1 fits => actFits_ite trivial (maskInv_setMe h1 (agentFits_wrCross fits)))

theorem outcomeFits_execVote {f : FArgs} {s : State} (h : MaskInv s) : OutcomeFits (execVote f s) :=
  outcomeFits_issue h (fun _ _ h1 fits => actFits_onAgent (fun _ fits1 => agentFits_wrCross fits1) h1 fits)

theorem outcomeFits_execSred {f : FArgs} {s : State} (h : MaskInv s) : OutcomeFits (execSred f s) :=
  outcomeFits_issue h (fun _ _ h1 fits => actFits_onAgent (fun _ fits1 => agentFits_congr (agentFits_wrCross fits1) rfl) h1 fits)

theorem outcomeFits_execSscan {f : FArgs} {s : State} (h : MaskInv s) : OutcomeFits (execSscan f s) :=
  outcomeFits_issue h (fun _ _ h1 fits => actFits_onAgent (fun _ fits1 => agentFits_congr (agentFits_wrCross fits1) rfl) h1 fits)

/-! ### The instructions -/

theorem outcomeFits_execFadd {f : FArgs} {s : State} (h : MaskInv s) : OutcomeFits (execFadd f s) :=
  outcomeFits_aluFlags h

theorem outcomeFits_execFsub {f : FArgs} {s : State} (h : MaskInv s) : OutcomeFits (execFsub f s) :=
  outcomeFits_aluFlags h

theorem outcomeFits_execFmul {f : FArgs} {s : State} (h : MaskInv s) : OutcomeFits (execFmul f s) :=
  outcomeFits_aluFlags h

theorem outcomeFits_execFfma {f : FArgs} {s : State} (h : MaskInv s) : OutcomeFits (execFfma f s) :=
  outcomeFits_aluFlags h

theorem outcomeFits_execFmin {f : FArgs} {s : State} (h : MaskInv s) : OutcomeFits (execFmin f s) :=
  outcomeFits_aluFlags h

theorem outcomeFits_execFmax {f : FArgs} {s : State} (h : MaskInv s) : OutcomeFits (execFmax f s) :=
  outcomeFits_aluFlags h

theorem outcomeFits_execFabs {f : FArgs} {s : State} (h : MaskInv s) : OutcomeFits (execFabs f s) :=
  outcomeFits_aluFlags h

theorem outcomeFits_execFneg {f : FArgs} {s : State} (h : MaskInv s) : OutcomeFits (execFneg f s) :=
  outcomeFits_aluFlags h

theorem outcomeFits_execFcmp {f : FArgs} {s : State} (h : MaskInv s) : OutcomeFits (execFcmp f s) :=
  outcomeFits_aluFlags h

theorem outcomeFits_execFclass {f : FArgs} {s : State} (h : MaskInv s) : OutcomeFits (execFclass f s) :=
  outcomeFits_aluFlags h

theorem outcomeFits_execFrnd {f : FArgs} {s : State} (h : MaskInv s) : OutcomeFits (execFrnd f s) :=
  outcomeFits_aluFlags h

theorem outcomeFits_execFscale {f : FArgs} {s : State} (h : MaskInv s) : OutcomeFits (execFscale f s) :=
  outcomeFits_aluFlags h

theorem outcomeFits_execFdiv {f : FArgs} {s : State} (h : MaskInv s) : OutcomeFits (execFdiv f s) :=
  outcomeFits_aluLong h

theorem outcomeFits_execFsqrt {f : FArgs} {s : State} (h : MaskInv s) : OutcomeFits (execFsqrt f s) :=
  outcomeFits_aluLong h

theorem outcomeFits_sfu {i : Instr} {f : FArgs} {s : State} {g : Nat → Nat × Word} (h : MaskInv s) : OutcomeFits (sfu i f s g) :=
  outcomeFits_aluLong h

theorem outcomeFits_execFrcp {f : FArgs} {s : State} (h : MaskInv s) : OutcomeFits (execFrcp f s) :=
  outcomeFits_sfu h

theorem outcomeFits_execFrsq {f : FArgs} {s : State} (h : MaskInv s) : OutcomeFits (execFrsq f s) :=
  outcomeFits_sfu h

theorem outcomeFits_execFexp2 {f : FArgs} {s : State} (h : MaskInv s) : OutcomeFits (execFexp2 f s) :=
  outcomeFits_sfu h

theorem outcomeFits_execFlog2 {f : FArgs} {s : State} (h : MaskInv s) : OutcomeFits (execFlog2 f s) :=
  outcomeFits_sfu h

theorem outcomeFits_execFsin {f : FArgs} {s : State} (h : MaskInv s) : OutcomeFits (execFsin f s) :=
  outcomeFits_sfu h

theorem outcomeFits_execFcos {f : FArgs} {s : State} (h : MaskInv s) : OutcomeFits (execFcos f s) :=
  outcomeFits_sfu h

theorem outcomeFits_execFtanh {f : FArgs} {s : State} (h : MaskInv s) : OutcomeFits (execFtanh f s) :=
  outcomeFits_sfu h

/-! ### The slots of a P pair (R63 to R66) -/

theorem agentFits_slotWrite {old a : Agent} {p : PSlot} (fits1 : AgentFits a) : AgentFits (slotWrite old a p) :=
  agentFits_congr (agentFits_regPut fits1) rfl

theorem outcomeFits_execPPair {p : PArgs} {s : State} (h : MaskInv s) : OutcomeFits (execPPair p s) :=
  outcomeFits_issue h (fun _ _ h1 fits => actFits_onAgent (fun _ fits1 => agentFits_slotWrite (agentFits_slotWrite fits1)) h1 fits)

/-! ### The accesses of the teams (R171) -/

theorem actFits_tileIssue {i : Instr} {f : FArgs} {s : State} {a : Agent} {bad : Bool} {reads : Option LAEntry} (h : MaskInv s)
    (fits : AgentFits a) : ActFits (tileIssue i f s a bad reads) := by
  unfold tileIssue
  extract_lets t x _ _ queued r done
  have hq : MaskInv queued := maskInv_of_agents h rfl
  have hd : MaskInv done := maskInv_setCore h
  refine actFits_ite trivial (actFits_ite trivial (actFits_ite ?_ ?_))
  · split
    · exact hq
    · exact hq
  · split
    · exact hd
    · exact maskInv_setMe hd (agentFits_congr fits rfl)

theorem outcomeFits_execAccrd {f : FArgs} {s : State} (h : MaskInv s) : OutcomeFits (execAccrd f s) :=
  outcomeFits_issue h (fun _ _ h1 fits => actFits_tileIssue h1 fits)

theorem outcomeFits_execAccwr {f : FArgs} {s : State} (h : MaskInv s) : OutcomeFits (execAccwr f s) :=
  outcomeFits_issue h (fun _ _ h1 fits => actFits_tileIssue h1 fits)

theorem outcomeFits_execRowst {f : FArgs} {s : State} (h : MaskInv s) : OutcomeFits (execRowst f s) :=
  outcomeFits_issue h (fun _ _ h1 fits => actFits_tileIssue h1 fits)

theorem outcomeFits_execAccsc {f : FArgs} {s : State} (h : MaskInv s) : OutcomeFits (execAccsc f s) :=
  outcomeFits_issue h (fun _ _ h1 fits => actFits_tileIssue h1 fits)

theorem maskInv_performTile {s : State} {c : Nat} {x : TileAccess} (h : MaskInv s) : MaskInv (performTile s c x) := by
  unfold performTile
  extract_lets
  split
  · exact maskInv_modAgent (maskInv_setCore h) (fun _ fits => agentFits_congr fits rfl)
  · exact maskInv_setCore h
  · exact maskInv_modAgent (maskInv_setCore h) (fun _ fits => agentFits_congr fits rfl)

theorem maskInv_drainTiles {s : State} {c : Nat} (h : MaskInv s) : MaskInv (drainTiles s c) :=
  maskInv_foldl (fun _ _ h1 => maskInv_performTile h1) h

theorem outcomeFits_execTileAccessPerformed {c : Nat} {s : State} (h : MaskInv s) : OutcomeFits (execTileAccessPerformed c s) := by
  unfold execTileAccessPerformed
  split
  · exact h
  · exact outcomeFits_ite h (maskInv_performTile h)

/-! ### Enqueuing (R154) -/

theorem actFits_enqueue {s : State} {a : Agent} {op : Instr} {d : Reg} {ops : List Word} {cmask : Nat} {table : List Byte} {count : Bool}
    (h : MaskInv s) (fits : AgentFits a) : ActFits (enqueue s a op d ops cmask table count) := by
  unfold enqueue
  extract_lets t b ticket e c
  have ht : MaskInv t := maskInv_drainScratch (maskInv_setMe h fits)
  have hc : AgentFits c := agentFits_sPut (agentFits_me ht)
  clear_value c
  exact maskInv_setMe ht (agentFits_congr hc rfl)

theorem actFits_withBook {s : State} {a : Agent} {slot : Nat} {go : State → Agent → List Byte → Act} (h : MaskInv s) (fits : AgentFits a)
    (keep : ∀ (a : State) (a_1 : Agent) (a_2 : List Byte), MaskInv a → AgentFits a_1 → ActFits (go a a_1 a_2)) :
    ActFits (withBook s a slot go) :=
  actFits_withRead h fits (fun _ _ _ h1 fits1 => keep _ _ _ h1 fits1)

theorem actFits_withTable {addr e per groups : Nat} {go : State → Agent → List Byte → Act}
    (keep : ∀ s a bs, MaskInv s → AgentFits a → ActFits (go s a bs)) : ∀ {n j : Nat} {s : State} {a : Agent} {acc : List Byte},
    MaskInv s → AgentFits a → ActFits (withTable addr e per groups n j s a acc go)
  | 0, _, _, _, _, h, fits => keep _ _ _ h fits
  | _ + 1, _, _, _, _, h, fits => actFits_withRead h fits fun _ _ _ h fits => actFits_withTable keep h fits

theorem actFits_mmaIssue {op : Instr} {l : LArgs} {s : State} {a : Agent} (h : MaskInv s) (fits : AgentFits a) : ActFits (mmaIssue op l s a)
   := by
  unfold mmaIssue
  extract_lets
  refine actFits_ite h ?_
  refine actFits_ite h ?_
  split
  · exact trivial
  · refine actFits_ite trivial ?_
    refine actFits_ite trivial ?_
    split
    · exact trivial
    · refine actFits_withBook h fits ?_
      intro _ _ _ h1 fits1
      refine actFits_withBook h1 fits1 ?_
      intro _ _ _ h2 fits2
      split
      · exact actFits_withTable (fun _ _ _ h3 fits3 => actFits_enqueue h3 fits3) h2 fits2
      · exact actFits_enqueue h2 fits2

theorem outcomeFits_execMxMma {l : LArgs} {s : State} (h : MaskInv s) : OutcomeFits (execMxMma l s) :=
  outcomeFits_issue h (fun _ _ h1 fits => actFits_mmaIssue h1 fits)

theorem outcomeFits_execMxSmma {l : LArgs} {s : State} (h : MaskInv s) : OutcomeFits (execMxSmma l s) :=
  outcomeFits_issue h (fun _ _ h1 fits => actFits_mmaIssue h1 fits)

theorem outcomeFits_execMxQmma {l : LArgs} {s : State} (h : MaskInv s) : OutcomeFits (execMxQmma l s) :=
  outcomeFits_issue h (fun _ _ h1 fits => actFits_mmaIssue h1 fits)

theorem actFits_accIssue {op : Instr} {l : LArgs} {store : Bool} {s : State} {a : Agent} (h : MaskInv s) (fits : AgentFits a) :
    ActFits (accIssue op l store s a) := by
  unfold accIssue
  extract_lets
  refine actFits_ite h ?_
  refine actFits_ite h ?_
  split
  · exact trivial
  · refine actFits_ite trivial ?_
    refine actFits_ite trivial ?_
    split
    · exact trivial
    · exact actFits_ite (actFits_enqueue h fits) (actFits_withBook h fits (fun _ _ _ h1 fits1 => actFits_enqueue h1 fits1))

theorem outcomeFits_execMxLdacc {l : LArgs} {s : State} (h : MaskInv s) : OutcomeFits (execMxLdacc l s) :=
  outcomeFits_issue h (fun _ _ h1 fits => actFits_accIssue h1 fits)

theorem outcomeFits_execMxStacc {l : LArgs} {s : State} (h : MaskInv s) : OutcomeFits (execMxStacc l s) :=
  outcomeFits_issue h (fun _ _ h1 fits => actFits_accIssue h1 fits)

theorem actFits_tileOpIssue {op : Instr} {f : FArgs} {s : State} {a : Agent} (h : MaskInv s) (fits : AgentFits a) :
    ActFits (tileOpIssue op f s a) := by
  unfold tileOpIssue
  extract_lets
  refine actFits_ite h ?_
  refine actFits_ite h ?_
  split
  · exact trivial
  · exact actFits_enqueue h fits

theorem outcomeFits_execMxZero {f : FArgs} {s : State} (h : MaskInv s) : OutcomeFits (execMxZero f s) :=
  outcomeFits_issue h (fun _ _ h1 fits => actFits_tileOpIssue h1 fits)

theorem outcomeFits_execMxScale {f : FArgs} {s : State} (h : MaskInv s) : OutcomeFits (execMxScale f s) :=
  outcomeFits_issue h (fun _ _ h1 fits => actFits_tileOpIssue h1 fits)

/-! ### Steps (R155 to R159, R162 to R167) -/

theorem maskInv_loosenTile {s : State} {g c : Nat} {ia : Image} {cols t n : Nat} (h : MaskInv s) : MaskInv (loosenTile s g c ia cols t n) :=
  maskInv_foldl (fun _ _ h1 => maskInv_used (maskInv_setCore h1)) h

theorem maskInv_mmaStep {s : State} {a : Agent} {e : MxEntry} {l : LArgs} (h : MaskInv s) : MaskInv (mmaStep s a e l) :=
  maskInv_foldl (fun _ _ h1 => maskInv_loosenTile (maskInv_setCore h1)) h

theorem maskInv_ldaccStep {s : State} {a : Agent} {e : MxEntry} {l : LArgs} (h : MaskInv s) : MaskInv (ldaccStep s a e l) :=
  maskInv_foldl (fun _ _ h1 => maskInv_setCore h1) h

theorem maskInv_staccCore {s : State} {a : Agent} {e : MxEntry} {l : LArgs} {m : Image} {c : Nat} (h : MaskInv s) :
    MaskInv (staccCore s a e l m c) :=
  maskInv_ite (maskInv_foldl (fun _ _ h1 => maskInv_scratchWrite h1) h)
    (maskInv_scratchWrite (maskInv_foldl (fun _ _ h1 => maskInv_scratchWrite h1) h))

theorem maskInv_staccStep {s : State} {a : Agent} {e : MxEntry} {l : LArgs} (h : MaskInv s) : MaskInv (staccStep s a e l) :=
  maskInv_foldl (fun _ _ h1 => maskInv_staccCore h1) h

theorem maskInv_mxEffect {s : State} {a : Agent} {e : MxEntry} (h : MaskInv s) : MaskInv (mxEffect s a e) := by
  unfold mxEffect
  extract_lets
  split
  · exact maskInv_foldl (fun _ _ h1 => maskInv_setCore h1) h
  · exact maskInv_foldl (fun _ _ h1 => maskInv_setCore h1) h
  · exact maskInv_mmaStep h
  · exact maskInv_mmaStep h
  · exact maskInv_mmaStep h
  · exact maskInv_ldaccStep h
  · exact maskInv_staccStep h
  · exact h

theorem maskInv_loosenWhole {t : Nat} {s : State} {core : Nat} (h : MaskInv s) : MaskInv (loosenWhole t s core) :=
  maskInv_of_agents h rfl

theorem agentFits_putMx {a : Agent} {e : MxEntry} (h : AgentFits a) : AgentFits (putMx a e) :=
  agentFits_congr h rfl

theorem agentFits_dropMx {a : Agent} {t : Word} (h : AgentFits a) : AgentFits (dropMx a t) :=
  agentFits_congr h rfl

/-! ### Races with operand images (R176) -/

theorem maskInv_loosenCells {s : State} {core t : Nat} {cells : List (Nat × Nat)} (h : MaskInv s) : MaskInv (loosenCells s core t cells) :=
  maskInv_ite h (maskInv_used (maskInv_setCore h))

theorem maskInv_loosenRaced {s : State} {a : Agent} {e : MxEntry} {cs : List Nat} (h : MaskInv s) : MaskInv (loosenRaced s a e cs) :=
  maskInv_foldl (fun _ _ h1 => maskInv_foldl (fun _ _ h2 => maskInv_loosenCells h2) h1) h

theorem maskInv_joinEntry {a : Agent} {s : State} {e : MxEntry} (h : MaskInv s) : MaskInv (joinEntry a s e) :=
  maskInv_ite h (maskInv_foldl (fun _ _ h1 => maskInv_foldl (fun _ _ h2 => maskInv_loosenCells h2) h1) h)

theorem maskInv_joinMx {s : State} {k : Nat} {p : MxEntry → Bool} (h : MaskInv s) : MaskInv (joinMx s k p) :=
  maskInv_modAgent (maskInv_foldl (fun _ _ h1 => maskInv_joinEntry h1) h) (fun _ fits => agentFits_congr fits rfl)

theorem outcomeFits_execMxDispatch {k : Nat} {t : Word} {s : State} (h : MaskInv s) : OutcomeFits (execMxDispatch k t s) := by
  unfold execMxDispatch
  extract_lets
  split
  · exact h
  · exact outcomeFits_ite h (maskInv_setAgent (maskInv_foldl (fun _ _ h1 => maskInv_drainTiles h1) h)
      (agentFits_putMx (agentFits_agent (maskInv_foldl (fun _ _ h1 => maskInv_drainTiles h1) h))))

theorem outcomeFits_execMxStep {k : Nat} {t : Word} {s : State} (h : MaskInv s) : OutcomeFits (execMxStep k t s) := by
  unfold execMxStep
  extract_lets a dropped
  have fits : AgentFits a := agentFits_agent h
  have hd : AgentFits dropped := agentFits_dropMx fits
  split
  · exact h
  · rename_i e _
    refine outcomeFits_ite h ?_
    split
    · exact maskInv_setAgent h (agentFits_congr hd rfl)
    · extract_lets bad u v b known
      have hu : MaskInv u := maskInv_loosenRaced (maskInv_mxEffect h)
      have hv : MaskInv v := maskInv_foldl (fun _ _ h => maskInv_foldl (fun _ _ h => maskInv_loosenWhole h) h) hu
      have hb : AgentFits b := agentFits_putMx (agentFits_agent hv)
      clear_value bad
      split
      · exact maskInv_setAgent hv (agentFits_ite hb (agentFits_congr hb rfl))
      · exact maskInv_setAgent hv hb

theorem outcomeFits_execMxEntryComplete {k : Nat} {t : Word} {s : State} (h : MaskInv s) : OutcomeFits (execMxEntryComplete k t s) := by
  unfold execMxEntryComplete
  extract_lets
  split
  · exact h
  · exact outcomeFits_ite (maskInv_setAgent h (agentFits_dropMx (agentFits_agent h))) h

/-! ### Waiting, querying, cancelling, binding (R147, R168 to R170) -/

theorem outcomeFits_execMxWait {f : FArgs} {s : State} (h : MaskInv s) : OutcomeFits (execMxWait f s) := by
  unfold execMxWait
  refine outcomeFits_issue h ?_
  intro _ _ h1 fits
  extract_lets
  refine actFits_ite h1 ?_
  refine actFits_ite h1 ?_
  split
  · exact maskInv_setMe h1 (agentFits_congr fits rfl)
  · exact maskInv_openJoin (maskInv_joinMx h1)

theorem outcomeFits_execMxQ {f : FArgs} {s : State} (h : MaskInv s) : OutcomeFits (execMxQ f s) :=
  outcomeFits_issue h (fun _ _ h1 fits => actFits_ite h1 (maskInv_setMe h1 (agentFits_wrN fits)))

theorem outcomeFits_execMxCancel {f : FArgs} {s : State} (h : MaskInv s) : OutcomeFits (execMxCancel f s) :=
  outcomeFits_issue h (fun _ _ h1 fits => actFits_ite h1 (maskInv_setMe h1 (agentFits_congr (agentFits_wrN fits) rfl)))

theorem maskInv_bindArrays {s : State} {g fresh : Nat} (h : MaskInv s) : MaskInv (bindArrays s g fresh) :=
  maskInv_foldl (fun _ _ h1 => maskInv_setCore (maskInv_drainTiles h1)) h

theorem outcomeFits_execMxBind {f : FArgs} {s : State} (h : MaskInv s) : OutcomeFits (execMxBind f s) :=
  outcomeFits_issue h
    (fun _ _ h1 _ => actFits_ite h1
    (actFits_ite h1 (maskInv_setMe (maskInv_bindArrays (maskInv_foldl (fun _ _ h2 => maskInv_drainTiles h2) h1))
    (agentFits_congr (agentFits_wrN (agentFits_me (maskInv_bindArrays (maskInv_foldl (fun _ _ h2 => maskInv_drainTiles h2) h1)))) rfl))))

/-! ### The end of an agent (R117, R168) -/

theorem outcomeFits_execExit {f : FArgs} {s : State} (h : MaskInv s) : OutcomeFits (execExit f s) := by
  unfold execExit
  refine outcomeFits_issue h ?_
  intro _ _ h1 fits
  refine actFits_ite h1 ?_
  refine actFits_ite h1 ?_
  split
  · exact maskInv_setMe h1 (agentFits_congr fits rfl)
  · exact actFits_ite h1
      (actFits_beforeClose (maskInv_joinMx h1)
      (fun _ h2 => actFits_ite h2 (actFits_ite (maskInv_closeNow h2) (maskInv_dropAgent (maskInv_closeNow h2)))))

/-! ### Bank modes -/

theorem actFits_bankset {s : State} {a : Agent} {sel m : Nat} (h : MaskInv s) (fits : AgentFits a) : ActFits (bankset s a sel m) :=
  actFits_ite trivial (actFits_ite h (maskInv_setMe (maskInv_setCore h) (agentFits_congr fits rfl)))

theorem outcomeFits_execBankset {f : FArgs} {s : State} (h : MaskInv s) : OutcomeFits (execBankset f s) :=
  outcomeFits_issue h (fun _ _ h1 fits => actFits_ite h1 (actFits_bankset h1 fits))

theorem maskInv_resumeAfter {s : State} {k : Nat} (h : MaskInv s) : MaskInv (resumeAfter s k) :=
  maskInv_writeEnded (maskInv_setAgent h (agentFits_congr (agentFits_agent h) rfl))

theorem outcomeFits_execBankDrainEnd {k : Nat} {s : State} (h : MaskInv s) : OutcomeFits (execBankDrainEnd k s) := by
  unfold execBankDrainEnd
  split
  · exact maskInv_resumeAfter h
  · exact h

/-! ### Child grids -/

theorem actFits_launchAt {f : FArgs} {s : State} {a : Agent} {addr : Nat} (h : MaskInv s) (fits : AgentFits a) :
    ActFits (launchAt f s a addr) :=
  actFits_ite trivial
    (actFits_withRead h fits
    (fun _ _ _ h1 fits1 => actFits_ite trivial
    (actFits_ite h1
    (actFits_ite (maskInv_addGrid (maskInv_pushAll (maskInv_drainAll (maskInv_setMe (maskInv_of_agents h1 rfl) (agentFits_wrN fits1)))))
    (maskInv_setMe (maskInv_of_agents h1 rfl) (agentFits_congr (agentFits_wrN fits1) rfl))))))

theorem outcomeFits_execLaunch {f : FArgs} {s : State} (h : MaskInv s) : OutcomeFits (execLaunch f s) := by
  unfold execLaunch
  refine outcomeFits_issue h ?_
  intro _ _ h1 fits
  split
  · exact h1
  · exact actFits_ite h1 (actFits_launchAt h1 fits)

theorem outcomeFits_execCwait {f : FArgs} {s : State} (h : MaskInv s) : OutcomeFits (execCwait f s) :=
  outcomeFits_issue h
    (fun _ _ h1 fits => actFits_ite h1
    (actFits_ite (actFits_holdOnce h1) (maskInv_openJoin (maskInv_setMe h1 (agentFits_congr (agentFits_wrN fits) rfl)))))

/-! ### CLR.CLAIM and CLR.FREE (R276, R277) -/

theorem outcomeFits_execClrClaim {f : FArgs} {s : State} (h : MaskInv s) : OutcomeFits (execClrClaim f s) :=
  outcomeFits_issue h
    (fun _ _ h1 fits => actFits_ite h1
    (actFits_ite (maskInv_setMe h1 (agentFits_wrN fits))
    (maskInv_setMe (maskInv_used (maskInv_setClearing h1)) (agentFits_congr fits rfl))))

theorem outcomeFits_execClaimDrainEnd {k : Nat} {s : State} (h : MaskInv s) : OutcomeFits (execClaimDrainEnd k s) := by
  unfold execClaimDrainEnd
  extract_lets
  split
  · exact maskInv_resumeAfter (maskInv_setAgent (maskInv_setClearing h) (agentFits_wrN (agentFits_agent h)))
  · exact h

theorem actFits_freeStep {s : State} {i : Nat} (h : MaskInv s) : ActFits (freeStep s i) :=
  actFits_ite (maskInv_freeClearing (maskInv_setMe h (agentFits_congr (agentFits_me h) rfl)))
    (actFits_holdOnce (maskInv_setMe h (agentFits_congr (agentFits_me h) rfl)))

theorem outcomeFits_execClrFree {f : FArgs} {s : State} (h : MaskInv s) : OutcomeFits (execClrFree f s) := by
  unfold execClrFree
  refine outcomeFits_issue h ?_
  intro _ _ h1 _
  refine actFits_ite h1 ?_
  split
  · exact actFits_freeStep h1
  · split
    · exact trivial
    · exact actFits_freeStep (maskInv_setClearing h1)

/-! ### Mat commands (R275, R278 to R282) -/

theorem actFits_withClearing {s : State} {a : Agent} {h : Nat} {go : Nat → Clearing → Act}
    (keep : ∀ (a : Nat) (a_1 : Clearing), ActFits (go a a_1)) : ActFits (withClearing s a h go) := by
  unfold withClearing
  split
  · exact trivial
  · exact actFits_ite trivial (keep _ _)

theorem actFits_queueMats {s : State} {a : Agent} {h : Nat} {mats : List Nat} {job : MatJob} {go : State → Act} (inv : MaskInv s)
    (keep : ∀ (a : State), MaskInv a → ActFits (go a)) : ActFits (queueMats s a h mats job go) :=
  actFits_ite inv (keep _ (maskInv_of_agents (maskInv_pushAll (maskInv_drainAll inv)) rfl))

theorem actFits_transfer {i : Instr} {l : LArgs} {p : Perm} {job : List (Nat × Nat × Nat × Nat) → MatJob} {s : State} {a : Agent}
    (h : MaskInv s) (fits : AgentFits a) : ActFits (transfer i l p job s a) := by
  unfold transfer
  extract_lets
  refine actFits_ite h ?_
  refine actFits_withClearing ?_
  intro _ _
  refine actFits_ite trivial ?_
  split
  · exact trivial
  · split
    · exact trivial
    · split
      · exact trivial
      · split
        · exact actFits_heldFault h (agentFits_congr fits rfl)
        · exact actFits_queueMats (maskInv_fillTlbs h) (fun _ h1 => h1)

theorem outcomeFits_execClrTload {l : LArgs} {s : State} (h : MaskInv s) : OutcomeFits (execClrTload l s) :=
  outcomeFits_issue h (fun _ _ h1 fits => actFits_transfer h1 fits)

theorem outcomeFits_execClrTstore {l : LArgs} {s : State} (h : MaskInv s) : OutcomeFits (execClrTstore l s) :=
  outcomeFits_issue h (fun _ _ h1 fits => actFits_transfer h1 fits)

theorem outcomeFits_execClrCall {l : LArgs} {s : State} (h : MaskInv s) : OutcomeFits (execClrCall l s) := by
  unfold execClrCall
  refine outcomeFits_issue h ?_
  intro _ _ h1 _
  extract_lets
  refine actFits_ite h1 ?_
  refine actFits_withClearing ?_
  intro _ _
  refine actFits_ite trivial ?_
  split
  · exact trivial
  · exact actFits_queueMats h1 (fun _ h2 => h2)

theorem outcomeFits_execClrPred {f : FArgs} {s : State} (h : MaskInv s) : OutcomeFits (execClrPred f s) := by
  unfold execClrPred
  refine outcomeFits_issue h ?_
  intro _ _ h1 _
  extract_lets
  refine actFits_ite h1 ?_
  refine actFits_withClearing ?_
  intro _ _
  split
  · exact trivial
  · exact actFits_queueMats h1 (fun _ h2 => h2)

theorem outcomeFits_execClrRdrow {f : FArgs} {s : State} (h : MaskInv s) : OutcomeFits (execClrRdrow f s) := by
  unfold execClrRdrow
  refine outcomeFits_issue h ?_
  intro _ _ h1 _
  extract_lets
  refine actFits_ite h1 ?_
  refine actFits_withClearing ?_
  intro _ _
  split
  · exact trivial
  · exact actFits_queueMats h1 (fun _ h2 => h2)

/-! ### Mats, and races with CLR.TLOAD (R205, R291) -/

theorem maskInv_setMat {s : State} {i m : Nat} {x : Mat} (h : MaskInv s) : MaskInv (setMat s i m x) :=
  maskInv_of_agents h rfl

theorem maskInv_loosenBand {i row w : Nat} {hit : Nat → Bool} {s : State} {m : Nat} (h : MaskInv s) : MaskInv (loosenBand i row w hit s m)
   :=
  maskInv_ite (maskInv_used (maskInv_setMat h)) h

theorem maskInv_joinMats {s : State} {cs : List (Nat × MatCmd)} (h : MaskInv s) : MaskInv (joinMats s cs) := by
  unfold joinMats
  refine maskInv_foldl ?_ h
  intro _ _ h1
  split
  · exact maskInv_foldl (fun _ _ h2 => maskInv_loosenBand h2) h1
  · exact h1

/-! ### CLR.WAIT and CLR.Q (R283, R284) -/

theorem outcomeFits_execClrWait {f : FArgs} {s : State} (h : MaskInv s) : OutcomeFits (execClrWait f s) := by
  unfold execClrWait
  refine outcomeFits_issue h ?_
  intro _ _ h1 _
  extract_lets
  refine actFits_ite h1 ?_
  split
  · exact trivial
  · refine actFits_ite h1 ?_
    split
    · exact maskInv_of_agents h1 rfl
    · exact maskInv_openJoin (maskInv_setMe (maskInv_of_agents (maskInv_joinMats h1) rfl)
        (agentFits_wrN (agentFits_me (maskInv_of_agents (maskInv_joinMats h1) rfl))))

theorem outcomeFits_execClrQ {f : FArgs} {s : State} (h : MaskInv s) : OutcomeFits (execClrQ f s) := by
  unfold execClrQ
  refine outcomeFits_issue h ?_
  intro _ _ h1 fits
  extract_lets
  refine actFits_ite h1 ?_
  refine actFits_ite (maskInv_setMe h1 (agentFits_wrN fits)) ?_
  refine actFits_ite (maskInv_setMe h1 (agentFits_wrN fits)) ?_
  refine actFits_ite (maskInv_setMe h1 (agentFits_wrN fits)) ?_
  split
  · exact trivial
  · exact actFits_ite (maskInv_setMe h1 (agentFits_wrN fits))
      (actFits_ite (maskInv_setMe h1 (agentFits_wrN fits)) (maskInv_setMe h1 (agentFits_wrN fits)))

/-! ### CLR.CSLOAD (R271, R272) -/

theorem maskInv_loadImage {s : State} {img : List Byte} (h : MaskInv s) : MaskInv (loadImage s img) :=
  maskInv_of_agents h rfl

theorem outcomeFits_execClrCsload {f : FArgs} {s : State} (h : MaskInv s) : OutcomeFits (execClrCsload f s) :=
  outcomeFits_issue h
    (fun _ _ h1 fits => actFits_ite h1
    (actFits_ite trivial
    (actFits_withRead h1 fits (fun _ _ _ h2 fits1 => actFits_ite (maskInv_setMe h2 (agentFits_wrN fits1))
    (actFits_ite (maskInv_setMe h2 (agentFits_wrN fits1))
    (actFits_withRead h2 fits1 (fun _ _ _ h3 fits2 => maskInv_setMe h3 (agentFits_congr fits2 rfl))))))))

theorem outcomeFits_execControlStoreLoadEnd {k : Nat} {ok : Bool} {s : State} (h : MaskInv s) : OutcomeFits (execControlStoreLoadEnd k ok s)
   := by
  unfold execControlStoreLoadEnd
  extract_lets
  split
  · exact maskInv_resumeAfter (maskInv_setAgent (maskInv_ite (maskInv_loadImage h) h) (agentFits_wrN (agentFits_agent h)))
  · exact h

/-! ### The sequencers (R286 to R291) -/

theorem maskInv_recordStatus {s : State} {id code addr : Nat} (h : MaskInv s) : MaskInv (recordStatus s id code addr) := by
  unfold recordStatus
  split
  · exact h
  · exact maskInv_ite h (maskInv_of_agents h rfl)

theorem maskInv_loadLane {i id row w e : Nat} {s : State} {c : MatCmd} {ln : Nat × Nat × Nat × Nat} (h : MaskInv s) :
    MaskInv (loadLane i id row w e s c ln) := by
  unfold loadLane
  extract_lets lost value free m t
  have ht : MaskInv t := maskInv_loosenBand (maskInv_used (maskInv_setMat h))
  clear_value lost
  split
  · exact ht
  · exact maskInv_recordStatus ht

theorem maskInv_storeLanes {i id row w e : Nat} {pm sx : Bool} {s : State} {c : MatCmd} {slice : Nat}
    {lanes : List (Nat × Nat × Nat × Nat)} (h : MaskInv s) : MaskInv (storeLanes i id row w e pm sx s c slice lanes) := by
  unfold storeLanes
  extract_lets here elsewhere all ok cells shared t u v x
  have ht : MaskInv t := maskInv_foldl (fun _ _ h => maskInv_flushAll h) h
  have hu : MaskInv u := maskInv_noteWhole (maskInv_softwareWrote (maskInv_supersede ht))
  have hv : MaskInv v := maskInv_placeHome hu
  clear_value v
  have hx : MaskInv x := by
    unfold x
    split
    · exact maskInv_of_agents hv rfl
    · exact hv
  clear_value x
  split
  · exact hx
  · exact maskInv_recordStatus hx

theorem maskInv_callMat {i entry : Nat} {p : CallArgs} {s : State} {m : Nat} (h : MaskInv s) : MaskInv (callMat i entry p s m) := by
  unfold callMat
  extract_lets
  refine maskInv_ite (maskInv_ite (maskInv_used (maskInv_setMat h)) (maskInv_used (maskInv_setMat h))) ?_
  split
  · exact maskInv_used (maskInv_setMat h)
  · exact maskInv_used (maskInv_setMat h)

theorem maskInv_fillRead {s : State} {k token : Nat} {vals : List (Nat × Nat)} (h : MaskInv s) : MaskInv (fillRead s k token vals) := by
  unfold fillRead
  split
  · exact h
  · rename_i e
    exact maskInv_setAgent h (agentFits_congr (agentFits_find h e) rfl)

theorem maskInv_matJob {s : State} {i id slice : Nat} {c : MatCmd} (h : MaskInv s) : MaskInv (matJob s i id slice c) := by
  unfold matJob
  split
  · exact maskInv_foldl (fun _ _ h1 => maskInv_loadLane h1) h
  · exact maskInv_storeLanes h
  · exact maskInv_foldl (fun _ _ h1 => maskInv_callMat h1) h
  · exact maskInv_foldl (fun _ _ h1 => maskInv_setMat h1) h
  · exact maskInv_fillRead h

theorem maskInv_endInSlice {s : State} {id slice : Nat} (h : MaskInv s) : MaskInv (endInSlice s id slice) := by
  unfold endInSlice
  extract_lets
  split
  · exact maskInv_of_agents h rfl
  · exact maskInv_settleFrees (maskInv_ite (maskInv_of_agents (maskInv_of_agents h rfl) rfl)
      (maskInv_of_agents (maskInv_of_agents h rfl) rfl))

theorem maskInv_resolveJob {s : State} {c : MatCmd} {slice : Nat} (h : MaskInv s) : MaskInv (resolveJob s c slice) := by
  unfold resolveJob
  split
  · exact maskInv_resolveEngine h
  · exact h

theorem outcomeFits_execSequencerCommand {slice : Nat} {s : State} (h : MaskInv s) : OutcomeFits (execSequencerCommand slice s) := by
  unfold execSequencerCommand
  split
  · exact h
  · extract_lets
    split
    · exact maskInv_fetchLine h
    · exact outcomeFits_ite h (maskInv_endInSlice (maskInv_matJob (maskInv_resolveJob h)))

theorem maskInv_looseRead {s : State} {c : MatCmd} (h : MaskInv s) : MaskInv (looseRead s c) := by
  unfold looseRead
  split
  · rename_i e2
    exact maskInv_setAgent h (agentFits_congr (agentFits_find h e2) rfl)
  · exact h

theorem maskInv_discardCmd {s : State} {id code : Nat} (h : MaskInv s) : MaskInv (discardCmd s id code) := by
  unfold discardCmd
  split
  · exact h
  · exact maskInv_foldl (fun _ _ h1 => maskInv_endInSlice h1) (maskInv_looseRead (maskInv_recordStatus h))

theorem outcomeFits_execClearingWatchdogTrip {slice : Nat} {s : State} (h : MaskInv s) :
    OutcomeFits (execClearingWatchdogTrip slice s) := by
  unfold execClearingWatchdogTrip
  split
  · exact h
  · exact outcomeFits_ite h
      (maskInv_logEvent
      (maskInv_used
      (maskInv_setClearing (maskInv_foldl (fun _ _ h1 => maskInv_discardCmd h1) (maskInv_discardCmd (maskInv_recordStatus h))))))

/-! ### CVT (R104, R105) -/

theorem outcomeFits_execCvt {f : FArgs} {s : State} (h : MaskInv s) : OutcomeFits (execCvt f s) :=
  outcomeFits_aluFlags h

/-! ### CVTQ and CVTD (R106) -/

theorem agentFits_foldStats {a : Agent} {q : QStat} (h : AgentFits a) : AgentFits (foldStats a q) :=
  agentFits_congr h rfl

theorem agentFits_quantise {cb : List Byte} {slot : Nat} {f : FArgs} {a : Agent} (fits : AgentFits a) :
    AgentFits (quantise cb slot f a) := by
  unfold quantise
  extract_lets i fm ls x stat y z
  have hx : AgentFits x := agentFits_wrLanes fits
  have hy : AgentFits y := agentFits_congr hx rfl
  have hz : AgentFits z := agentFits_ite (agentFits_foldStats hy) hy
  exact agentFits_ite (agentFits_congr hz rfl) hz

theorem agentFits_dequantise {cb : List Byte} {slot : Nat} {f : FArgs} {a : Agent} (fits : AgentFits a) : AgentFits (dequantise cb slot f a)
   :=
  agentFits_congr (agentFits_foldl (fun _ _ fits1 => agentFits_wrN fits1) fits) rfl

theorem actFits_slotConvert {f : FArgs} {nd na : Nat → Nat} {go : List Byte → Nat → Agent → Agent} {s : State} {a : Agent}
    (keep : ∀ (a : List Byte) (a_1 : Nat) (a_2 : Agent), AgentFits a_2 → AgentFits (go a a_1 a_2)) (h : MaskInv s) (fits : AgentFits a) :
    ActFits (slotConvert f nd na go s a) :=
  actFits_ite trivial (actFits_ite trivial (actFits_withRead h fits (fun _ _ _ h1 fits1 => maskInv_setMe h1 (keep _ _ _ fits1))))

theorem outcomeFits_execCvtq {f : FArgs} {s : State} (h : MaskInv s) : OutcomeFits (execCvtq f s) :=
  outcomeFits_issue h (fun _ _ h1 fits => actFits_slotConvert (fun _ _ _ fits1 => agentFits_quantise fits1) h1 fits)

theorem outcomeFits_execCvtd {f : FArgs} {s : State} (h : MaskInv s) : OutcomeFits (execCvtd f s) :=
  outcomeFits_issue h (fun _ _ h1 fits => actFits_slotConvert (fun _ _ _ fits1 => agentFits_dequantise fits1) h1 fits)

/-! ### PACK and UNPK (R107) -/

theorem outcomeFits_execPack {f : FArgs} {s : State} (h : MaskInv s) : OutcomeFits (execPack f s) :=
  outcomeFits_aluFlags h

theorem outcomeFits_execUnpk {f : FArgs} {s : State} (h : MaskInv s) : OutcomeFits (execUnpk f s) :=
  outcomeFits_alu h

/-! ### Writing an area (R335) -/

theorem maskInv_poolSave {s : State} {k : Nat} (h : MaskInv s) : MaskInv (poolSave s k) :=
  maskInv_ite (maskInv_of_agents h rfl) h

end Sys2Proof.Machine
end

section
/-! SUPPORT. What the machine's own events leave of the masks of teams (R24, R29): answers, save and reload (which cut what they read
to the team's lanes), the front end, the distributor, the fabric, and the step that chooses among them. -/

namespace Sys2Proof.Machine

open Sys2Proof.Safety

/-! ### Long-latency results (R38 to R43, R71, R195) -/

theorem agentFits_unpark {e : LAEntry} {a : Agent} (fits : AgentFits a) : AgentFits (unpark e a) :=
  agentFits_ite fits (agentFits_ite (agentFits_congr fits rfl) (agentFits_ite (agentFits_congr fits rfl) fits))

theorem maskInv_earlyResult {s : State} {k : Nat} {e : LAEntry} (h : MaskInv s) : MaskInv (earlyResult s k e) :=
  maskInv_modAgent h (fun _ fits => agentFits_congr fits rfl)

theorem maskInv_completeEntry {s : State} {k : Nat} {e : LAEntry} (h : MaskInv s) : MaskInv (completeEntry s k e) :=
  maskInv_ite (maskInv_earlyResult h)
    (maskInv_setAgent (maskInv_writeEntry h) (agentFits_unpark (agentFits_congr (agentFits_agent (maskInv_writeEntry h)) rfl)))

theorem outcomeFits_execLongLatencyCompletion {k token : Nat} {s : State} (h : MaskInv s) :
    OutcomeFits (execLongLatencyCompletion k token s) := by
  unfold execLongLatencyCompletion
  split
  · exact h
  · exact outcomeFits_ite h (maskInv_poolSave (maskInv_completeEntry h))

/-! ### Posting (R321, R322) -/

theorem maskInv_physWrite {s : State} {asid pa : Nat} {bs : List Byte} (h : MaskInv s) : MaskInv (physWrite s asid pa bs) :=
  maskInv_placeFrom h

theorem maskInv_postRecord {s : State} {r : FaultRec} (h : MaskInv s) : MaskInv (postRecord s r) :=
  maskInv_ite
    (maskInv_raiseMsix (maskInv_ite (maskInv_physWrite (maskInv_physWrite (maskInv_of_agents h rfl)))
    (maskInv_strongAt (maskInv_flushAll (maskInv_physWrite (maskInv_physWrite (maskInv_of_agents h rfl)))))))
    (maskInv_ite (maskInv_physWrite (maskInv_physWrite (maskInv_of_agents h rfl)))
    (maskInv_strongAt (maskInv_flushAll (maskInv_physWrite (maskInv_physWrite (maskInv_of_agents h rfl))))))

theorem maskInv_countFull {s : State} {r : FaultRec} (h : MaskInv s) : MaskInv (countFull s r) :=
  maskInv_logEvent (maskInv_of_agents h rfl)

/-! ### Answers (R323) -/

theorem maskInv_rejectSide {s : State} {k : Nat} {c : Cause} {va : Nat} (h : MaskInv s) : MaskInv (rejectSide s k c va) := by
  unfold rejectSide
  extract_lets a gone holds core t u b v
  have ht : MaskInv t := maskInv_setCore h
  have ha : AgentFits a := agentFits_agent h
  have hu : MaskInv u := maskInv_setAgent ht (agentFits_congr ha rfl)
  have hb : AgentFits b := agentFits_agent hu
  have hv : MaskInv v := by
    refine maskInv_ite hu (maskInv_ite ?_ ?_)
    · exact maskInv_takeTrap (maskInv_setAgent hu (agentFits_reissue hb))
    · exact maskInv_setAgent hu (agentFits_congr hb rfl)
  exact maskInv_releaseSide hv

theorem maskInv_stopQueue {s : State} {q : Nat} (h : MaskInv s) : MaskInv (stopQueue s q) :=
  maskInv_of_agents h rfl

theorem maskInv_endCopyFault {s : State} {id : Nat} (h : MaskInv s) : MaskInv (endCopyFault s id) := by
  unfold endCopyFault
  split
  · exact h
  · split
    · exact maskInv_completeCmd (maskInv_of_agents h rfl)
    · exact maskInv_abortGrid h

theorem maskInv_answerRetry {s : State} {r : FaultRec} (h : MaskInv s) : MaskInv (answerRetry s r) := by
  unfold answerRetry
  split
  · exact maskInv_ite (maskInv_setAgent h (agentFits_reissue (agentFits_agent h))) h
  · exact h
  · split
    · exact h
    · exact maskInv_of_agents h rfl
  · exact maskInv_of_agents h rfl
  · exact h

theorem maskInv_answerReject {s : State} {r : FaultRec} (h : MaskInv s) : MaskInv (answerReject s r) := by
  unfold answerReject
  split
  · exact maskInv_ite (maskInv_settleFrees (maskInv_takeTrap (maskInv_setAgent h (agentFits_reissue (agentFits_agent h))))) h
  · exact maskInv_rejectSide h
  · exact maskInv_endCopyFault h
  · exact maskInv_stopQueue h
  · exact h

theorem maskInv_answerAbort {s : State} {r : FaultRec} (h : MaskInv s) : MaskInv (answerAbort s r) := by
  unfold answerAbort
  split
  · exact maskInv_abortGrid h
  · exact maskInv_abortGrid h
  · exact maskInv_endCopyFault h
  · exact maskInv_stopQueue h
  · exact h

theorem maskInv_answered {s : State} {asid index : Nat} {act : State → FaultRec → State} (h : MaskInv s)
    (keep : ∀ (a : State) (a_1 : FaultRec), MaskInv a → MaskInv (act a a_1)) : MaskInv (answered s asid index act) := by
  unfold answered
  split
  · exact h
  · exact keep _ _ (maskInv_of_agents h rfl)

theorem outcomeFits_execFaultrespRetry {asid index : Nat} {s : State} (h : MaskInv s) : OutcomeFits (execFaultrespRetry asid index s) :=
  maskInv_answered h (fun _ _ h1 => maskInv_answerRetry h1)

theorem outcomeFits_execFaultrespReject {asid index : Nat} {s : State} (h : MaskInv s) : OutcomeFits (execFaultrespReject asid index s) :=
  maskInv_answered h (fun _ _ h1 => maskInv_answerReject h1)

theorem outcomeFits_execFaultrespAbort {asid index : Nat} {s : State} (h : MaskInv s) : OutcomeFits (execFaultrespAbort asid index s) :=
  maskInv_answered h (fun _ _ h1 => maskInv_answerAbort h1)

theorem maskInv_writeFaultresp {s : State} {v : Nat} (h : MaskInv s) : MaskInv (writeFaultresp s v) := by
  unfold writeFaultresp
  extract_lets
  split
  · exact maskInv_answered h (fun _ _ h1 => maskInv_answerRetry h1)
  · exact maskInv_answered h (fun _ _ h1 => maskInv_answerReject h1)
  · exact maskInv_answered h (fun _ _ h1 => maskInv_answerAbort h1)
  · exact h

theorem outcomeFits_execFaultRecordPost {asid : Nat} {s : State} (h : MaskInv s) : OutcomeFits (execFaultRecordPost asid s) := by
  unfold execFaultRecordPost
  extract_lets waits
  clear_value waits
  split
  · exact h
  · rename_i r _
    have hr : MaskInv { s with faults := s.faults.erase r } := maskInv_of_agents h rfl
    refine outcomeFits_ite (maskInv_answerReject hr) (outcomeFits_ite (maskInv_postRecord h) ?_)
    split
    · exact h
    · exact maskInv_countFull h

theorem maskInv_clearFqovf {s : State} (h : MaskInv s) : MaskInv (clearFqovf s) :=
  maskInv_of_agents h rfl

theorem outcomeFits_execFqovfClear {s : State} (h : MaskInv s) : OutcomeFits (execFqovfClear s) :=
  maskInv_clearFqovf h

/-! ### Replay (R325) -/

theorem agentFits_replayInto {e : SideEntry} {cells : List Host.Cell} {a : Agent} (fits : AgentFits a) :
    AgentFits (replayInto e cells a) := by
  unfold replayInto
  extract_lets
  split
  · exact agentFits_congr (agentFits_congr fits rfl) rfl
  · exact agentFits_ite (agentFits_congr (agentFits_congr (agentFits_congr fits rfl) rfl) rfl)
      (agentFits_congr (agentFits_congr (agentFits_congr fits rfl) rfl) rfl)

theorem maskInv_replayViews {s : State} {k seq : Nat} {cells : List Host.Cell} (h : MaskInv s) : MaskInv (replayViews s k seq cells) :=
  maskInv_of_agents h rfl

theorem maskInv_replayStore {s : State} {k : Nat} {e : SideEntry} {xs : List (Nat × Nat)} (h : MaskInv s) : MaskInv (replayStore s k e xs)
   :=
  maskInv_softwareWroteAt
    (maskInv_replayViews (maskInv_setAgent h (agentFits_congr (agentFits_spoilOwn (agentFits_replayInto (agentFits_agent h))) rfl)))

theorem maskInv_replayEntry {s t : State} {k : Nat} {e : SideEntry} (h : MaskInv s) (he : replayEntry s k e = .ok t) : MaskInv t := by
  unfold replayEntry at he
  extract_lets a vas at he
  split at he
  · split at he
    · exact nomatch he
    · exact Except.ok.inj he ▸ maskInv_of_agents h rfl
  · split at he
    · exact nomatch he
    · exact Except.ok.inj he ▸ maskInv_replayStore h

theorem maskInv_dropEntry {s : State} {k : Nat} {e : SideEntry} (h : MaskInv s) : MaskInv (dropEntry s k e) :=
  maskInv_of_agents h rfl

theorem maskInv_replayAll {k : Nat} : ∀ {es : List SideEntry} {s : State}, MaskInv s → MaskInv (replayAll s k es)
  | [], _, h => h
  | e :: es, s, h => by
    unfold replayAll
    split
    · rename_i t ht
      exact maskInv_replayAll (maskInv_dropEntry (maskInv_replayEntry h ht))
    · exact maskInv_ite (maskInv_addFault h) (maskInv_rejectSide h)

theorem outcomeFits_execSideLogReplay {k page : Nat} {s : State} (h : MaskInv s) : OutcomeFits (execSideLogReplay k page s) :=
  outcomeFits_ite h (maskInv_releaseSide (maskInv_replayAll h))

/-! ### Reading an area back (R338) -/

theorem entryFits_entryOfBytes {a : Agent} {b : List Byte} : EntryFits a (entryOfBytes a b) := ⟨maskFits_teamLanes, maskFits_teamLanes⟩

theorem agentFits_loadAllowed {t : Agent} {b : List Byte} {extra : Nat → MaskEntry} (fits : AgentFits t)
    (more : ∀ n, EntryFits t (extra n)) :
    AgentFits (loadAllowed t b extra) := by
  obtain ⟨-, entries⟩ := agentFits_iff.mp fits
  have spilled : ∀ e ∈ spilledAfter t (sliceN b 0x88 4) extra, EntryFits t e := by
    intro e he
    unfold spilledAfter at he
    extract_lets had at he
    split at he
    · exact entries e (List.mem_append_right _ (List.mem_of_mem_drop he))
    · obtain he | he := List.mem_append.mp he
      · obtain ⟨i, -, rfl⟩ := List.mem_map.mp (List.mem_reverse.mp he)
        exact more _
      · exact entries e (List.mem_append_right _ he)
  refine agentFits_iff.mpr ⟨maskFits_teamLanes, fun e he => ?_⟩
  obtain he | he := List.mem_append.mp he
  · obtain ⟨i, -, rfl⟩ := List.mem_map.mp (List.mem_reverse.mp he)
    exact entryFits_entryOfBytes
  · exact spilled e he

theorem agentFits_loadForbidden {s : State} {b : List Byte} {t : Agent} (fits : AgentFits t) : AgentFits (loadForbidden s b t) := by
  unfold loadForbidden
  extract_lets chg bit wake loose sleep refused park watch overflow arrived
  have h : AgentFits wake := agentFits_ite (agentFits_congr fits rfl) fits
  have h : AgentFits loose := agentFits_ite (agentFits_congr h rfl) h
  have h : AgentFits sleep := agentFits_ite (agentFits_congr h rfl) h
  have h : AgentFits refused := agentFits_ite (agentFits_congr h rfl) h
  have h : AgentFits park := agentFits_ite (agentFits_congr h rfl) h
  have h : AgentFits watch := agentFits_ite (agentFits_congr h rfl) h
  have h : AgentFits overflow := agentFits_ite (agentFits_congr h rfl) h
  have h : AgentFits arrived := agentFits_ite (agentFits_congr h rfl) h
  exact agentFits_ite (agentFits_congr h rfl) h

theorem maskInv_loadSide {s : State} {b : List Byte} {k : Nat} {t : Agent} (h : MaskInv s) : MaskInv (loadSide s b k t) :=
  maskInv_ite h (maskInv_setCore h)

theorem maskInv_leaveSaved {s : State} {k : Nat} {ends : Bool} (h : MaskInv s) : MaskInv (leaveSaved s k ends) := by
  unfold leaveSaved
  extract_lets a back b u t
  have ha : AgentFits a := agentFits_agent h
  have hb : AgentFits b := agentFits_congr ha rfl
  have hu : MaskInv u := maskInv_setAgent h hb
  have ht : MaskInv t := maskInv_of_agents hu rfl
  exact maskInv_ite (maskInv_openPhase (maskInv_setAgent ht (agentFits_congr hb rfl))) ht

/-! ### CTXSV and CTXLD -/

theorem maskInv_writeDone {s : State} {k : Nat} (h : MaskInv s) : MaskInv (writeDone s k) :=
  maskInv_foldl (fun _ _ h1 => maskInv_writeEntry h1) (maskInv_modAgent h (fun _ fits => agentFits_congr fits rfl))

theorem actFits_withArea {a : Agent} {f : FArgs} {go : Nat → Nat → Act} (keep : ∀ (a a_1 : Nat), ActFits (go a a_1)) :
    ActFits (withArea a f go) :=
  actFits_ite trivial (actFits_ite trivial (keep _ _))

theorem actFits_ctxStatus {s : State} {f : FArgs} {n : Nat} (h : MaskInv s) : ActFits (ctxStatus s f n) :=
  maskInv_setMe h (agentFits_wrN (agentFits_congr (agentFits_me h) rfl))

theorem outcomeFits_execCtxsv {f : FArgs} {s : State} (h : MaskInv s) : OutcomeFits (execCtxsv f s) := by
  unfold execCtxsv
  refine outcomeFits_issue h ?_
  intro _ _ h1 fits
  refine actFits_ite h1 ?_
  refine actFits_withArea ?_
  intro _ _
  split
  · exact actFits_ctxStatus h1
  · extract_lets
    refine actFits_ite (actFits_ctxStatus h1) ?_
    refine actFits_ite (maskInv_setMe h1 (agentFits_congr fits rfl)) ?_
    split
    · exact trivial
    · exact actFits_afterReds (maskInv_writeDone h1)
        (fun _ h2 => actFits_ctxStatus (maskInv_setAgent (maskInv_performStore h2 (agentFits_me h2))
        (agentFits_congr (agentFits_congr (agentFits_agent (maskInv_writeDone h1)) rfl) rfl)))

theorem entryFits_spilledEntry {s : State} {a t : Agent} {n : Nat} : EntryFits t (spilledEntry s a t n) := by
  unfold spilledEntry
  split
  · exact entryFits_entryOfBytes
  · exact ⟨maskFits_zero, maskFits_zero⟩

theorem maskInv_reloadTeam {s : State} {a t : Agent} {k : Nat} {b : List Byte} (h : MaskInv s) (fits : AgentFits t) :
    MaskInv (reloadTeam s a k t b) := by
  unfold reloadTeam
  extract_lets u v
  have hu : AgentFits u := agentFits_loadForbidden (agentFits_loadAllowed fits fun _ => entryFits_spilledEntry)
  have hv : AgentFits v := agentFits_ite hu (agentFits_congr hu rfl)
  exact maskInv_leaveSaved (maskInv_used (maskInv_setAgent (maskInv_loadSide h) hv))

theorem outcomeFits_execCtxld {f : FArgs} {s : State} (h : MaskInv s) : OutcomeFits (execCtxld f s) := by
  unfold execCtxld
  refine outcomeFits_issue h ?_
  intro _ _ h1 fits
  refine actFits_ite h1 ?_
  refine actFits_withArea ?_
  intro _ _
  split
  · exact actFits_ctxStatus h1
  · exact actFits_ite (actFits_ctxStatus h1)
      (actFits_withRead h1 fits (fun _ _ _ h2 fits1 => actFits_ite (actFits_ctxStatus (maskInv_setMe h2 fits1))
      (actFits_ctxStatus (maskInv_reloadTeam (maskInv_setMe h2 fits1) (agentFits_agent h1)))))

/-! ### Queue registers (R294); before STAGE reads 15 no write of one has an effect (R391) -/

theorem maskInv_setQueue {s : State} {q : Nat} {x : Queue} (h : MaskInv s) : MaskInv (s.setQueue q x) :=
  maskInv_of_agents h rfl

theorem maskInv_forgetQueue {s : State} {q : Nat} (h : MaskInv s) : MaskInv (forgetQueue s q) :=
  maskInv_of_agents h rfl

theorem maskInv_enableQueue {s : State} {q : Nat} {v : Word} (h : MaskInv s) : MaskInv (enableQueue s q v) :=
  maskInv_ite h (maskInv_ite (maskInv_setQueue h) (maskInv_setQueue h))

theorem maskInv_disableQueue {s : State} {q : Nat} {v : Word} (h : MaskInv s) : MaskInv (disableQueue s q v) :=
  maskInv_ite h (maskInv_setQueue (maskInv_forgetQueue h))

theorem outcomeFits_execQctlEnable {q : Nat} {v : Word} {s : State} (h : MaskInv s) : OutcomeFits (execQctlEnable q v s) :=
  maskInv_enableQueue h

theorem outcomeFits_execQctlDisable {q : Nat} {v : Word} {s : State} (h : MaskInv s) : OutcomeFits (execQctlDisable q v s) :=
  maskInv_disableQueue h

theorem maskInv_writeQtail {s : State} {q v : Nat} (h : MaskInv s) : MaskInv (writeQtail s q v) :=
  maskInv_ite h (maskInv_setQueue h)

theorem outcomeFits_execQtailDoorbell {q : Nat} {v : Word} {s : State} (h : MaskInv s) : OutcomeFits (execQtailDoorbell q v s) :=
  maskInv_foldl (fun _ _ h1 => maskInv_writeQtail h1) h

/-! ### The front end's own accesses (R297, R314) -/

theorem maskInv_frontRead {s : State} {asid va n : Nat} (h : MaskInv s) : MaskInv (frontRead s asid va n).1 := by
  unfold frontRead
  dsimp only
  split
  · exact maskInv_fillTlbs (maskInv_resolveEngine (maskInv_foldl (fun _ _ h => maskInv_flushAll h) h))
  · exact h

/-! ### Take-up (R295) -/

theorem maskInv_readSlot {s : State} {x : Queue} (h : MaskInv s) : MaskInv (readSlot s x).1 := by
  unfold readSlot
  split
  · exact maskInv_frontRead h
  · exact h

theorem maskInv_setCmd {s : State} {c : Nat} {x : Cmd} (h : MaskInv s) : MaskInv (s.setCmd c x) :=
  maskInv_of_agents h rfl

theorem maskInv_beginCmd {s : State} {c : Nat} {x : Cmd} (h : MaskInv s) : MaskInv (beginCmd s c x) :=
  maskInv_of_agents h rfl

theorem maskInv_readRecord {s : State} {c : Nat} {x : Cmd} (h : MaskInv s) : MaskInv (readRecord s c x) := by
  unfold readRecord
  extract_lets
  refine maskInv_ite (maskInv_setCmd h) ?_
  split
  · exact maskInv_ite (maskInv_setCmd (maskInv_frontRead h)) (maskInv_setCmd (maskInv_frontRead h))
  · exact maskInv_setCmd (maskInv_frontRead h)
  · exact maskInv_setCmd (maskInv_frontRead h)
  · exact maskInv_setCmd (maskInv_frontRead h)
  · exact maskInv_fetchLine (maskInv_frontRead h)
  · exact maskInv_frontRead h

theorem maskInv_endUnknown {s : State} {q : Nat} (h : MaskInv s) : MaskInv (endUnknown s q) := by
  unfold endUnknown
  split
  · exact h
  · exact maskInv_completeCmd (maskInv_beginCmd h)

theorem maskInv_takeUp {s : State} {q : Nat} {x : Queue} {bytes : List Byte} (h : MaskInv s) : MaskInv (takeUp s q x bytes) :=
  maskInv_ite (maskInv_readRecord (maskInv_setQueue (maskInv_of_agents h rfl)))
    (maskInv_endUnknown (maskInv_setQueue (maskInv_of_agents h rfl)))

theorem outcomeFits_execCommandTakeUp {q : Nat} {s : State} (h : MaskInv s) : OutcomeFits (execCommandTakeUp q s) := by
  unfold execCommandTakeUp
  extract_lets
  refine outcomeFits_ite (maskInv_endUnknown h) ?_
  split
  · exact maskInv_takeUp (maskInv_readSlot (maskInv_endUnknown h))
  · exact outcomeFits_ite (maskInv_addFault (maskInv_setQueue (maskInv_readSlot (maskInv_endUnknown h))))
      (maskInv_stopQueue (maskInv_readSlot (maskInv_endUnknown h)))
  · exact maskInv_stopQueue (maskInv_readSlot (maskInv_endUnknown h))
  · exact maskInv_setQueue (maskInv_readSlot (maskInv_endUnknown h))
  · exact maskInv_fetchLine (maskInv_readSlot (maskInv_endUnknown h))
  · exact maskInv_readSlot (maskInv_endUnknown h)

/-! ### Commands -/

theorem outcomeFits_onCmd {s : State} {c op : Nat} {last : Bool} {go : Cmd → State → State} (h : MaskInv s)
    (keep : ∀ (a : Cmd) (a_1 : State), MaskInv a_1 → MaskInv (go a a_1)) : OutcomeFits (onCmd s c op last go) := by
  unfold onCmd
  split
  · exact h
  · exact outcomeFits_ite (keep _ _ (maskInv_beginCmd h)) h

theorem maskInv_launchGrid {s : State} {c : Nat} {x : Cmd} (h : MaskInv s) : MaskInv (launchGrid s c x) := by
  unfold launchGrid
  extract_lets
  split
  · exact maskInv_ite (maskInv_completeCmd h) (maskInv_addGrid h)
  · exact maskInv_completeCmd h

theorem outcomeFits_execLaunchCommand {c : Nat} {s : State} (h : MaskInv s) : OutcomeFits (execLaunchCommand c s) := by
  unfold execLaunchCommand
  split
  · exact h
  · exact outcomeFits_ite h (outcomeFits_ite (maskInv_readRecord h) (outcomeFits_onCmd h (fun _ _ h1 => maskInv_launchGrid h1)))

/-- However an access of a semaphore ends, it leaves fitting masks. -/
def SemFits : SemGot → Prop
  | .value t _ | .fail t _ | .sent t => MaskInv t

theorem semFits_semAccess {s : State} {c asid va op v ord : Nat} (h : MaskInv s) : SemFits (semAccess s c asid va op v ord) := by
  unfold semAccess
  split
  · exact h
  · extract_lets u r w m
    have hu : MaskInv u := maskInv_fillTlb h
    have hw : MaskInv w := maskInv_flushAll hu
    split_ifs
    · cases r.err
      · exact maskInv_strongAt hw
      · exact maskInv_strongAt hw
    · exact maskInv_sendOp hw
    · exact hu

theorem maskInv_semAccess_value {s t : State} {c asid va op v ord old : Nat} (h : MaskInv s)
    (e : semAccess s c asid va op v ord = .value t old) :
    MaskInv t := by
  have done := semFits_semAccess (c := c) (asid := asid) (va := va) (op := op) (v := v) (ord := ord) h
  rwa [e] at done

theorem maskInv_semAccess_fail {s t : State} {c asid va op v ord : Nat} {why : Cause} (h : MaskInv s)
    (e : semAccess s c asid va op v ord = .fail t why) : MaskInv t := by
  have done := semFits_semAccess (c := c) (asid := asid) (va := va) (op := op) (v := v) (ord := ord) h
  rwa [e] at done

theorem maskInv_semAccess_sent {s t : State} {c asid va op v ord : Nat} (h : MaskInv s) (e : semAccess s c asid va op v ord = .sent t) :
    MaskInv t := by
  have done := semFits_semAccess (c := c) (asid := asid) (va := va) (op := op) (v := v) (ord := ord) h
  rwa [e] at done

theorem maskInv_signalAccess {c : Nat} {x : Cmd} {t : State} (h : MaskInv t) : MaskInv (signalAccess c x t) := by
  unfold signalAccess
  refine maskInv_ite (maskInv_completeCmd h) ?_
  split
  · rename_i e
    exact maskInv_completeCmd (maskInv_semAccess_value h e)
  · rename_i e2
    exact maskInv_completeCmd (maskInv_semAccess_fail h e2)
  · rename_i e
    exact maskInv_semAccess_sent h e

theorem outcomeFits_execSignal {c : Nat} {s : State} (h : MaskInv s) : OutcomeFits (execSignal c s) := by
  unfold execSignal
  split
  · exact h
  · exact outcomeFits_ite h
      (outcomeFits_ite (maskInv_carryClosed h) (outcomeFits_onCmd (maskInv_carryClosed h) (fun _ _ h1 => maskInv_signalAccess h1)))

theorem maskInv_readSemaphore {s : State} {c : Nat} {x : Cmd} (h : MaskInv s) : MaskInv (readSemaphore s c x) := by
  unfold readSemaphore
  extract_lets
  split
  · rename_i e
    exact maskInv_ite (maskInv_completeCmd (maskInv_semAccess_value (maskInv_setCmd h) e)) (maskInv_semAccess_value (maskInv_setCmd h) e)
  · rename_i e3
    exact maskInv_completeCmd (maskInv_semAccess_fail (maskInv_setCmd h) e3)
  · rename_i e
    exact maskInv_semAccess_sent (maskInv_setCmd h) e

theorem outcomeFits_execWaitsig {c : Nat} {s : State} (h : MaskInv s) : OutcomeFits (execWaitsig c s) :=
  outcomeFits_onCmd h (fun _ _ h1 => maskInv_ite (maskInv_completeCmd h1) (maskInv_readSemaphore h1))

theorem outcomeFits_execWaitsigReread {c : Nat} {s : State} (h : MaskInv s) : OutcomeFits (execWaitsigReread c s) := by
  unfold execWaitsigReread
  split
  · exact h
  · exact outcomeFits_ite (maskInv_readSemaphore h) h

theorem outcomeFits_execCopy {c : Nat} {s : State} (h : MaskInv s) : OutcomeFits (execCopy c s) :=
  outcomeFits_onCmd h (fun _ _ h1 => maskInv_ite (maskInv_completeCmd h1) (maskInv_of_agents h1 rfl))

/-! ### Dependences (R302 to R304) -/

theorem maskInv_failGrid {s : State} {k : Nat} {g : Grid} {status : Nat} (h : MaskInv s) : MaskInv (failGrid s k g status) := by
  unfold failGrid
  extract_lets
  split
  · exact maskInv_of_agents h rfl
  · exact maskInv_completeCmd (maskInv_of_agents h rfl)

theorem maskInv_evaluateOne {k : Nat} {s : State} {w : Nat} (h : MaskInv s) : MaskInv (evaluateOne k s w) := by
  unfold evaluateOne
  split
  · exact h
  · refine maskInv_ite h ?_
    split
    · exact maskInv_of_agents h rfl
    · exact h
    · exact maskInv_failGrid h
    · exact maskInv_fetchLine h

theorem outcomeFits_execDependenceEvaluation {k : Nat} {s : State} (h : MaskInv s) : OutcomeFits (execDependenceEvaluation k s) := by
  unfold execDependenceEvaluation
  split
  · exact h
  · exact outcomeFits_ite h (maskInv_foldl (fun _ _ h1 => maskInv_evaluateOne h1) h)

/-! ### The next action of the distributor (R308 to R310) -/

theorem maskInv_freeReservation {s : State} (h : MaskInv s) : MaskInv (freeReservation s) :=
  maskInv_of_agents h rfl

theorem maskInv_dropReservation {s : State} (h : MaskInv s) : MaskInv (dropReservation s) := by
  unfold dropReservation
  split
  · exact h
  · exact maskInv_ite (maskInv_freeReservation h) h

/-! ### Placing (R16, R33, R182, R305) -/

theorem maskInv_takeBanks {s : State} {r : List Byte} {g asid : Nat} (h : MaskInv s) : MaskInv (takeBanks s r g asid) :=
  maskInv_used (maskInv_foldl (fun _ _ h1 => maskInv_setCore h1) h)

theorem agentFits_newAgent {s : State} {g : Grid} {k wg w teamId role grove : Nat} {x : Seat} :
    AgentFits (newAgent s g k wg w teamId role grove x) := by
  refine agentFits_iff.mpr ⟨fun team => ?_, fun e he => nomatch he⟩
  have seated : x.forester = false := by
    cases hx : x.forester
    · rfl
    · simp [newAgent, hx] at team
  have mask : (newAgent s g k wg w teamId role grove x).mask = teamLanes (newAgent s g k wg w teamId role grove x) := by
    simp [newAgent, seated, teamLanes]
  rw [mask]
  exact BitVec.and_not_self _

theorem maskInv_foldl_put {ags : List (Nat × Agent)} {s t : State} (h : MaskInv s) (fits : ∀ e ∈ ags, AgentFits e.2)
    (ht : t.agents = ags.foldl (fun (u : Tab Agent) (e : Nat × Agent) => Tab.put u e.1 e.2) s.agents) : MaskInv t := by
  induction ags generalizing s with
  | nil => exact maskInv_of_agents h ht
  | cons e ags ih =>
    exact ih (s := s.setAgent e.1 e.2) (maskInv_setAgent h (fits e List.mem_cons_self)) (fun x hx => fits x (List.mem_cons_of_mem _ hx)) ht

theorem maskInv_placeWg {s : State} {k : Nat} {g : Grid} {x : Reserved} (h : MaskInv s) : MaskInv (placeWg s k g x) := by
  unfold placeWg
  extract_lets wg roles w ags t u v
  have ht : MaskInv t := maskInv_takeBanks h
  have fits : ∀ e ∈ ags, AgentFits e.2 := fun e he => by
    obtain ⟨y, -, rfl⟩ := List.mem_map.mp he
    exact agentFits_newAgent
  have hu : MaskInv u := maskInv_foldl_put ht fits rfl
  exact maskInv_foldl (fun _ _ h => maskInv_openPhase h) (maskInv_setGrove hu)

theorem maskInv_placeAll {s : State} {k : Nat} {xs : List Reserved} (h : MaskInv s) : MaskInv (placeAll s k xs) := by
  unfold placeAll
  split
  · exact h
  · exact maskInv_foldl (fun _ _ h1 => maskInv_placeWg h1) (maskInv_of_agents h rfl)

theorem maskInv_reserveStep {s : State} {c : Cand} {xs : List Reserved} {commit : State → List Reserved → State} (h : MaskInv s)
    (keep : ∀ (a : State) (a_1 : List Reserved), MaskInv a → MaskInv (commit a a_1)) : MaskInv (reserveStep s c xs commit) :=
  maskInv_ite (keep _ _ (maskInv_ite (maskInv_freeReservation h) h))
    (maskInv_foldl (fun _ _ h1 => maskInv_setGrove h1) (maskInv_of_agents h rfl))

theorem outcomeFits_execPlacement {s : State} (h : MaskInv s) : OutcomeFits (execPlacement s) := by
  unfold execPlacement
  extract_lets
  split
  · exact outcomeFits_ite (maskInv_reserveStep (maskInv_dropReservation h) (fun _ _ h1 => maskInv_placeAll h1)) h
  · exact h

theorem outcomeFits_execGangReservation {s : State} (h : MaskInv s) : OutcomeFits (execGangReservation s) := by
  unfold execGangReservation
  extract_lets
  split
  · exact outcomeFits_ite (maskInv_reserveStep (maskInv_dropReservation h) (fun _ _ h1 => maskInv_placeAll h1)) h
  · exact h

/-! ### Pre-emption (R47, R158, R182, R213, R230, R310, R334) -/

theorem maskInv_saveAgent {s : State} {k : Nat} (h : MaskInv s) : MaskInv (saveAgent s k) := by
  unfold saveAgent
  extract_lets a c team saved bound held t
  have fits : AgentFits a := agentFits_agent h
  have hs : AgentFits saved := agentFits_ite (agentFits_congr fits rfl) (agentFits_congr fits rfl)
  have hh : AgentFits held := agentFits_congr hs rfl
  exact maskInv_poolSave (maskInv_setAgent (maskInv_ite (maskInv_setCore h) h) hh)

theorem maskInv_saveWg {s : State} {w : Nat} (h : MaskInv s) : MaskInv (saveWg s w) := by
  unfold saveWg
  split
  · exact h
  · refine maskInv_ite h ?_
    extract_lets r asid t gr mine x u
    have ht : MaskInv t := maskInv_pushStaging (maskInv_foldl (fun _ _ h => maskInv_drainAll h) h)
    have hu : MaskInv u := maskInv_setGrove ht
    clear_value u
    exact maskInv_releaseSide (maskInv_foldl (fun _ _ h => maskInv_saveAgent h) (maskInv_of_agents hu rfl))

theorem outcomeFits_execPreemption {s : State} (h : MaskInv s) : OutcomeFits (execPreemption s) := by
  unfold execPreemption
  split
  · exact outcomeFits_ite (maskInv_foldl (fun _ _ h1 => maskInv_saveWg h1) (maskInv_dropReservation h)) h
  · exact h

/-! ### Restore (R23, R149, R182, R213, R334) -/

theorem maskInv_restoreBank {g asid : Nat} {s : State} {b : BankSave} (h : MaskInv s) : MaskInv (restoreBank g asid s b) :=
  maskInv_of_agents h rfl

theorem maskInv_seatAgent {s : State} {g k : Nat} {x : Seat} (h : MaskInv s) : MaskInv (seatAgent s g k x) :=
  maskInv_ite
    (maskInv_setAgent (maskInv_of_agents (maskInv_ite (maskInv_foldl (fun _ _ h1 => maskInv_setCore h1) h) (maskInv_setCore h)) rfl)
    (agentFits_congr (agentFits_agent h) rfl))
    (maskInv_leaveSaved
    (maskInv_setAgent (maskInv_of_agents (maskInv_ite (maskInv_foldl (fun _ _ h1 => maskInv_setCore h1) h) (maskInv_setCore h)) rfl)
    (agentFits_congr (agentFits_agent h) rfl)))

theorem maskInv_restoreWg {s : State} {w : Nat} {x : Reserved} (h : MaskInv s) : MaskInv (restoreWg s w x) := by
  unfold restoreWg
  split
  · exact h
  · extract_lets asid t gr u v
    have ht : MaskInv t := maskInv_foldl (fun _ _ h => maskInv_restoreBank h) (maskInv_pushAll h)
    have hu : MaskInv u := maskInv_setGrove ht
    have hv : MaskInv v := maskInv_of_agents hu rfl
    exact maskInv_foldl (fun _ _ h => maskInv_seatAgent h) hv

theorem maskInv_restoreAll {c : Cand} {s : State} {xs : List Reserved} (h : MaskInv s) : MaskInv (restoreAll c s xs) := by
  unfold restoreAll
  refine maskInv_foldl ?_ h
  intro _ _ h1
  split
  · exact maskInv_restoreWg h1
  · exact h1

theorem outcomeFits_execRestore {s : State} (h : MaskInv s) : OutcomeFits (execRestore s) := by
  unfold execRestore
  extract_lets
  split
  · exact outcomeFits_ite h (maskInv_reserveStep (maskInv_dropReservation h) (fun _ _ h1 => maskInv_restoreAll h1))
  · exact h

/-! ### Retirement (R20, R21, R304 to R306, R399) -/

theorem maskInv_earnStatus {s : State} {k status : Nat} (h : MaskInv s) : MaskInv (earnStatus s k status) := by
  unfold earnStatus
  split
  · exact h
  · exact maskInv_ite (maskInv_of_agents h rfl) h

theorem maskInv_retireClose {s : State} {k asid : Nat} (h : MaskInv s) : MaskInv (retireClose s k asid) :=
  maskInv_ite (maskInv_earnStatus (maskInv_foldl (fun _ _ h1 => maskInv_pushHeld h1) (maskInv_pushAll h)))
    (maskInv_foldl (fun _ _ h1 => maskInv_pushHeld h1) (maskInv_pushAll h))

theorem maskInv_setDoneBit {s : State} {k asid scope cbmap w : Nat} (h : MaskInv s) : MaskInv (setDoneBit s k asid scope cbmap w) := by
  unfold setDoneBit
  extract_lets
  split
  · exact maskInv_earnStatus h
  · refine maskInv_ite ?_ (maskInv_ite (maskInv_sendOp h) (maskInv_earnStatus h))
    extract_lets
    split
    · exact maskInv_earnStatus (maskInv_strongAt (maskInv_flushAll h))
    · exact maskInv_fillTlb (maskInv_strongAt (maskInv_flushAll h))

theorem maskInv_freeWg {s : State} {w : Nat} (h : MaskInv s) : MaskInv (freeWg s w) :=
  maskInv_of_agents (maskInv_joinMats (maskInv_joinCopies h)) rfl

theorem outcomeFits_execWorkgroupRetirement {w : Nat} {s : State} (h : MaskInv s) : OutcomeFits (execWorkgroupRetirement w s) := by
  unfold execWorkgroupRetirement
  split
  · exact h
  · split
    · exact h
    · refine outcomeFits_ite h ?_
      extract_lets
      refine outcomeFits_ite (maskInv_retireClose h) ?_
      split
      · exact maskInv_freeWg (maskInv_ite (maskInv_retireClose h) (maskInv_setDoneBit (maskInv_retireClose h)))
      · exact maskInv_of_agents (maskInv_freeWg (maskInv_ite (maskInv_retireClose h) (maskInv_setDoneBit (maskInv_retireClose h)))) rfl

theorem maskInv_joinMembers {s : State} {g : Grid} (h : MaskInv s) : MaskInv (joinMembers s g) := by
  unfold joinMembers
  split
  · exact h
  · exact maskInv_of_agents h rfl

theorem outcomeFits_execGridRetirement {k : Nat} {s : State} (h : MaskInv s) : OutcomeFits (execGridRetirement k s) := by
  unfold execGridRetirement
  split
  · exact h
  · refine outcomeFits_ite h ?_
    extract_lets t status u
    have ht : MaskInv t := maskInv_retireClose h
    clear_value t
    have hu : MaskInv u := by
      unfold u
      split
      · exact ht
      · exact maskInv_completeCmd ht
    clear_value u
    exact outcomeFits_ite ht (maskInv_joinMembers (maskInv_of_agents hu rfl))

/-! ### The topology commands (R379 to R383) -/

theorem outcomeFits_onTopology {s : State} {c op : Nat} {go : Cmd → State → State} (h : MaskInv s)
    (keep : ∀ (a : Cmd) (a_1 : State), MaskInv a_1 → MaskInv (go a a_1)) : OutcomeFits (onTopology s c op go) :=
  outcomeFits_onCmd h (fun _ _ h1 => maskInv_ite (maskInv_completeCmd h1) (keep _ _ h1))

/-! ### Draining and training (R380, R381) -/

theorem maskInv_endDrain {s : State} {p : Nat} (h : MaskInv s) : MaskInv (endDrain s p) :=
  maskInv_ite (maskInv_foldl (fun _ _ h1 => maskInv_completeCmd h1) (maskInv_setPort h)) h

theorem maskInv_runPortCmd {s : State} {c : Nat} {x : Cmd} (h : MaskInv s) : MaskInv (runPortCmd s c x) :=
  maskInv_of_agents h rfl

theorem outcomeFits_execPortdrain {c : Nat} {s : State} (h : MaskInv s) : OutcomeFits (execPortdrain c s) :=
  outcomeFits_onTopology h (fun _ _ h1 => maskInv_ite (maskInv_completeCmd h1) (maskInv_endDrain (maskInv_setPort (maskInv_runPortCmd h1))))

theorem outcomeFits_execPorttrain {c : Nat} {s : State} (h : MaskInv s) : OutcomeFits (execPorttrain c s) :=
  outcomeFits_onTopology h
    (fun _ _ h1 => maskInv_ite (maskInv_completeCmd h1)
    (maskInv_ite (maskInv_completeCmd h1) (maskInv_sendManagement (maskInv_setPort (maskInv_runPortCmd h1)))))

theorem outcomeFits_execPortCommandTimeout {c : Nat} {s : State} (h : MaskInv s) : OutcomeFits (execPortCommandTimeout c s) := by
  unfold execPortCommandTimeout
  split
  · exact h
  · exact outcomeFits_ite h (maskInv_completeCmd (maskInv_setPort h))

theorem maskInv_decideWidth {s : State} {p w : Nat} (h : MaskInv s) : MaskInv (decideWidth s p w) :=
  maskInv_sendManagement (maskInv_setPort h)

theorem outcomeFits_execManagementFrame {p neighbour w : Nat} {s : State} (h : MaskInv s) :
    OutcomeFits (execManagementFrame p neighbour w s) :=
  outcomeFits_ite h (outcomeFits_ite (maskInv_foldl (fun _ _ h1 => maskInv_completeCmd h1) (maskInv_refillPort (maskInv_setPort h)))
    (outcomeFits_ite (maskInv_setPort h) h))

/-! ### Route tables (R372, R373, R382, R383) -/

theorem maskInv_cmdRead {s : State} {c : Nat} {x : Cmd} {va n : Nat} {go : State → List Byte → State} (h : MaskInv s)
    (keep : ∀ (a : State) (a_1 : List Byte), MaskInv a → MaskInv (go a a_1)) : MaskInv (cmdRead s c x va n go) := by
  unfold cmdRead
  extract_lets
  split
  · exact keep _ _ (maskInv_frontRead h)
  · exact maskInv_completeCmd (maskInv_frontRead h)
  · exact maskInv_completeCmd (maskInv_frontRead h)
  · exact maskInv_completeCmd (maskInv_frontRead h)
  · exact maskInv_fetchLine (maskInv_setCmd h)
  · exact maskInv_frontRead h

theorem outcomeFits_execRouteload {c : Nat} {s : State} (h : MaskInv s) : OutcomeFits (execRouteload c s) :=
  outcomeFits_onTopology h
    (fun _ _ h1 => maskInv_ite (maskInv_completeCmd h1)
    (maskInv_cmdRead h1
    (fun _ _ h2 => maskInv_ite (maskInv_completeCmd h2)
    (maskInv_ite (maskInv_completeCmd h2)
    (maskInv_cmdRead h2 (fun _ _ h3 => maskInv_ite (maskInv_completeCmd h3) (maskInv_completeCmd (maskInv_of_agents h3 rfl))))))))

theorem maskInv_makeCurrent {s : State} {img : List Byte} (h : MaskInv s) : MaskInv (makeCurrent s img) :=
  maskInv_of_agents h rfl

theorem maskInv_swapWhen {s : State} {c : Nat} {x : Cmd} {value : Nat} (h : MaskInv s) : MaskInv (swapWhen s c x value) := by
  unfold swapWhen
  refine maskInv_ite h ?_
  split
  · exact maskInv_completeCmd h
  · exact maskInv_completeCmd (maskInv_makeCurrent h)

theorem maskInv_readSwap {s : State} {c : Nat} {x : Cmd} (h : MaskInv s) : MaskInv (readSwap s c x) := by
  unfold readSwap
  extract_lets
  split
  · rename_i e
    exact maskInv_swapWhen (maskInv_semAccess_value (maskInv_setCmd h) e)
  · rename_i e3
    exact maskInv_completeCmd (maskInv_semAccess_fail (maskInv_setCmd h) e3)
  · rename_i e
    exact maskInv_semAccess_sent (maskInv_setCmd h) e

theorem outcomeFits_execRouteswap {c : Nat} {s : State} (h : MaskInv s) : OutcomeFits (execRouteswap c s) := by
  unfold execRouteswap
  refine outcomeFits_onTopology h ?_
  intro _ _ h1
  refine maskInv_ite (maskInv_completeCmd h1) ?_
  refine maskInv_ite (maskInv_completeCmd h1) ?_
  split
  · rename_i e
    exact maskInv_readSwap (maskInv_semAccess_value (maskInv_setCmd h1) e)
  · rename_i e1
    exact maskInv_completeCmd (maskInv_semAccess_fail (maskInv_setCmd h1) e1)
  · rename_i e
    exact maskInv_semAccess_sent (maskInv_setCmd h1) e

theorem outcomeFits_execRouteswapSemaphoreRead {c : Nat} {s : State} (h : MaskInv s) : OutcomeFits (execRouteswapSemaphoreRead c s) := by
  unfold execRouteswapSemaphoreRead
  split
  · exact h
  · exact outcomeFits_ite (maskInv_readSwap h) h

/-! ### Lines on their way home (R223, R377, R399) -/

theorem maskInv_evictLine {s : State} {k line : Nat} (h : MaskInv s) : MaskInv (evictLine s k line) := by
  unfold evictLine
  extract_lets a
  have pushed := maskInv_pushWhere (g := a.grove) (k := k) (asid := a.asid) (p := fun x => x / 128 == line) h
  exact maskInv_flushWhere pushed

theorem outcomeFits_execLineEviction {k line : Nat} {s : State} (h : MaskInv s) : OutcomeFits (execLineEviction k line s) := by
  unfold execLineEviction
  split
  · exact h
  · exact outcomeFits_ite h (maskInv_evictLine h)

theorem maskInv_releaseHeld {s : State} {ln mask : Nat} {data : List Byte} (h : MaskInv s) : MaskInv (releaseHeld s ln mask data) :=
  maskInv_of_agents h rfl

theorem maskInv_placeHeld {s : State} {ln : Nat} (h : MaskInv s) : MaskInv (placeHeld s ln) :=
  maskInv_ite h (maskInv_writeHome (maskInv_of_agents h rfl))

theorem outcomeFits_execHeldBytesPlaced {line : Nat} {s : State} (h : MaskInv s) : OutcomeFits (execHeldBytesPlaced line s) :=
  outcomeFits_ite (maskInv_placeHeld h) (maskInv_pushHeld h)

/-! ### The operations of other devices at this home (R365, R376, R377) -/

theorem maskInv_takeOp {s t : State} {p : FabOp → Bool} {o : FabOp} (h : MaskInv s) (e : takeOp s p = some (o, t)) : MaskInv t := by
  obtain ⟨_, -, e⟩ := Option.map_eq_some_iff.mp e
  rw [← (Prod.mk.inj e).2]
  exact maskInv_of_agents h rfl

theorem outcomeFits_onOp {s : State} {p : FabOp → Bool} {f : FabOp → State → State} (h : MaskInv s)
    (keep : ∀ (a : FabOp) (a_1 : State), MaskInv a_1 → MaskInv (f a a_1)) : OutcomeFits (onOp s p f) := by
  unfold onOp
  split
  · exact h
  · rename_i e
    exact keep _ _ (maskInv_takeOp h e)

theorem outcomeFits_onLineOp {s : State} {p : FabOp → Bool} {f : FabOp → State → State} (h : MaskInv s)
    (keep : ∀ (a : FabOp) (a_1 : State), MaskInv a_1 → MaskInv (f a a_1)) : OutcomeFits (onLineOp s p f) := by
  unfold onLineOp
  split
  · exact h
  · exact outcomeFits_ite (maskInv_recallLine h) (keep _ _ (maskInv_of_agents h rfl))

theorem maskInv_addHolder {s : State} {pa d : Nat} {exclusive : Bool} (h : MaskInv s) : MaskInv (addHolder s pa d exclusive) :=
  maskInv_of_agents h rfl

theorem maskInv_answerLine {s : State} {o : FabOp} (h : MaskInv s) : MaskInv (answerLine s o) :=
  maskInv_ite (maskInv_replyTo h) (maskInv_replyTo (maskInv_addHolder h))

theorem outcomeFits_execReadLine {s : State} (h : MaskInv s) : OutcomeFits (execReadLine s) :=
  outcomeFits_onLineOp h (fun _ _ h1 => maskInv_answerLine h1)

theorem maskInv_fetchVersion {s : State} {o : FabOp} (h : MaskInv s) : MaskInv (fetchVersion s o) := by
  unfold fetchVersion
  extract_lets
  split
  · exact maskInv_ite (maskInv_answerLine (maskInv_commitVersion h)) (maskInv_replyTo (maskInv_commitVersion h))
  · exact maskInv_answerLine (maskInv_commitVersion h)

theorem outcomeFits_execVersionFetch {s : State} (h : MaskInv s) : OutcomeFits (execVersionFetch s) :=
  outcomeFits_onLineOp h (fun _ _ h1 => maskInv_fetchVersion h1)

theorem outcomeFits_execResolvingFetch {s : State} (h : MaskInv s) : OutcomeFits (execResolvingFetch s) :=
  outcomeFits_onLineOp h (fun _ _ h1 => maskInv_answerLine (maskInv_resolveLine h1))

theorem maskInv_writeLineOp {s : State} {o : FabOp} (h : MaskInv s) : MaskInv (writeLineOp s o) :=
  maskInv_replyTo (maskInv_writeLocal (maskInv_softwareWrote (maskInv_of_agents h rfl)))

theorem outcomeFits_execWriteLine {s : State} (h : MaskInv s) : OutcomeFits (execWriteLine s) :=
  outcomeFits_onLineOp h (fun _ _ h1 => maskInv_writeLineOp h1)

theorem maskInv_noteArrival {s : State} {loc : Nat} {old : List Byte} {op : BarOp} (h : MaskInv s) :
    MaskInv (noteArrival s loc old op) := by
  unfold noteArrival
  split
  · exact maskInv_ite h (maskInv_of_agents h rfl)
  · exact h

theorem maskInv_guestAccess {s : State} {o : FabOp} {loc : Nat} (h : MaskInv s) : MaskInv (guestAccess s o loc) := by
  unfold guestAccess
  split
  · extract_lets
    split
    · exact maskInv_replyTo (maskInv_objectAct h)
    · exact maskInv_replyTo (maskInv_noteArrival (maskInv_objectAct h))
  · extract_lets
    split
    · exact maskInv_replyTo (maskInv_strongAt h)
    · exact maskInv_replyTo (maskInv_strongAt h)

theorem maskInv_performAtomic {s : State} {o : FabOp} (h : MaskInv s) : MaskInv (performAtomic s o) := by
  unfold performAtomic
  split
  · exact maskInv_replyTo h
  · exact maskInv_guestAccess (maskInv_flushAll h)

theorem outcomeFits_execAtomic {s : State} (h : MaskInv s) : OutcomeFits (execAtomic s) :=
  outcomeFits_onLineOp h (fun _ _ h1 => maskInv_performAtomic h1)

theorem outcomeFits_execInvalidate {s : State} (h : MaskInv s) : OutcomeFits (execInvalidate s) :=
  outcomeFits_onOp h (fun _ _ h1 => maskInv_replyTo (maskInv_of_agents h1 rfl))

/-! ### Versions of other devices' bundles (R239, R242, R243, R378) -/

theorem maskInv_placePending {s : State} {m d : FabOp} (h : MaskInv s) : MaskInv (placePending s m d) :=
  maskInv_ite (maskInv_replyTo (maskInv_addRefusal h)) (maskInv_replyTo (maskInv_of_agents h rfl))

theorem outcomeFits_execBundlePending {s : State} (h : MaskInv s) : OutcomeFits (execBundlePending s) := by
  unfold execBundlePending
  split
  · exact h
  · rename_i e
    split
    · exact maskInv_takeOp h e
    · rename_i e4
      exact maskInv_placePending (maskInv_takeOp (maskInv_takeOp h e) e4)

theorem maskInv_commitOp {s : State} {o : FabOp} (h : MaskInv s) : MaskInv (commitOp s o) :=
  maskInv_replyTo (maskInv_commitVersion (maskInv_softwareWrote h))

theorem outcomeFits_execBundleCommit {s : State} (h : MaskInv s) : OutcomeFits (execBundleCommit s) :=
  outcomeFits_onLineOp h (fun _ _ h1 => maskInv_commitOp h1)

theorem maskInv_dropRetained {s : State} {ident line : Nat} (h : MaskInv s) : MaskInv (dropRetained s ident line) :=
  maskInv_of_agents h rfl

theorem maskInv_noteSettled {s : State} {ident : Nat} (h : MaskInv s) : MaskInv (noteSettled s ident) :=
  maskInv_map h rfl (fun _ => rfl) (fun _ fits => agentFits_congr fits rfl)

theorem maskInv_settleOp {s : State} {o : FabOp} (h : MaskInv s) : MaskInv (settleOp s o) :=
  maskInv_replyTo (maskInv_ite (maskInv_noteSettled (maskInv_dropRetained h)) (maskInv_of_agents h rfl))

theorem outcomeFits_execBundleSettle {s : State} (h : MaskInv s) : OutcomeFits (execBundleSettle s) :=
  outcomeFits_onOp h (fun _ _ h1 => maskInv_settleOp h1)

/-! ### Bundles of this device (R239, R242, R244) -/

theorem maskInv_unbundle {s : State} {k : Nat} {lines : List Nat} (h : MaskInv s) : MaskInv (unbundle s k lines) :=
  maskInv_dropViews (maskInv_modAgent h (fun _ fits => agentFits_congr fits rfl))

theorem maskInv_commitBundle {s : State} {id : Nat} {b : Bundle} (h : MaskInv s) : MaskInv (commitBundle s id b) :=
  maskInv_foldl (fun _ _ h1 => maskInv_tellHome h1)
    (maskInv_of_agents (maskInv_unbundle (maskInv_foldl (fun _ _ h1 => maskInv_commitVersion (maskInv_flushAll h1)) h)) rfl)

theorem outcomeFits_execBundleCommitSend {id : Nat} {s : State} (h : MaskInv s) : OutcomeFits (execBundleCommitSend id s) := by
  unfold execBundleCommitSend
  split
  · exact h
  · refine outcomeFits_ite ?_ (outcomeFits_ite (maskInv_foldl (fun _ _ h1 => maskInv_tellHome h1) h) h)
    split
    · exact maskInv_abandonBundle h
    · exact maskInv_commitBundle h

theorem outcomeFits_execBundleSettleSend {id : Nat} {s : State} (h : MaskInv s) : OutcomeFits (execBundleSettleSend id s) := by
  unfold execBundleSettleSend
  split
  · exact h
  · exact outcomeFits_ite
      (maskInv_foldl (fun _ _ h1 => maskInv_tellHome h1) (maskInv_of_agents (maskInv_foldl (fun _ _ h1 => maskInv_dropRetained h1) h) rfl))
      h

theorem outcomeFits_execBundleWithdrawal {id : Nat} {s : State} (h : MaskInv s) : OutcomeFits (execBundleWithdrawal id s) := by
  unfold execBundleWithdrawal
  split
  · exact h
  · split
    · exact h
    · exact outcomeFits_ite h (maskInv_placeVersions (maskInv_of_agents (maskInv_discardVersions (maskInv_logWithdrawal h)) rfl))

/-! ### Acknowledges (R195, R365, R377, R378) -/

theorem maskInv_editEntry {s : State} {k token : Nat} {f : LAEntry → LAEntry} (h : MaskInv s) : MaskInv (editEntry s k token f) :=
  maskInv_modAgent h (fun _ fits => agentFits_congr fits rfl)

theorem agentFits_putPhase {a : Agent} {p : Nat} {t : Tab Byte} (fits : AgentFits a) : AgentFits (putPhase a p t) :=
  agentFits_ite (agentFits_congr fits rfl) (agentFits_congr fits rfl)

theorem agentFits_noteLine {seq p ln : Nat} {offs : List Nat} {data : List Byte} {a : Agent} (fits : AgentFits a) :
    AgentFits (noteLine seq p ln offs data a) :=
  agentFits_congr (agentFits_putPhase fits) rfl

theorem maskInv_answerLoad {s : State} {tag ln k token va status : Nat} {anew : Bool} {parts : List (Nat × Nat × Nat × Nat)}
    {data : List Byte} (h : MaskInv s) : MaskInv (answerLoad s tag ln k token va status anew parts data) :=
  maskInv_ite (maskInv_editEntry (maskInv_modAgent h (fun _ fits => agentFits_noteLine fits))) (maskInv_editEntry h)

theorem maskInv_answerAtomic {s : State} {tag k token va status old : Nat} {lane sum : Option Nat} (h : MaskInv s) :
    MaskInv (answerAtomic s tag k token va status old lane sum) :=
  maskInv_ite (maskInv_editEntry (maskInv_modAgent h (fun _ fits => agentFits_congr fits rfl))) (maskInv_editEntry h)

theorem maskInv_compareWrote {s : State} {k token old : Nat} {x : Sent} (h : MaskInv s) : MaskInv (compareWrote s k token old x) := by
  unfold compareWrote
  extract_lets
  refine maskInv_ite ?_ h
  split
  · exact maskInv_giveWay h
  · exact h

theorem maskInv_acquired {s : State} {k : Nat} {o : FabOp} (h : MaskInv s) : MaskInv (acquired s k o) :=
  maskInv_ite (maskInv_openPhase (maskInv_drainAll h)) h

theorem maskInv_keepLine {s : State} {ln status : Nat} {x : Sent} {data : List Byte} (h : MaskInv s) : MaskInv (keepLine s ln status x data)
   :=
  maskInv_ite (maskInv_of_agents h rfl) h

theorem agentFits_addReport {c : Cause} {va : Nat} {a : Agent} (fits : AgentFits a) : AgentFits (addReport c va a) :=
  agentFits_ite fits (agentFits_congr fits rfl)

theorem maskInv_placeFailed {s : State} {k ln : Nat} {c : Cause} (h : MaskInv s) : MaskInv (placeFailed s k ln c) :=
  maskInv_foldl (fun _ _ h1 => maskInv_modAgent h1 (fun _ fits => agentFits_addReport fits))
    (maskInv_of_agents (maskInv_foldl (fun _ _ h1 => maskInv_copyError h1) h) rfl)

theorem maskInv_answerPlace {s : State} {k ln status : Nat} {x : Sent} (h : MaskInv s) : MaskInv (answerPlace s k ln status x) :=
  maskInv_ite (maskInv_placeFailed h) (maskInv_ite (maskInv_pushHeld h) (maskInv_pushHeld (maskInv_releaseHeld h)))

theorem maskInv_answerBundle {s : State} {id ln status : Nat} (h : MaskInv s) : MaskInv (answerBundle s id ln status) := by
  unfold answerBundle
  split
  · exact h
  · exact maskInv_ite (maskInv_of_agents h rfl) (maskInv_ite (maskInv_placeVersions (maskInv_of_agents h rfl))
      (maskInv_ite (maskInv_unbundle (maskInv_of_agents h rfl)) (maskInv_of_agents h rfl)))

theorem maskInv_answerRecall {s : State} {tag ln : Nat} {data : List Byte} (h : MaskInv s) : MaskInv (answerRecall s tag ln data) := by
  have placed : MaskInv (placeHeld (if data.length = 128 then writeHome s (data.zipIdx.map (fun e => (128 * ln + e.2, e.1))) else s) ln) :=
    maskInv_placeHeld (maskInv_ite (maskInv_writeHome h) h)
  exact maskInv_ite (maskInv_map placed rfl (fun _ => rfl) (fun _ fits => agentFits_congr fits rfl)) placed

theorem maskInv_failCmd {s : State} {c status : Nat} {y : Cmd} (h : MaskInv s) : MaskInv (failCmd s c status y) :=
  maskInv_ite (maskInv_setCmd h) (maskInv_completeCmd h)

theorem maskInv_answerCmd {s : State} {c status old : Nat} {x : Sent} (h : MaskInv s) : MaskInv (answerCmd s c status old x) := by
  unfold answerCmd
  split
  · exact h
  · exact maskInv_ite (maskInv_failCmd h)
      (maskInv_ite h
      (maskInv_ite (maskInv_completeCmd h)
      (maskInv_ite (maskInv_ite (maskInv_completeCmd h) h) (maskInv_ite (maskInv_ite (maskInv_readSwap h) (maskInv_swapWhen h)) h))))

theorem maskInv_loseSlot {s : State} {q : Nat} {c : Cause} (h : MaskInv s) : MaskInv (loseSlot s q c) :=
  maskInv_ite (maskInv_setQueue h) (maskInv_stopQueue h)

theorem maskInv_loseLine {s : State} {ln : Nat} {c : Cause} {why : SentFor} (h : MaskInv s) : MaskInv (loseLine s ln c why) := by
  unfold loseLine
  split
  · split
    · exact h
    · exact maskInv_of_agents h rfl
  · split
    · exact h
    · exact maskInv_of_agents h rfl
  · exact maskInv_modAgent h (fun _ fits => agentFits_congr fits rfl)
  · exact maskInv_modAgent h (fun _ fits => agentFits_congr fits rfl)
  · exact maskInv_loseSlot h
  · split
    · exact h
    · exact maskInv_failGrid h
  · exact maskInv_earnStatus h
  · exact maskInv_setColl h
  · exact h

theorem maskInv_answer {s : State} {x : Sent} {o : FabOp} (h : MaskInv s) : MaskInv (answer s x o) := by
  unfold answer
  extract_lets
  split
  · exact maskInv_answerLoad (maskInv_keepLine (maskInv_dropSent h))
  · exact maskInv_acquired
      (maskInv_answerAtomic (maskInv_ite (maskInv_compareWrote (maskInv_keepLine (maskInv_dropSent h)))
      (maskInv_keepLine (maskInv_dropSent h))))
  · exact maskInv_ite (maskInv_editEntry (maskInv_keepLine (maskInv_dropSent h)))
      (maskInv_editEntry (maskInv_keepLine (maskInv_dropSent h)))
  · exact maskInv_acquired (maskInv_answerAtomic (maskInv_keepLine (maskInv_dropSent h)))
  · exact maskInv_answerPlace (maskInv_keepLine (maskInv_dropSent h))
  · exact maskInv_ite (maskInv_modAgent (maskInv_keepLine (maskInv_dropSent h)) (fun _ fits => agentFits_addReport fits))
      (maskInv_keepLine (maskInv_dropSent h))
  · exact maskInv_answerBundle (maskInv_keepLine (maskInv_dropSent h))
  · exact maskInv_answerRecall (maskInv_keepLine (maskInv_dropSent h))
  · exact maskInv_answerCmd (maskInv_keepLine (maskInv_dropSent h))
  · exact maskInv_ite (maskInv_modAgent (maskInv_keepLine (maskInv_dropSent h)) (fun _ fits => agentFits_congr fits rfl))
      (maskInv_loseLine (maskInv_keepLine (maskInv_dropSent h)))
  · exact maskInv_ite (maskInv_keepLine (maskInv_dropSent h)) (maskInv_loseLine (maskInv_keepLine (maskInv_dropSent h)))
  · exact maskInv_ite (maskInv_keepLine (maskInv_dropSent h)) (maskInv_loseLine (maskInv_keepLine (maskInv_dropSent h)))

theorem maskInv_answerOf {s : State} {x : Sent} {o : FabOp} (h : MaskInv s) : MaskInv (answerOf s x o) :=
  maskInv_ite (maskInv_ite (maskInv_answer h) h) (maskInv_ite h (maskInv_ite (maskInv_answer h) (maskInv_of_agents h rfl)))

theorem outcomeFits_execAcknowledge {s : State} (h : MaskInv s) : OutcomeFits (execAcknowledge s) := by
  unfold execAcknowledge
  refine outcomeFits_onOp h ?_
  intro _ _ h1
  split
  · exact h1
  · exact maskInv_answerOf h1

theorem maskInv_timedOut {s : State} {tag : Nat} {x : Sent} (h : MaskInv s) : MaskInv (timedOut s tag x) := by
  unfold timedOut
  extract_lets
  split
  · exact maskInv_editEntry (maskInv_dropSent h)
  · exact maskInv_editEntry (maskInv_dropSent h)
  · exact maskInv_editEntry (maskInv_dropSent h)
  · exact maskInv_editEntry (maskInv_dropSent h)
  · exact maskInv_placeFailed (maskInv_dropSent h)
  · exact maskInv_ite (maskInv_modAgent (maskInv_of_agents (maskInv_dropSent h) rfl) (fun _ fits => agentFits_addReport fits))
      (maskInv_of_agents (maskInv_dropSent h) rfl)
  · split
    · exact maskInv_dropSent h
    · exact maskInv_ite (maskInv_abandonBundle (maskInv_dropSent h)) (maskInv_unbundle (maskInv_dropSent h))
  · exact maskInv_answerRecall (maskInv_dropSent h)
  · split
    · exact maskInv_dropSent h
    · exact maskInv_failCmd (maskInv_dropSent h)
  · exact maskInv_ite (maskInv_loseLine (maskInv_dropSent h)) (maskInv_dropSent h)
  · exact maskInv_loseLine (maskInv_dropSent h)

theorem outcomeFits_execFabricTimeout {tag : Nat} {s : State} (h : MaskInv s) : OutcomeFits (execFabricTimeout tag s) := by
  unfold execFabricTimeout
  split
  · exact h
  · exact outcomeFits_ite h (maskInv_timedOut h)

/-! ### The context registers (R385) -/

theorem maskInv_enableColl {s : State} {c v : Nat} (h : MaskInv s) : MaskInv (enableColl s c v) :=
  maskInv_ite h (maskInv_setColl h)

theorem maskInv_disableColl {s : State} {c v : Nat} (h : MaskInv s) : MaskInv (disableColl s c v) :=
  maskInv_ite h (maskInv_setColl h)

theorem outcomeFits_execCcctlEnable {c : Nat} {v : Word} {s : State} (h : MaskInv s) : OutcomeFits (execCcctlEnable c v s) :=
  maskInv_enableColl h

theorem outcomeFits_execCcctlDisable {c : Nat} {v : Word} {s : State} (h : MaskInv s) : OutcomeFits (execCcctlDisable c v s) :=
  maskInv_disableColl h

/-! ### Shards (R365, R387) -/

theorem outcomeFits_execCollectiveShard {s : State} (h : MaskInv s) : OutcomeFits (execCollectiveShard s) :=
  outcomeFits_onOp h (fun _ _ h1 => maskInv_replyTo (maskInv_setColl h1))

theorem maskInv_collWrite {s : State} {c va : Nat} {bs : List Byte} (h : MaskInv s) : MaskInv (collWrite s c va bs) :=
  maskInv_of_agents h rfl

theorem maskInv_takeShard {s t : State} {c i : Nat} (h : MaskInv s) (e : takeShard s c i = some t) : MaskInv t := by
  obtain ⟨_, -, rfl⟩ := Option.map_eq_some_iff.mp e
  exact maskInv_collWrite (maskInv_setColl h)

theorem maskInv_endSlot {s : State} {c : Nat} (h : MaskInv s) : MaskInv (endSlot s c) := by
  unfold endSlot
  extract_lets x r due want got
  have hgot : ∀ t, got = some t → MaskInv t :=
    List.foldlRecOn (motive := fun o : Option State => ∀ t, o = some t → MaskInv t) _ _ (fun t e => Option.some.inj e ▸ h)
      fun o ho j _ t e => by
        obtain ⟨u, hu, e⟩ := Option.bind_eq_some_iff.mp e
        exact maskInv_takeShard (ho u hu) e
  clear_value got
  split
  · exact h
  · exact maskInv_startSlot (maskInv_setColl (hgot _ rfl))

theorem outcomeFits_execCollectiveSlotEnd {c : Nat} {s : State} (h : MaskInv s) : OutcomeFits (execCollectiveSlotEnd c s) :=
  outcomeFits_ite (maskInv_endSlot (maskInv_startSlot (maskInv_beginForks h))) (maskInv_startSlot (maskInv_beginForks h))

/-! ### Completion (R384, R385) -/

theorem maskInv_signalDone {s : State} {asid rec_ : Nat} (h : MaskInv s) : MaskInv (signalDone s asid rec_) := by
  unfold signalDone
  refine maskInv_engineWrite_getD ?_
  split
  · exact h
  · exact maskInv_ite (maskInv_strongAt (maskInv_flushAll h)) h

theorem maskInv_writeDst {s : State} {c : Nat} (h : MaskInv s) : MaskInv (writeDst s c) :=
  maskInv_ite h (maskInv_ite (maskInv_foldl (fun _ _ h1 => maskInv_engineWrite_getD h1) h) (maskInv_setColl h))

theorem maskInv_completeColl {s : State} {c : Nat} (h : MaskInv s) : MaskInv (completeColl s c) :=
  maskInv_ite (maskInv_logEvent (maskInv_signalDone (maskInv_setColl (maskInv_writeDst h))))
    (maskInv_signalDone (maskInv_setColl (maskInv_writeDst h)))

theorem maskInv_finishReduce {s : State} {c : Nat} (h : MaskInv s) : MaskInv (finishReduce s c) := by
  unfold finishReduce
  extract_lets
  split
  · exact maskInv_fetchLine h
  · exact maskInv_completeColl (maskInv_setColl h)
  · split
    · exact h
    · exact maskInv_completeColl (maskInv_collWrite (maskInv_setColl h))

theorem maskInv_finishExchange {s : State} {c : Nat} (h : MaskInv s) : MaskInv (finishExchange s c) := by
  unfold finishExchange
  extract_lets
  split
  · exact maskInv_fetchLine h
  · exact maskInv_completeColl (maskInv_setColl h)
  · exact maskInv_completeColl (maskInv_collWrite h)

theorem outcomeFits_execCollectiveCompletion {c : Nat} {s : State} (h : MaskInv s) : OutcomeFits (execCollectiveCompletion c s) :=
  outcomeFits_ite (maskInv_startSlot (maskInv_beginForks h))
    (outcomeFits_ite (maskInv_completeColl (maskInv_startSlot (maskInv_beginForks h)))
    (outcomeFits_ite (maskInv_startSlot (maskInv_beginForks h))
    (outcomeFits_ite (maskInv_finishReduce (maskInv_startSlot (maskInv_beginForks h)))
    (outcomeFits_ite (maskInv_finishExchange (maskInv_startSlot (maskInv_beginForks h))) (maskInv_startSlot (maskInv_beginForks h))))))

/-! ### Link-level retry (R367) -/

theorem maskInv_takeLink {s : State} {p link : Nat} (h : MaskInv s) : MaskInv (takeLink s p link) := by
  unfold takeLink
  extract_lets
  split
  · exact h
  · exact maskInv_dropBranches (maskInv_setPort h)

theorem outcomeFits_execLinkReplayTimeout {p : Nat} {s : State} (h : MaskInv s) : OutcomeFits (execLinkReplayTimeout p s) := by
  unfold execLinkReplayTimeout
  refine outcomeFits_ite h ?_
  split
  · exact h
  · exact maskInv_setPort h

theorem outcomeFits_execEmptyAckFrame {p : Nat} {s : State} (h : MaskInv s) : OutcomeFits (execEmptyAckFrame p s) :=
  outcomeFits_ite h (maskInv_setPort h)

/-! ### Forwarding (R364, R371, R374, R375) -/

theorem maskInv_deliver {s : State} {ops : List FabOp} (h : MaskInv s) : MaskInv (deliver s ops) :=
  maskInv_of_agents h rfl

theorem maskInv_forwardUnicast {s : State} {h : FrameHead} {octets : List Byte} (inv : MaskInv s) : MaskInv (forwardUnicast s h octets) :=
  maskInv_ite (maskInv_queueFrame inv) inv

theorem maskInv_forwardGroup {s : State} {h : FrameHead} {ops : List FabOp} {octets : List Byte} (inv : MaskInv s) :
    MaskInv (forwardGroup s h ops octets) :=
  maskInv_ite inv
    (maskInv_ite (maskInv_deliver (maskInv_foldl (fun _ _ h1 => maskInv_queueFrame h1) (maskInv_ite inv (maskInv_of_agents inv rfl))))
    (maskInv_foldl (fun _ _ h1 => maskInv_queueFrame h1) (maskInv_ite inv (maskInv_of_agents inv rfl))))

theorem maskInv_routeFrame {s : State} {h : FrameHead} {ops : List FabOp} {octets : List Byte} (inv : MaskInv s) :
    MaskInv (routeFrame s h ops octets) :=
  maskInv_ite (maskInv_forwardGroup inv) (maskInv_ite inv (maskInv_ite (maskInv_deliver inv) (maskInv_forwardUnicast inv)))

theorem maskInv_receiveFrame {s : State} {p : Nat} {bs : List Byte} (h : MaskInv s) : MaskInv (receiveFrame s p bs) := by
  unfold receiveFrame
  extract_lets
  refine maskInv_ite (maskInv_setPort h) ?_
  split
  · exact maskInv_setPort h
  · exact maskInv_ite (maskInv_setPort h)
      (maskInv_ite h (maskInv_routeFrame (maskInv_endDrain (maskInv_refillPort (maskInv_takeLink (maskInv_setPort h))))))

theorem outcomeFits_execFrameReceived {p : Nat} {bs : List Byte} {s : State} (h : MaskInv s) : OutcomeFits (execFrameReceived p bs s) :=
  outcomeFits_ite h (maskInv_receiveFrame h)

/-! ### Width (R368) -/

theorem outcomeFits_execPortWiden {p : Nat} {s : State} (h : MaskInv s) : OutcomeFits (execPortWiden p s) :=
  outcomeFits_ite (maskInv_decideWidth h) h

theorem outcomeFits_execPortNarrow {p : Nat} {s : State} (h : MaskInv s) : OutcomeFits (execPortNarrow p s) :=
  outcomeFits_ite (maskInv_decideWidth h) h

theorem outcomeFits_execPortWidthTakesEffect {p : Nat} {s : State} (h : MaskInv s) : OutcomeFits (execPortWidthTakesEffect p s) := by
  unfold execPortWidthTakesEffect
  extract_lets
  split
  · exact h
  · exact outcomeFits_ite h (maskInv_setPort h)

/-! ### Wavelengths (R369, R370, R396) -/

theorem maskInv_portDown {s : State} {p : Nat} (h : MaskInv s) : MaskInv (portDown s p) :=
  maskInv_ite (maskInv_endDrain (maskInv_setPort (maskInv_dropBranches (maskInv_of_agents h rfl))))
    (maskInv_setPort (maskInv_dropBranches (maskInv_of_agents h rfl)))

theorem maskInv_loseWavelength {s : State} {p wl cause : Nat} (h : MaskInv s) : MaskInv (loseWavelength s p wl cause) :=
  maskInv_ite
    (maskInv_portDown (maskInv_ite (maskInv_sendManagement (maskInv_logEvent (maskInv_setPort (maskInv_logEvent h))))
    (maskInv_setPort (maskInv_logEvent h)))) (maskInv_ite (maskInv_sendManagement (maskInv_logEvent (maskInv_setPort (maskInv_logEvent h))))
    (maskInv_setPort (maskInv_logEvent h)))

theorem outcomeFits_execWavelengthLoss {p wl cause : Nat} {s : State} (h : MaskInv s) : OutcomeFits (execWavelengthLoss p wl cause s) :=
  outcomeFits_ite (maskInv_loseWavelength h) h

theorem outcomeFits_execWavelengthRelock {p wl orders : Nat} {s : State} (h : MaskInv s) : OutcomeFits (execWavelengthRelock p wl orders s)
   :=
  outcomeFits_ite h (maskInv_setPort (maskInv_logEvent h))

/-! ### The port registers (R369) -/

theorem maskInv_writeFpctl {s : State} {p v : Nat} (h : MaskInv s) : MaskInv (writeFpctl s p v) :=
  maskInv_of_agents h rfl

theorem maskInv_writeFpcnt {s : State} {p v : Nat} (h : MaskInv s) : MaskInv (writeFpcnt s p v) :=
  maskInv_of_agents h rfl

/-! ### Pairs of ports (R339, R346 to R350) -/

theorem maskInv_setPair {s : State} {sel : Nat} {p : Pair} (h : MaskInv s) : MaskInv (s.setPair sel p) :=
  maskInv_of_agents h rfl

theorem maskInv_reroute {s : State} (h : MaskInv s) : MaskInv (reroute s) :=
  maskInv_of_agents h rfl

theorem outcomeFits_execColourLost {sel colour cause : Nat} {s : State} (h : MaskInv s) : OutcomeFits (execColourLost sel colour cause s) :=
  outcomeFits_ite h (maskInv_reroute (maskInv_logEvent (maskInv_setPair h)))

theorem outcomeFits_execPairDrainEnd {sel : Nat} {s : State} (h : MaskInv s) : OutcomeFits (execPairDrainEnd sel s) := by
  unfold execPairDrainEnd
  extract_lets
  split
  · exact h
  · exact maskInv_reroute (maskInv_ite (maskInv_setPair h) (maskInv_logEvent (maskInv_setPair h)))

theorem maskInv_writeRoutePair {s : State} {sel value : Nat} (h : MaskInv s) : MaskInv (writeRoutePair s sel value) :=
  maskInv_ite h (maskInv_reroute (maskInv_setPair h))

theorem maskInv_startRetrain {s : State} {sel : Nat} (h : MaskInv s) : MaskInv (startRetrain s sel) :=
  maskInv_ite (maskInv_setPair h) h

theorem maskInv_routePairValue {s : State} {sel value : Nat} (h : MaskInv s) : MaskInv (routePairValue s sel value) :=
  maskInv_ite (maskInv_startRetrain (maskInv_writeRoutePair h)) (maskInv_writeRoutePair h)

theorem outcomeFits_execRoutePairWrite {sel : Nat} {value : Word} {s : State} (h : MaskInv s) : OutcomeFits (execRoutePairWrite sel value s)
   :=
  maskInv_writeRoutePair h

theorem outcomeFits_execRoutePairRetrain {sel : Nat} {s : State} (h : MaskInv s) : OutcomeFits (execRoutePairRetrain sel s) :=
  maskInv_startRetrain h

theorem outcomeFits_execPairRetrainEnd {sel relocked : Nat} {s : State} (h : MaskInv s) : OutcomeFits (execPairRetrainEnd sel relocked s) :=
  outcomeFits_ite h (maskInv_reroute (maskInv_logEvent (maskInv_setPair h)))

theorem outcomeFits_execColourBGateOff {sel : Nat} {s : State} (h : MaskInv s) : OutcomeFits (execColourBGateOff sel s) :=
  outcomeFits_ite (maskInv_setPair h) h

theorem outcomeFits_execColourBWake {sel : Nat} {s : State} (h : MaskInv s) : OutcomeFits (execColourBWake sel s) :=
  outcomeFits_ite (maskInv_setPair h) h

theorem outcomeFits_execFlitReceived {sel : Nat} {f : Flit} {ok : Bool} {s : State} (h : MaskInv s) :
    OutcomeFits (execFlitReceived sel f ok s) :=
  outcomeFits_ite h (maskInv_setPair h)

/-! ### Clocks (R351 to R356) -/

theorem maskInv_beginRelock {s : State} {d f : Nat} (h : MaskInv s) : MaskInv (beginRelock s d f) :=
  maskInv_of_agents h rfl

theorem outcomeFits_execFrequencyDecision {d mhz : Nat} {s : State} (h : MaskInv s) : OutcomeFits (execFrequencyDecision d mhz s) :=
  outcomeFits_ite h (maskInv_setDie h)

theorem outcomeFits_execRelockStart {d : Nat} {s : State} (h : MaskInv s) : OutcomeFits (execRelockStart d s) := by
  unfold execRelockStart
  extract_lets
  split
  · exact h
  · exact outcomeFits_ite h (outcomeFits_ite (maskInv_setDie h) (maskInv_beginRelock (maskInv_setDie h)))

theorem outcomeFits_execRelockEnd {d : Nat} {s : State} (h : MaskInv s) : OutcomeFits (execRelockEnd d s) := by
  unfold execRelockEnd
  extract_lets
  split
  · exact h
  · exact maskInv_ite (maskInv_beginRelock (maskInv_setDie h)) (maskInv_setDie h)

/-! ### Power and temperature (R157, R312, R357 to R360) -/

theorem maskInv_startEmergency {s : State} {c t : Nat} (h : MaskInv s) : MaskInv (startEmergency s c t) :=
  maskInv_logEvent (maskInv_ite (maskInv_setDie h) (maskInv_beginRelock (maskInv_setDie h)))

theorem maskInv_endEmergency {s : State} {d t : Nat} (h : MaskInv s) : MaskInv (endEmergency s d t) :=
  maskInv_logEvent (maskInv_setDie h)

theorem maskInv_judgeDie {s : State} {d : Nat} (h : MaskInv s) : MaskInv (judgeDie s d) := by
  unfold judgeDie
  extract_lets
  refine maskInv_ite (maskInv_ite (maskInv_endEmergency h) h) ?_
  split
  · exact maskInv_startEmergency h
  · exact h

theorem outcomeFits_execAllowUpdate {s : State} (h : MaskInv s) : OutcomeFits (execAllowUpdate s) :=
  maskInv_foldl (fun _ _ h1 => maskInv_judgeDie h1) (maskInv_used (maskInv_of_agents h rfl))

theorem outcomeFits_execThermalEmergency {c : Nat} {s : State} (h : MaskInv s) : OutcomeFits (execThermalEmergency c s) :=
  outcomeFits_ite h (maskInv_startEmergency (maskInv_used (maskInv_setCore h)))

theorem outcomeFits_execThermalEmergencyEnd {d : Nat} {s : State} (h : MaskInv s) : OutcomeFits (execThermalEmergencyEnd d s) :=
  outcomeFits_ite h (maskInv_endEmergency (maskInv_used (maskInv_foldl (fun _ _ h1 => maskInv_setCore h1) h)))

theorem outcomeFits_execDramStackStateChange {stack temp : Nat} {s : State} (h : MaskInv s) :
    OutcomeFits (execDramStackStateChange stack temp s) :=
  outcomeFits_ite h (outcomeFits_ite (maskInv_of_agents h rfl) (maskInv_logEvent (maskInv_of_agents (maskInv_of_agents h rfl) rfl)))

theorem outcomeFits_execPowerClassChange {s : State} (h : MaskInv s) : OutcomeFits (execPowerClassChange s) :=
  maskInv_of_agents h rfl

theorem outcomeFits_execBudgetWindow {s : State} (h : MaskInv s) : OutcomeFits (execBudgetWindow s) :=
  outcomeFits_ite h (maskInv_used (maskInv_of_agents h rfl))

/-! ### Errors of the memories (R394, R396) -/

theorem outcomeFits_execPatrolScrub {_line : Nat} {s : State} (h : MaskInv s) : OutcomeFits (execPatrolScrub _line s) :=
  h

theorem maskInv_poisonScratch {s : State} {c ln : Nat} (h : MaskInv s) : MaskInv (poisonScratch s c ln) :=
  maskInv_of_agents h rfl

theorem maskInv_poisonStaging {s : State} {g ln : Nat} (h : MaskInv s) : MaskInv (poisonStaging s g ln) :=
  maskInv_of_agents h rfl

theorem maskInv_poisonHome {s : State} {ln : Nat} (h : MaskInv s) : MaskInv (poisonHome s ln) :=
  maskInv_of_agents h rfl

theorem maskInv_logPoison {s : State} {ln : Nat} (h : MaskInv s) : MaskInv (logPoison s ln) :=
  maskInv_logEvent h

theorem outcomeFits_execUncorrectableError {addr : Nat} {s : State} (h : MaskInv s) : OutcomeFits (execUncorrectableError addr s) :=
  outcomeFits_ite (maskInv_logPoison (maskInv_poisonHome h))
    (outcomeFits_ite h
    (outcomeFits_ite (maskInv_poisonScratch h)
    (outcomeFits_ite (outcomeFits_ite h (outcomeFits_ite (maskInv_logPoison (maskInv_poisonStaging h)) (maskInv_poisonStaging h))) h)))

theorem outcomeFits_execCorrectedSoftErrors {kind unit count : Nat} {s : State} (h : MaskInv s) :
    OutcomeFits (execCorrectedSoftErrors kind unit count s) :=
  outcomeFits_ite h (maskInv_logEvent (maskInv_of_agents h rfl))

/-! ### System registers (R329, R330) -/

theorem maskInv_writeClrLimit {s : State} {v : Nat} (h : MaskInv s) : MaskInv (writeClrLimit s v) :=
  maskInv_of_agents h rfl

theorem maskInv_writeClrAsq {s : State} {v : Nat} (h : MaskInv s) : MaskInv (writeClrAsq s v) :=
  maskInv_of_agents h rfl

theorem outcomeFits_execClrAsqWrite {v : Word} {s : State} (h : MaskInv s) : OutcomeFits (execClrAsqWrite v s) :=
  maskInv_writeClrAsq h

theorem agentFits_agentWrite {a : Agent} {v : Nat} {r : SysReg} (fits : AgentFits a) : AgentFits (agentWrite a v r) := by
  unfold agentWrite
  split
  case h_14 => exact fits
  all_goals exact agentFits_congr fits rfl

theorem maskInv_sysWrite {s : State} {rm : Bool} {target v : Nat} {r : SysReg} (h : MaskInv s) : MaskInv (sysWrite s rm target v r) := by
  unfold sysWrite
  split
  · exact maskInv_writeClrLimit h
  · exact maskInv_writeClrAsq h
  · exact maskInv_of_agents h rfl
  · exact maskInv_writeFaultresp h
  · exact maskInv_ite (maskInv_clearFqovf h) h
  · exact maskInv_ite (maskInv_routePairValue h) h
  · exact maskInv_setMe h (agentFits_agentWrite (agentFits_me h))

theorem outcomeFits_execRdsys {f : FArgs} {s : State} (h : MaskInv s) : OutcomeFits (execRdsys f s) := by
  unfold execRdsys
  refine outcomeFits_issue h ?_
  intro _ _ h1 fits
  extract_lets
  split
  · exact trivial
  · exact actFits_ite h1 (actFits_ite trivial (actFits_ite h1 (maskInv_ite (maskInv_setMe h1 (agentFits_congr fits rfl)) h1)))

theorem outcomeFits_execWrsys {f : FArgs} {s : State} (h : MaskInv s) : OutcomeFits (execWrsys f s) := by
  unfold execWrsys
  refine outcomeFits_issue h ?_
  intro _ _ h1 _
  extract_lets
  split
  · exact trivial
  · exact actFits_ite h1 (actFits_ite (maskInv_sysWrite h1) (maskInv_sysWrite h1))

/-! ### Traps and the return (R328, R331, R332) -/

theorem outcomeFits_execTrap {f : FArgs} {s : State} (h : MaskInv s) : OutcomeFits (execTrap f s) :=
  outcomeFits_issue h (fun _ _ h1 _ => actFits_ite trivial h1)

theorem outcomeFits_execBrk {f : FArgs} {s : State} (h : MaskInv s) : OutcomeFits (execBrk f s) :=
  outcomeFits_issue h (fun _ _ h1 _ => actFits_ite trivial h1)

theorem outcomeFits_execEret {f : FArgs} {s : State} (h : MaskInv s) : OutcomeFits (execEret f s) :=
  outcomeFits_issue h (fun _ _ h1 fits => actFits_ite h1 (actFits_ite trivial (maskInv_setMe h1 (agentFits_trapReturn fits))))

/-! ### Shoot-downs (R317 to R319) -/

theorem outcomeFits_execTlbi {f : FArgs} {s : State} (h : MaskInv s) : OutcomeFits (execTlbi f s) :=
  outcomeFits_issue h
    (fun _ _ h1 fits => actFits_ite h1 (actFits_ite h1 (maskInv_setMe (maskInv_of_agents h1 rfl) (agentFits_congr fits rfl))))

theorem maskInv_acknowledgeUnit {s : State} {mode asid va k : Nat} {units : List Nat} {u : Nat} (h : MaskInv s) :
    MaskInv (acknowledgeUnit s mode asid va k units u) :=
  maskInv_ite (maskInv_resumeAfter (maskInv_of_agents h rfl)) (maskInv_of_agents h rfl)

theorem outcomeFits_execTlbiAcknowledge {u : Nat} {s : State} (h : MaskInv s) : OutcomeFits (execTlbiAcknowledge u s) := by
  unfold execTlbiAcknowledge
  split
  · exact h
  · exact outcomeFits_ite h (maskInv_acknowledgeUnit h)

/-! ### Sleeping and waking (R333) -/

theorem outcomeFits_execSleep {f : FArgs} {s : State} (h : MaskInv s) : OutcomeFits (execSleep f s) :=
  outcomeFits_issue h
    (fun _ _ h1 fits => actFits_ite h1 (actFits_ite (maskInv_openPhase (maskInv_drainAll (maskInv_setMe h1 (agentFits_congr fits rfl))))
    (maskInv_drainAll (maskInv_setMe h1 (agentFits_congr fits rfl)))))

theorem outcomeFits_execSleepIntervalExpires {k : Nat} {s : State} (h : MaskInv s) : OutcomeFits (execSleepIntervalExpires k s) :=
  outcomeFits_ite (maskInv_wakeAgent h) h

theorem outcomeFits_execWake {f : FArgs} {s : State} (h : MaskInv s) : OutcomeFits (execWake f s) :=
  outcomeFits_issue h (fun _ _ h1 _ => actFits_ite h1 (actFits_beforeClose h1 (fun _ h2 => maskInv_issueClose h2)))

/-! ### The window (R390) -/

theorem outcomeFits_execBar2Read {x n : Nat} {s : State} (h : MaskInv s) : OutcomeFits (execBar2Read x n s) :=
  maskInv_used (maskInv_of_agents h rfl)

theorem outcomeFits_execBar2Write {x : Nat} {bs : List Byte} {s : State} (h : MaskInv s) : OutcomeFits (execBar2Write x bs s) :=
  maskInv_of_agents (maskInv_writeLocal (maskInv_softwareWrote h)) rfl

/-! ### Boot (R373, R391, R392) -/

theorem maskInv_romStart {s : State} : MaskInv (romStart s) :=
  maskInv_of_agents maskInv_reset rfl

theorem outcomeFits_execPowerOn {s : State} : OutcomeFits (execPowerOn s) :=
  maskInv_romStart

theorem maskInv_passStage {s : State} (h : MaskInv s) : MaskInv (passStage s) :=
  maskInv_ite (maskInv_of_agents (maskInv_of_agents h rfl) rfl) (maskInv_ite (maskInv_of_agents (maskInv_of_agents h rfl) rfl)
    (maskInv_of_agents (maskInv_of_agents h rfl) rfl))

theorem outcomeFits_execBootStage {v : Nat} {s : State} (h : MaskInv s) : OutcomeFits (execBootStage v s) :=
  outcomeFits_ite h (outcomeFits_ite (maskInv_passStage h) (maskInv_logEvent (maskInv_of_agents h rfl)))

theorem outcomeFits_execPackageResetRequest {s : State} : OutcomeFits (execPackageResetRequest s) := by
  have restarted : MaskInv (romStart (logEvent s 0xA0 0 0 [0])) := maskInv_romStart
  exact maskInv_of_agents restarted rfl

/-! ### Attestation (R393) -/

theorem outcomeFits_execAttestationGo {bs : List Byte} {s : State} (h : MaskInv s) : OutcomeFits (execAttestationGo bs s) :=
  outcomeFits_ite h (maskInv_of_agents h rfl)

theorem outcomeFits_execAttestationReport {s : State} (h : MaskInv s) : OutcomeFits (execAttestationReport s) :=
  outcomeFits_ite (maskInv_of_agents h rfl) h

/-! ### BAR0 (R6, R7, R389) -/

theorem maskInv_writeQueueReg {s : State} {q o : Nat} {v : DWord} {wide : Bool} (h : MaskInv s) : MaskInv (writeQueueReg s q o v wide) :=
  maskInv_ite h
    (maskInv_ite (maskInv_ite h (maskInv_setQueue h)) (maskInv_ite (maskInv_ite (maskInv_enableQueue h) (maskInv_disableQueue h))
    (maskInv_ite (maskInv_writeQtail h) (maskInv_ite (maskInv_ite h (maskInv_setQueue h)) h))))

theorem maskInv_writePortReg {s : State} {p o : Nat} {v : DWord} (h : MaskInv s) : MaskInv (writePortReg s p o v) :=
  maskInv_ite h (maskInv_ite (maskInv_writeFpctl h) (maskInv_ite (maskInv_writeFpcnt h) h))

theorem maskInv_writeCollReg {s : State} {c o : Nat} {v : DWord} {wide : Bool} (h : MaskInv s) : MaskInv (writeCollReg s c o v wide) :=
  maskInv_ite h
    (maskInv_ite (maskInv_ite h (maskInv_setColl h)) (maskInv_ite (maskInv_ite (maskInv_enableColl h) (maskInv_disableColl h)) h))

theorem maskInv_writeMailbox {s : State} {o : Nat} {v : DWord} {wide : Bool} (h : MaskInv s) : MaskInv (writeMailbox s o v wide) :=
  maskInv_ite h (maskInv_ite (maskInv_of_agents h rfl) (maskInv_ite (maskInv_of_agents h rfl) h))

theorem maskInv_writeBar0 {s : State} {o : Nat} {v : DWord} {wide : Bool} (h : MaskInv s) : MaskInv (writeBar0 s o v wide) :=
  maskInv_ite (maskInv_writeMailbox h)
    (maskInv_ite (maskInv_of_agents h rfl)
    (maskInv_ite (maskInv_of_agents h rfl)
    (maskInv_ite (maskInv_writeFaultresp h)
    (maskInv_ite (maskInv_writeQueueReg h) (maskInv_ite (maskInv_writePortReg h) (maskInv_ite (maskInv_writeCollReg h) h))))))

theorem outcomeFits_execRegisterWrite {o : Nat} {v : DWord} {wide : Bool} {s : State} (h : MaskInv s) :
    OutcomeFits (execRegisterWrite o v wide s) :=
  maskInv_writeBar0 h

/-! ### The management interface (R395, R397) -/

theorem outcomeFits_execUncorrectableLinkError {s : State} (h : MaskInv s) : OutcomeFits (execUncorrectableLinkError s) :=
  maskInv_of_agents h rfl

/-! ### Debugger and power gating (R319) -/

theorem outcomeFits_execDebuggerHalt {c : Nat} {s : State} (h : MaskInv s) : OutcomeFits (execDebuggerHalt c s) :=
  outcomeFits_ite h (maskInv_setCore h)

theorem outcomeFits_execDebuggerResume {c : Nat} {s : State} (h : MaskInv s) : OutcomeFits (execDebuggerResume c s) :=
  outcomeFits_ite h (maskInv_setCore h)

theorem outcomeFits_execCorePowerGating {c : Nat} {off : Bool} {s : State} (h : MaskInv s) : OutcomeFits (execCorePowerGating c off s) :=
  outcomeFits_ite h (maskInv_setCore (maskInv_ite (maskInv_of_agents h rfl) h))

/-! ### The dispatch -/

theorem outcomeFits_exec {i : Instr} {s : State} (h : MaskInv s) : OutcomeFits (exec i s) := by
  unfold exec
  split
  · exact outcomeFits_execIadd h
  · exact outcomeFits_execIsub h
  · exact outcomeFits_execIadds h
  · exact outcomeFits_execImul h
  · exact outcomeFits_execImulh h
  · exact outcomeFits_execImad h
  · exact outcomeFits_execIdp4 h
  · exact outcomeFits_execIdiv h
  · exact outcomeFits_execIrem h
  · exact outcomeFits_execImin h
  · exact outcomeFits_execImax h
  · exact outcomeFits_execIabs h
  · exact outcomeFits_execIneg h
  · exact outcomeFits_execIcmp h
  · exact outcomeFits_execAndB h
  · exact outcomeFits_execOrB h
  · exact outcomeFits_execXorB h
  · exact outcomeFits_execAndn h
  · exact outcomeFits_execNotB h
  · exact outcomeFits_execShl h
  · exact outcomeFits_execShr h
  · exact outcomeFits_execSar h
  · exact outcomeFits_execRot h
  · exact outcomeFits_execBfx h
  · exact outcomeFits_execBfi h
  · exact outcomeFits_execPopc h
  · exact outcomeFits_execClz h
  · exact outcomeFits_execCtz h
  · exact outcomeFits_execBrev h
  · exact outcomeFits_execSel h
  · exact outcomeFits_execMov h
  · exact outcomeFits_execMovi h
  · exact outcomeFits_execLea h
  · exact outcomeFits_execMovw h
  · exact outcomeFits_execFadd h
  · exact outcomeFits_execFsub h
  · exact outcomeFits_execFmul h
  · exact outcomeFits_execFfma h
  · exact outcomeFits_execFmin h
  · exact outcomeFits_execFmax h
  · exact outcomeFits_execFabs h
  · exact outcomeFits_execFneg h
  · exact outcomeFits_execFcmp h
  · exact outcomeFits_execFclass h
  · exact outcomeFits_execFrnd h
  · exact outcomeFits_execFscale h
  · exact outcomeFits_execFdiv h
  · exact outcomeFits_execFsqrt h
  · exact outcomeFits_execFrcp h
  · exact outcomeFits_execFrsq h
  · exact outcomeFits_execFexp2 h
  · exact outcomeFits_execFlog2 h
  · exact outcomeFits_execFsin h
  · exact outcomeFits_execFcos h
  · exact outcomeFits_execFtanh h
  · exact outcomeFits_execCvt h
  · exact outcomeFits_execCvtq h
  · exact outcomeFits_execCvtd h
  · exact outcomeFits_execPack h
  · exact outcomeFits_execUnpk h
  · exact outcomeFits_execShfl h
  · exact outcomeFits_execBcast h
  · exact outcomeFits_execBallot h
  · exact outcomeFits_execVote h
  · exact outcomeFits_execSred h
  · exact outcomeFits_execSscan h
  · exact outcomeFits_execMatchLanes h
  · exact outcomeFits_execPPair h
  · exact outcomeFits_execNop h
  · exact outcomeFits_execBra h
  · exact outcomeFits_execBraL h
  · exact outcomeFits_execBrx h
  · exact outcomeFits_execCall h
  · exact outcomeFits_execRet h
  · exact outcomeFits_execDivIf h
  · exact outcomeFits_execDivElse h
  · exact outcomeFits_execDivJoin h
  · exact outcomeFits_execDivLoop h
  · exact outcomeFits_execDivBrk h
  · exact outcomeFits_execDivNext h
  · exact outcomeFits_execExit h
  · exact outcomeFits_execYieldTeam h
  · exact outcomeFits_execLaunch h
  · exact outcomeFits_execCwait h
  · exact outcomeFits_execLd h
  · exact outcomeFits_execLdL h
  · exact outcomeFits_execSt h
  · exact outcomeFits_execStL h
  · exact outcomeFits_execLds h
  · exact outcomeFits_execLdsL h
  · exact outcomeFits_execSts h
  · exact outcomeFits_execStsL h
  · exact outcomeFits_execLdk h
  · exact outcomeFits_execAtom h
  · exact outcomeFits_execAtomc h
  · exact outcomeFits_execAtomf h
  · exact outcomeFits_execRed h
  · exact outcomeFits_execAtomag h
  · exact outcomeFits_execFpush h
  · exact outcomeFits_execFpop h
  · exact outcomeFits_execPref h
  · exact outcomeFits_execCwb h
  · exact outcomeFits_execCinv h
  · exact outcomeFits_execBankset h
  · exact outcomeFits_execBankDrainEnd h
  · exact outcomeFits_execCpy h
  · exact outcomeFits_execCpyt h
  · exact outcomeFits_execCopyLineOperation h
  · exact outcomeFits_execRingInit h
  · exact outcomeFits_execRingWait h
  · exact outcomeFits_execRingPark h
  · exact outcomeFits_execRingRel h
  · exact outcomeFits_execRingQ h
  · exact outcomeFits_execPclose h
  · exact outcomeFits_execPopen h
  · exact outcomeFits_execPhase h
  · exact outcomeFits_execBclose h
  · exact outcomeFits_execBquery h
  · exact outcomeFits_execFence h
  · exact outcomeFits_execBarInit h
  · exact outcomeFits_execBarArv h
  · exact outcomeFits_execBarWait h
  · exact outcomeFits_execBarSync h
  · exact outcomeFits_execBarrierCompletionNotice h
  · exact outcomeFits_execAccrd h
  · exact outcomeFits_execAccwr h
  · exact outcomeFits_execRowst h
  · exact outcomeFits_execAccsc h
  · exact outcomeFits_execTileAccessPerformed h
  · exact outcomeFits_execClrClaim h
  · exact outcomeFits_execClaimDrainEnd h
  · exact outcomeFits_execClrFree h
  · exact outcomeFits_execClrTload h
  · exact outcomeFits_execClrTstore h
  · exact outcomeFits_execClrCall h
  · exact outcomeFits_execClrPred h
  · exact outcomeFits_execClrRdrow h
  · exact outcomeFits_execClrWait h
  · exact outcomeFits_execClrQ h
  · exact outcomeFits_execClrCsload h
  · exact outcomeFits_execSequencerCommand h
  · exact outcomeFits_execClearingWatchdogTrip h
  · exact outcomeFits_execRdsys h
  · exact outcomeFits_execWrsys h
  · exact outcomeFits_execClrAsqWrite h
  · exact outcomeFits_execFqovfClear h
  · exact outcomeFits_execTrap h
  · exact outcomeFits_execBrk h
  · exact outcomeFits_execEret h
  · exact outcomeFits_execTlbi h
  · exact outcomeFits_execTlbiAcknowledge h
  · exact outcomeFits_execCtxsv h
  · exact outcomeFits_execCtxld h
  · exact outcomeFits_execSleep h
  · exact outcomeFits_execWake h
  · exact outcomeFits_execSleepIntervalExpires h
  · exact outcomeFits_execMxZero h
  · exact outcomeFits_execMxMma h
  · exact outcomeFits_execMxSmma h
  · exact outcomeFits_execMxQmma h
  · exact outcomeFits_execMxLdacc h
  · exact outcomeFits_execMxStacc h
  · exact outcomeFits_execMxScale h
  · exact outcomeFits_execMxWait h
  · exact outcomeFits_execMxQ h
  · exact outcomeFits_execMxCancel h
  · exact outcomeFits_execMxBind h
  · exact outcomeFits_execMxDispatch h
  · exact outcomeFits_execMxStep h
  · exact outcomeFits_execMxEntryComplete h
  · exact outcomeFits_execLongLatencyCompletion h
  · exact outcomeFits_execSideLogReplay h
  · exact outcomeFits_execFaultRecordPost h
  · exact outcomeFits_execFaultrespRetry h
  · exact outcomeFits_execFaultrespReject h
  · exact outcomeFits_execFaultrespAbort h
  · exact outcomeFits_execQtailDoorbell h
  · exact outcomeFits_execQctlEnable h
  · exact outcomeFits_execQctlDisable h
  · exact outcomeFits_execCommandTakeUp h
  · exact outcomeFits_execLaunchCommand h
  · exact outcomeFits_execSignal h
  · exact outcomeFits_execWaitsig h
  · exact outcomeFits_execWaitsigReread h
  · exact outcomeFits_execCopy h
  · exact outcomeFits_execPortdrain h
  · exact outcomeFits_execPorttrain h
  · exact outcomeFits_execRouteload h
  · exact outcomeFits_execRouteswap h
  · exact outcomeFits_execPlacement h
  · exact outcomeFits_execGangReservation h
  · exact outcomeFits_execPreemption h
  · exact outcomeFits_execRestore h
  · exact outcomeFits_execDependenceEvaluation h
  · exact outcomeFits_execWorkgroupRetirement h
  · exact outcomeFits_execGridRetirement h
  · exact outcomeFits_execLineEviction h
  · exact outcomeFits_execHeldBytesPlaced h
  · exact outcomeFits_execFabricTimeout h
  · exact outcomeFits_execBundleCommitSend h
  · exact outcomeFits_execBundleSettleSend h
  · exact outcomeFits_execBundleWithdrawal h
  · exact outcomeFits_execFrameReceived h
  · exact outcomeFits_execReadLine h
  · exact outcomeFits_execVersionFetch h
  · exact outcomeFits_execResolvingFetch h
  · exact outcomeFits_execWriteLine h
  · exact outcomeFits_execAtomic h
  · exact outcomeFits_execInvalidate h
  · exact outcomeFits_execAcknowledge h
  · exact outcomeFits_execBundlePending h
  · exact outcomeFits_execBundleCommit h
  · exact outcomeFits_execBundleSettle h
  · exact outcomeFits_execCollectiveShard h
  · exact outcomeFits_execManagementFrame h
  · exact outcomeFits_execLinkReplayTimeout h
  · exact outcomeFits_execEmptyAckFrame h
  · exact outcomeFits_execPortWiden h
  · exact outcomeFits_execPortNarrow h
  · exact outcomeFits_execPortWidthTakesEffect h
  · exact outcomeFits_execWavelengthLoss h
  · exact outcomeFits_execWavelengthRelock h
  · exact outcomeFits_execCollectiveSlotEnd h
  · exact outcomeFits_execCollectiveCompletion h
  · exact outcomeFits_execCcctlEnable h
  · exact outcomeFits_execCcctlDisable h
  · exact outcomeFits_execFlitReceived h
  · exact outcomeFits_execColourLost h
  · exact outcomeFits_execColourBGateOff h
  · exact outcomeFits_execColourBWake h
  · exact outcomeFits_execPairDrainEnd h
  · exact outcomeFits_execRoutePairWrite h
  · exact outcomeFits_execRoutePairRetrain h
  · exact outcomeFits_execPairRetrainEnd h
  · exact outcomeFits_execFrequencyDecision h
  · exact outcomeFits_execRelockStart h
  · exact outcomeFits_execRelockEnd h
  · exact outcomeFits_execAllowUpdate h
  · exact outcomeFits_execThermalEmergency h
  · exact outcomeFits_execThermalEmergencyEnd h
  · exact outcomeFits_execDramStackStateChange h
  · exact outcomeFits_execPowerClassChange h
  · exact outcomeFits_execBudgetWindow h
  · exact outcomeFits_execBar2Read h
  · exact outcomeFits_execBar2Write h
  · exact outcomeFits_execPowerOn
  · exact outcomeFits_execBootStage h
  · exact outcomeFits_execAttestationGo h
  · exact outcomeFits_execAttestationReport h
  · exact outcomeFits_execPackageResetRequest
  · exact outcomeFits_execPatrolScrub h
  · exact outcomeFits_execUncorrectableError h
  · exact outcomeFits_execCorrectedSoftErrors h
  · exact outcomeFits_execRegisterWrite h
  · exact outcomeFits_execCloseCompletion h
  · exact outcomeFits_execPostedAccessPerformed h
  · exact outcomeFits_execControlStoreLoadEnd h
  · exact outcomeFits_execPortCommandTimeout h
  · exact outcomeFits_execRouteswapSemaphoreRead h
  · exact outcomeFits_execDebuggerHalt h
  · exact outcomeFits_execDebuggerResume h
  · exact outcomeFits_execCorePowerGating h
  · exact outcomeFits_execUncorrectableLinkError h

/-! ### Fetch, the choice among agents, and what one turn of the machine does (R22, R36, R44, R49, R73, R146) -/

theorem maskInv_pastFetch {s : State} {a : Agent} (h : MaskInv s) : MaskInv (pastFetch s a) :=
  maskInv_ite (maskInv_used h) h

theorem maskInv_fillFetch {s : State} {a : Agent} {i : Instr} (h : MaskInv s) : MaskInv (fillFetch s a i) :=
  maskInv_fillTlbs h

theorem outcomeFits_issueOne {s : State} {k : Nat} (h : MaskInv s) : OutcomeFits (issueOne s k) := by
  unfold issueOne
  extract_lets
  split
  · exact outcomeFits_exec
      (maskInv_fillFetch
      (maskInv_pastFetch (maskInv_setAgent (maskInv_of_agents h rfl) (agentFits_congr (agentFits_agent (maskInv_of_agents h rfl)) rfl))))
  · exact maskInv_takeTrap
      (maskInv_pastFetch (maskInv_setAgent (maskInv_of_agents h rfl) (agentFits_congr (agentFits_agent (maskInv_of_agents h rfl)) rfl)))
  · exact maskInv_fetchLine
      (maskInv_setAgent (maskInv_setAgent (maskInv_of_agents h rfl) (agentFits_congr (agentFits_agent (maskInv_of_agents h rfl)) rfl))
      (agentFits_agent (maskInv_of_agents h rfl)))

theorem maskInv_markChosen {s : State} {k : Nat} {wasYielded : Bool} (h : MaskInv s) : MaskInv (markChosen s k wasYielded) :=
  maskInv_map h rfl (fun _ => rfl) (fun _ fits => agentFits_congr fits rfl)

theorem outcomeFits_tryAgents {chosen : State → Nat → State} (keep : ∀ s k, MaskInv s → MaskInv (chosen s k)) :
    ∀ {ks : List Nat} {s : State}, MaskInv s → OutcomeFits (tryAgents s ks chosen)
  | [], _, h => h
  | k :: ks, s, h => by
    unfold tryAgents
    have one := outcomeFits_issueOne (k := k) h
    split
    · rename_i t ht
      have ht : MaskInv t := by rwa [ht] at one
      exact outcomeFits_ite (maskInv_markChosen (keep _ _ ht)) (outcomeFits_tryAgents keep ht)
    · exact one

theorem maskInv_lapseYields {s : State} {c : Nat} (h : MaskInv s) : MaskInv (lapseYields s c) := by
  refine maskInv_map h rfl (fun e => ?_) (fun e fits => ?_)
  · split <;> rfl
  · split
    · exact agentFits_congr fits rfl
    · exact fits

theorem maskInv_startCycle {s : State} {c : Nat} (h : MaskInv s) : MaskInv (startCycle s c) :=
  maskInv_of_agents h rfl

theorem maskInv_slotMark {s : State} {c : Nat} {t : State} {k : Nat} (h : MaskInv t) : MaskInv (slotMark s c t k) :=
  maskInv_of_agents h rfl

theorem maskInv_slotState {s : State} {c slot : Nat} (h : MaskInv s) : MaskInv (slotState s c slot) :=
  maskInv_lapseYields (maskInv_ite (maskInv_ite (maskInv_startCycle h) h) (maskInv_setCore (maskInv_ite (maskInv_startCycle h) h)))

theorem outcomeFits_slotTurn {s : State} {c slot : Nat} (h : MaskInv s) : OutcomeFits (slotTurn s c slot) :=
  outcomeFits_ite (maskInv_slotState h) (outcomeFits_tryAgents (fun _ _ h1 => maskInv_slotMark h1) (maskInv_slotState h))

theorem maskInv_foresterMark {s : State} {g : Nat} {t : State} {k : Nat} (h : MaskInv t) : MaskInv (foresterMark s g t k) :=
  maskInv_of_agents h rfl

theorem outcomeFits_foresterTurn {s : State} {g : Nat} (h : MaskInv s) : OutcomeFits (foresterTurn s g) :=
  outcomeFits_ite h (outcomeFits_tryAgents (fun _ _ h1 => maskInv_foresterMark h1) h)

theorem maskInv_elapse {s : State} {ns : Nat} (h : MaskInv s) : MaskInv (elapse s ns) :=
  maskInv_of_agents h rfl

theorem outcomeFits_runTurn {s : State} {t : Turn} (h : MaskInv s) : OutcomeFits (runTurn s t) := by
  unfold runTurn
  split
  · exact outcomeFits_slotTurn h
  · exact outcomeFits_foresterTurn h
  · exact maskInv_elapse h
  · exact outcomeFits_ite (outcomeFits_exec h) trivial

theorem outcomeFits_stepOf {s : State} (h : MaskInv s) : OutcomeFits (stepOf s) := by
  unfold stepOf
  split
  · exact outcomeFits_runTurn (maskInv_of_agents h rfl)
  · split
    · exact h
    · exact outcomeFits_runTurn (maskInv_of_agents h rfl)

/-! ### One step of the machine, and the state with an instruction placed where the next step fetches it -/

theorem outcomeFits_step {s : State} (h : MaskInv s) : OutcomeFits (step s) :=
  outcomeFits_stepOf h

/-- Settles O12: the reset state has no agents, and every function a step is made of keeps the masks within the lanes. -/
theorem stepKeepsMasks : Obligations.StepKeepsMasks := by
  unfold Obligations.StepKeepsMasks
  refine ⟨maskInv_reset, fun s t h e => ?_⟩
  have kept : OutcomeFits (step s) := outcomeFits_step h
  rwa [e] at kept

end Sys2Proof.Machine
end

section
/-! SUPPORT. What accesses to memory, closes and the sending of frames leave of the agents: each of these functions keeps the current
agent's number, and every part of the agents that does not concern memory. -/

namespace Sys2Proof.Machine

open Sys2Proof.Safety

/-- The current agent's number, and of every agent what `g` tells of it, are in `t` what they are in `s`. -/
def Kept {α : Type} (g : Agent → α) (s t : State) : Prop := t.cur = s.cur ∧ ∀ k, g (t.agent k) = g (s.agent k)

section
variable {α : Type} {g : Agent → α} {s t u : State}

theorem kept_refl (g : Agent → α) (s : State) : Kept g s s := ⟨rfl, fun _ => rfl⟩

theorem Kept.trans (h : Kept g s t) (h' : Kept g t u) : Kept g s u := ⟨h'.1.trans h.1, fun k => (h'.2 k).trans (h.2 k)⟩

theorem kept_of_agents (cur : t.cur = s.cur) (agents : t.agents = s.agents) : Kept g s t :=
  ⟨cur, fun k => by rw [State.agent, agents, State.agent]⟩

theorem kept_setAgent {k : Nat} {a : Agent} (h : g a = g (s.agent k)) : Kept g s (s.setAgent k a) := by
  refine ⟨rfl, fun j => ?_⟩
  by_cases hj : j = k
  · subst hj
    rw [setAgent_agent_same, h]
  · simp [State.agent, Tab.get_put_other _ _ _ hj]

theorem kept_modAgent {k : Nat} {f : Agent → Agent} (h : ∀ a, g (f a) = g a) : Kept g s (s.modAgent k f) := by
  unfold State.modAgent
  split
  · exact kept_refl g s
  · rename_i a ha
    obtain rfl := agent_of_find ha
    exact kept_setAgent (h _)

theorem kept_ite {c : Prop} [Decidable c] (ht : Kept g s t) (hu : Kept g s u) : Kept g s (if c then t else u) := by
  split
  · exact ht
  · exact hu

theorem kept_foldl {β : Type} {f : State → β → State} (step : ∀ s x, Kept g s (f s x)) (xs : List β) (s : State) :
    Kept g s (xs.foldl f s) :=
  List.foldlRecOn (motive := fun t : State => Kept g s t) _ _ (kept_refl g s) fun t h x _ => h.trans (step t x)

end

/-! ### What sends frames changes nothing else -/

/-- The states differ at most in the ports, what waits to be sent and what awaits an answer. -/
def SendOnly (s t : State) : Prop :=
  { t with ports := s.ports, backlog := s.backlog, sent := s.sent, sentSeq := s.sentSeq, multicasts := s.multicasts } = s

theorem sendOnly_refl (s : State) : SendOnly s s := rfl

theorem SendOnly.trans {s t u : State} (h : SendOnly s t) (h' : SendOnly t u) : SendOnly s u := by
  have e := congrArg (fun x : State =>
    { x with ports := s.ports, backlog := s.backlog, sent := s.sent, sentSeq := s.sentSeq, multicasts := s.multicasts }) h'
  exact e.trans h

theorem sendOnly_ite {c : Prop} [Decidable c] {s t u : State} (ht : SendOnly s t) (hu : SendOnly s u) :
    SendOnly s (if c then t else u) := by
  split
  · exact ht
  · exact hu

theorem sendOnly_foldl {β : Type} {f : State → β → State} (step : ∀ s x, SendOnly s (f s x)) (xs : List β) (s : State) :
    SendOnly s (xs.foldl f s) :=
  List.foldlRecOn (motive := fun t : State => SendOnly s t) _ _ (sendOnly_refl s) fun t h x _ => h.trans (step t x)

theorem SendOnly.mem {s t : State} (h : SendOnly s t) : t.mem = s.mem := (congrArg State.mem h :)

theorem SendOnly.held {s t : State} (h : SendOnly s t) : t.held = s.held := (congrArg State.held h :)

theorem SendOnly.kept {α : Type} {g : Agent → α} {s t : State} (h : SendOnly s t) : Kept g s t :=
  kept_of_agents (congrArg State.cur h :) (congrArg State.agents h :)

theorem sendOnly_pumpOne (s : State) (p : Nat) : SendOnly s (pumpOne s p) := by
  unfold pumpOne
  extract_lets x
  refine sendOnly_ite (sendOnly_refl s) ?_
  split
  · exact sendOnly_refl s
  · exact rfl

theorem sendOnly_pumpPort (s : State) (p : Nat) : SendOnly s (pumpPort s p) := sendOnly_foldl (fun s _ => sendOnly_pumpOne s p) _ s

theorem sendOnly_admitFrames : ∀ (es : List (Nat × OutFrame)) (s : State), SendOnly s (admitFrames s es)
  | [], _ => rfl
  | e :: es, s => by
    unfold admitFrames
    have put : SendOnly s (s.setPort e.1 { s.port e.1 with out := (s.port e.1).out ++ [e.2] }) := rfl
    exact sendOnly_ite ((put.trans (sendOnly_pumpPort _ _)).trans (sendOnly_admitFrames es _)) rfl

theorem sendOnly_queueFrame (s : State) (p : Nat) (f : OutFrame) : SendOnly s (queueFrame s p f) := by
  have put : SendOnly s (s.setPort p { s.port p with out := (s.port p).out ++ [f] }) := rfl
  exact sendOnly_ite (sendOnly_admitFrames _ _) (put.trans (sendOnly_pumpPort _ _))

theorem sendOnly_sendAlong (s : State) (dest tc : Nat) (path : Nat × Nat) (ops : List FabOp) : SendOnly s (sendAlong s dest tc path ops) :=
  sendOnly_ite (sendOnly_refl s) (sendOnly_queueFrame _ _ _)

theorem sendOnly_trySend (s : State) (tag : Nat) : SendOnly s (trySend s tag) := by
  unfold trySend
  split
  · exact sendOnly_refl s
  · refine sendOnly_ite (sendOnly_refl s) ?_
    split
    · exact sendOnly_refl s
    · refine SendOnly.trans ?_ (sendOnly_sendAlong _ _ _ _ _)
      exact rfl

theorem sendOnly_sendOps (s : State) (dest : Nat) (op : FabOp) (more : List FabOp) (why : SentFor) :
    SendOnly s (sendOps s dest op more why) := by
  refine SendOnly.trans ?_ (sendOnly_trySend _ _)
  exact rfl

theorem sendOnly_sendOp (s : State) (dest : Nat) (op : FabOp) (why : SentFor) : SendOnly s (sendOp s dest op why) :=
  sendOnly_sendOps s dest op [] why

theorem sendOnly_sendVia (s : State) (dest : Nat) (path : Nat × Nat) (op : FabOp) (why : SentFor) :
    SendOnly s (sendVia s dest path op why) := by
  refine SendOnly.trans ?_ (sendOnly_sendAlong _ _ _ _ _)
  exact rfl

theorem sendOnly_sendGroup (s : State) (n tc : Nat) (op : FabOp) : SendOnly s (sendGroup s n tc op) := by
  unfold sendGroup
  extract_lets ports m raw
  refine sendOnly_ite (sendOnly_refl s) (SendOnly.trans ?_ (sendOnly_foldl (fun s p => sendOnly_queueFrame s p _) _ _))
  exact rfl

theorem sendOnly_sendToAll (s : State) (n : Nat) (devs : List Nat) (op : FabOp) (why : SentFor) :
    SendOnly s (sendToAll s n devs op why) := by
  refine SendOnly.trans ?_ (sendOnly_sendGroup _ _ _ _)
  exact rfl

theorem sendOnly_fetchLine (s : State) (asid loc : Nat) (why : SentFor) : SendOnly s (fetchLine s asid loc why) :=
  sendOnly_ite (sendOnly_refl s) (sendOnly_sendOp _ _ _ _)

/-! ### What writes bytes at their homes changes no agent -/

section
variable {α : Type} {g : Agent → α}

theorem kept_recallLine (s : State) (asid pa but : Nat) : Kept g s (recallLine s asid pa but) := by
  unfold recallLine
  split
  · exact kept_refl g s
  · extract_lets back op t
    have ht : Kept g s t := kept_of_agents rfl rfl
    refine kept_ite (ht.trans (kept_of_agents rfl rfl)) ?_
    split
    · exact ht.trans ((sendOnly_sendToAll _ _ _ _ _).kept)
    · exact ht.trans (kept_foldl (fun s _ => (sendOnly_sendOp s _ _ _).kept) _ _)

theorem kept_writeShared (s : State) (asid : Nat) (bytes : Tab Byte) : Kept g s (writeShared s asid bytes) := by
  unfold writeShared
  extract_lets before busy later t
  have ht : Kept g s t := kept_of_agents rfl rfl
  have counted (u : State) : Kept g u (countForks before u bytes) := kept_of_agents rfl rfl
  refine ht.trans (kept_ite (counted _) (Kept.trans ?_ (counted _)))
  refine Kept.trans ?_ (kept_foldl (fun s _ => kept_recallLine s _ _ _) _ _)
  exact kept_of_agents rfl rfl

theorem kept_writeLocal (s : State) (asid : Nat) (bytes : Tab Byte) : Kept g s (writeLocal s asid bytes) := by
  have spoiled : Kept g s (spoilObjects s bytes).1 := by
    unfold spoilObjects
    extract_lets hit
    split
    · exact kept_refl g s
    · exact kept_of_agents rfl rfl
  exact spoiled.trans (kept_writeShared _ _ _)

theorem kept_pushHeld (s : State) (k asid ln : Nat) : Kept g s (pushHeld s k asid ln) := by
  unfold pushHeld
  extract_lets home bytes
  refine kept_ite (kept_refl g s) (kept_ite (Kept.trans ?_ ((sendOnly_sendOp _ _ _ _).kept)) ((sendOnly_sendOp _ _ _ _).kept))
  exact kept_of_agents rfl rfl

theorem kept_placeFrom (s : State) (port k asid : Nat) (bytes : Tab Byte) : Kept g s (placeFrom s port k asid bytes) := by
  unfold placeFrom
  extract_lets mine away cut t
  have cutKeeps : Kept g s (cutOff s port mine) := kept_ite (kept_refl g s) (kept_of_agents rfl rfl)
  have ht : Kept g s t := cutKeeps.trans (kept_writeLocal _ _ _)
  refine kept_ite (ht.trans (kept_of_agents rfl rfl)) (ht.trans ?_)
  clear_value t
  unfold placeAway
  extract_lets whole u
  have hu : Kept g t u := kept_of_agents rfl rfl
  exact hu.trans (kept_foldl (fun s _ => kept_pushHeld s _ _ _) _ _)

theorem kept_placeHome (s : State) (k asid : Nat) (bytes : Tab Byte) : Kept g s (placeHome s k asid bytes) := kept_placeFrom _ _ _ _ _

theorem kept_pushWhere (s : State) (n k asid : Nat) (p : Nat → Bool) : Kept g s (pushWhere s n k asid p) := by
  unfold pushWhere
  extract_lets x t bad u
  have ht : Kept g s t := kept_placeFrom _ _ _ _ _
  clear_value t
  have hu : Kept g t u := kept_of_agents rfl rfl
  exact (ht.trans hu).trans (kept_of_agents rfl rfl)

theorem kept_pushAll (s : State) (k asid : Nat) : Kept g s (pushAll s k asid) := kept_foldl (fun s n => kept_pushWhere s n k asid _) _ s

theorem kept_settleOrphan (s : State) (e : Nat × Agent) : Kept g s (settleOrphan s e) := by
  unfold settleOrphan
  extract_lets cs t left
  have ht : Kept g s t := kept_foldl (fun s _ => kept_placeFrom s _ _ _ _) _ s
  clear_value t
  exact ht.trans (kept_of_agents rfl rfl)

theorem kept_settleOrphans (s : State) : Kept g s (settleOrphans s) := kept_foldl kept_settleOrphan _ s

theorem kept_dropViews (s : State) (k : Nat) (bytes : Tab Byte) : Kept g s (dropViews s k bytes) := kept_of_agents rfl rfl

/-! ### Versions of bundles, and collectives -/

theorem kept_commitVersion (s : State) (asid ident line : Nat) : Kept g s (commitVersion s asid ident line) := by
  unfold commitVersion
  split
  · exact kept_refl g s
  · rename_i v _
    extract_lets was old kept t
    have ht : Kept g s t := kept_writeLocal _ _ _
    clear_value t
    exact ht.trans (kept_of_agents rfl rfl)

theorem kept_resolveLine (s : State) (asid line : Nat) : Kept g s (resolveLine s asid line) := by
  unfold resolveLine
  split
  · exact kept_refl g s
  · rename_i v _
    extract_lets r
    have hr : Kept g s r.1 := by
      unfold r originCommitted
      split
      · exact kept_refl g s
      · split
        · exact kept_refl g s
        · split
          · exact kept_refl g s
          · exact kept_of_agents rfl rfl
    clear_value r
    exact kept_ite (hr.trans (kept_commitVersion _ _ _ _)) hr

theorem kept_resolveReads (s : State) (a : Agent) (locs : List Nat) : Kept g s (resolveReads s a locs) :=
  kept_foldl (fun s _ => kept_ite (kept_commitVersion s _ _ _) (kept_ite (kept_resolveLine s _ _) (kept_refl g s))) _ s

theorem kept_sendShards (s : State) (c : Nat) (x : Collective) (dest : Nat) (path : Nat × Nat) (first : Nat) (bs : List Byte) :
    Kept g s (sendShards s c x dest path first bs) := kept_foldl (fun s _ => (sendOnly_sendVia s _ _ _ _).kept) _ s

theorem kept_startSlot (s : State) (c : Nat) : Kept g s (startSlot s c) := by
  unfold startSlot
  extract_lets x r read done
  have hd : Kept g s done := kept_of_agents rfl rfl
  have hread {va n : Nat} {go : List Byte → State} (hgo : ∀ bs, Kept g s (go bs)) : Kept g s (read va n go) := by
    unfold read
    split
    · exact hgo _
    · exact kept_of_agents rfl rfl
    · exact (sendOnly_fetchLine _ _ _ _).kept
  refine kept_ite (kept_refl g s) (kept_ite ?_ ?_)
  · exact hread fun _ => hd.trans (kept_foldl (fun s _ => kept_sendShards s _ _ _ _ _ _) _ _)
  · split
    · exact hd
    · exact hread fun _ => hd.trans (kept_sendShards _ _ _ _ _ _ _)

theorem kept_beginForks (s : State) : Kept g s (beginForks s) := by
  refine kept_foldl (fun s e => ?_) _ s
  extract_lets x
  refine kept_ite ?_ (kept_refl g s)
  unfold forkCollective
  extract_lets r rec_ n m map ranks ok
  have set (y : Collective) : Kept g s (s.setColl e.1 y) := kept_of_agents rfl rfl
  exact (set _).trans (kept_startSlot _ _)

theorem kept_tellHome (id : Nat) (b : Bundle) (settle : Bool) (s : State) (ln : Nat) : Kept g s (tellHome id b settle s ln) :=
    (sendOnly_sendOp _ _ _ _).kept

theorem kept_placeVersion (b : Bundle) (s : State) (ln : Nat) : Kept g s (placeVersion b s ln) :=
  kept_ite (kept_of_agents rfl rfl) (kept_of_agents rfl rfl)

theorem kept_placeVersions (s : State) (id : Nat) : Kept g s (placeVersions s id) := by
  unfold placeVersions
  split
  · exact kept_refl g s
  · refine kept_ite (kept_refl g s) ?_
    extract_lets placed mine t asid unsent u all b v
    have ht : Kept g s t := kept_foldl (fun s ln => kept_placeVersion _ s ln) _ s
    have hu : Kept g t u := kept_foldl (fun s _ => (sendOnly_sendOps s _ _ _ _).kept) _ t
    have hv : Kept g u v := kept_ite (kept_of_agents rfl rfl) (kept_refl g u)
    exact ((ht.trans hu).trans hv).trans (kept_of_agents rfl rfl)
end

/-! ### Closes change of an agent the closes it holds back -/

/-- `g` tells nothing of the closes. -/
def NoCloses {α : Type} (g : Agent → α) : Prop := ∀ a cs, g { a with closes := cs } = g a

section
variable {α : Type} {g : Agent → α} (hg : NoCloses g)
include hg

theorem kept_flushWhere (p : Nat → Bool) (s : State) (j : Nat) : Kept g s (flushWhere p s j) := by
  unfold flushWhere
  extract_lets b cs bytes rest
  exact ((kept_placeHome _ _ _ _).trans (kept_modAgent fun a => hg a rest)).trans (kept_dropViews _ _ _)

theorem kept_flushClosed (s : State) (k asid line : Nat) : Kept g s (flushClosed s k asid line) := by
  unfold flushClosed
  extract_lets t
  have ht : Kept g s t := kept_foldl (fun s n => kept_pushWhere s n _ _ _) _ s
  exact (ht.trans (kept_settleOrphans t)).trans (kept_foldl (kept_flushWhere hg _) _ _)

theorem kept_flushLine (s : State) (k loc : Nat) : Kept g s (flushLine s k loc) := kept_flushClosed hg _ _ _ _

theorem kept_placeClose (s : State) (k : Nat) (c : Close) : Kept g s (placeClose s k c) := by
  unfold placeClose carryClosed
  extract_lets a t away u x v
  have ht : Kept g s t := ((kept_settleOrphans s).trans (kept_foldl (kept_flushWhere hg _) _ _)).trans (kept_pushAll _ _ _)
  clear_value t
  have hu : Kept g t u := kept_of_agents rfl rfl
  have hv : Kept g t v := kept_placeHome _ _ _ _
  exact ht.trans (kept_ite (hu.trans (kept_of_agents rfl rfl)) (hv.trans (kept_foldl (fun s _ => kept_pushHeld s _ _ _) _ _)))

theorem kept_launchClose (s : State) (k : Nat) (c : Close) : Kept g s (launchClose s k c) := by
  refine kept_ite (kept_refl g s) ?_
  extract_lets t a
  have ht : Kept g s t := kept_placeClose hg _ _ _
  exact (ht.trans (kept_setAgent (hg a _))).trans (kept_dropViews _ _ _)

theorem kept_settleCloses (s : State) (k sc : Nat) : Kept g s (settleCloses s k sc) :=
  (kept_settleOrphans s).trans (kept_foldl (fun s j => kept_foldl (fun s c => kept_launchClose hg s j c) _ s) _ _)
end

/-! ### What accesses, opens and closes leave of registers and mask -/

/-- What the lanes of an agent are, and its registers. -/
def lanesOf (a : Agent) : Mask × Nat × Tab (List Word) × Tab Word := (a.mask, a.nlanes, a.vregs, a.sregs)

theorem noCloses_lanesOf : NoCloses lanesOf := fun _ _ => rfl

theorem kept_softwareWrote (s : State) (k : Nat) (locs : List Nat) : Kept lanesOf s (softwareWrote s k locs) := by
  refine ⟨softwareWrote_cur s k locs, fun j => ?_⟩
  cases h : Tab.find s.agents j with
  | none =>
    have gone : Tab.find (softwareWrote s k locs).agents j = none := by
      obtain e | ⟨u, e⟩ := softwareWrote_agents s k locs <;> rw [e]
      · exact h
      · rw [Tab.find_map (fun e => if e.1 = k then e.2 else spoilAt u e.2 locs), h]
        rfl
    rw [State.agent, State.agent, Tab.get_eq_find, Tab.get_eq_find, gone, h]
  | some a =>
    obtain ⟨b, hb, same⟩ := softwareWrote_find k locs h
    rw [agent_of_find hb, agent_of_find h]
    exact (congrArg lanesOf same :)

theorem kept_giveWay (s : State) (k loc n num : Nat) : Kept lanesOf s (giveWay s k loc n num) := kept_modAgent fun _ => rfl

theorem kept_homeWrite (s : State) (k asid loc n x num : Nat) : Kept lanesOf s (homeWrite s k asid loc n x num) := by
  unfold homeWrite
  extract_lets t bytes
  have ht : Kept lanesOf s t := kept_softwareWrote _ _ _
  exact ((ht.trans (kept_writeLocal _ _ _)).trans (kept_giveWay _ _ _ _ _)).trans (kept_dropViews _ _ _)

theorem kept_used (s : State) (n : Nat) : Kept lanesOf s (s.used n) := kept_of_agents rfl rfl

theorem kept_noteStrong (s : State) (k loc n : Nat) : Kept lanesOf s (noteStrong s k loc n) := kept_of_agents rfl rfl

theorem kept_strongFrom (s : State) (k asid loc n num : Nat) (f : Nat → Option Nat) :
    Kept lanesOf s (strongFrom s k asid loc n num f).s := by
  unfold strongFrom
  extract_lets u raced old t
  have hu : Kept lanesOf s u := (kept_resolveReads s _ _).trans (kept_flushLine noCloses_lanesOf _ _ _)
  have ht : Kept lanesOf u t := (kept_ite (kept_refl _ u) (kept_used _ _)).trans (kept_noteStrong _ _ _ _)
  clear_value t u
  split
  · exact hu
  · split
    · exact hu
    · split
      · exact hu.trans ht
      · exact ((hu.trans ht).trans (kept_homeWrite _ _ _ _ _ _ _)).trans (kept_beginForks _)

theorem kept_performPosted (s : State) (e : Nat) (p : Posted) : Kept lanesOf s (performPosted s e p) := by
  unfold performPosted
  extract_lets done
  have hd : Kept lanesOf s done := kept_of_agents rfl rfl
  split
  · exact hd.trans (kept_of_agents rfl rfl)
  · rename_i ctrl ord loc va data _
    refine kept_ite ?_ ?_
    · extract_lets r
      have hr : Kept lanesOf s r.s := hd.trans (kept_strongFrom _ _ _ _ _ _ _)
      clear_value r
      exact kept_ite (hr.trans (kept_modAgent fun _ => rfl)) hr
    · extract_lets t u
      have ht : Kept lanesOf s t := kept_flushClosed noCloses_lanesOf _ _ _ _
      clear_value t
      have hu : Kept lanesOf t u := Kept.trans (kept_of_agents rfl rfl) (kept_giveWay _ _ _ _ _)
      exact kept_ite (ht.trans (hu.trans ((sendOnly_sendOp _ _ _ _).kept))) ht

theorem kept_drainPosted (s : State) (k : Nat) (p : PostedJob → Bool) : Kept lanesOf s (drainPosted s k p) :=
  kept_foldl (fun s (e : Nat × Posted) => kept_performPosted s e.1 e.2) _ s

theorem kept_openPhase (s : State) (k sc : Nat) : Kept lanesOf s (openPhase s k sc) := by
  unfold openPhase
  extract_lets t u a left waits
  have ht : Kept lanesOf s t := kept_settleCloses noCloses_lanesOf _ _ _
  have hu : Kept lanesOf t u := kept_of_agents rfl rfl
  exact (ht.trans hu).trans (kept_setAgent rfl)

theorem kept_wakeAgent (s : State) (k : Nat) : Kept lanesOf s (wakeAgent s k) := by
  unfold wakeAgent
  extract_lets a
  refine kept_ite (Kept.trans ?_ (kept_openPhase _ _ _)) (kept_setAgent rfl)
  exact kept_setAgent rfl

theorem kept_completeClose (s : State) (k : Nat) : Kept lanesOf s (completeClose s k) := by
  have first : Kept lanesOf s (settleFirst s k) := by
    unfold settleFirst
    split
    · exact kept_refl _ s
    · extract_lets t a
      have ht : Kept lanesOf s t := kept_launchClose noCloses_lanesOf _ _ _
      exact kept_ite ht (ht.trans (kept_setAgent rfl))
  unfold completeClose
  split
  · exact kept_refl _ s
  · extract_lets t
    refine kept_ite first ?_
    split
    · exact first
    · exact first.trans (kept_foldl kept_wakeAgent _ t)

theorem kept_closeNow (s : State) (k sc : Nat) : Kept lanesOf s (closeNow s k sc) := by
  have issued : Kept lanesOf s (issueClose s k sc none) := by
    unfold issueClose
    extract_lets a
    exact kept_ite (kept_setAgent rfl) (kept_setAgent rfl)
  exact issued.trans (kept_completeClose _ _)

theorem kept_republish (s : State) (k : Nat) : Kept lanesOf s (republish s k) := by
  refine kept_foldl (fun s (e : Nat × Bundle) => ?_) _ s
  unfold publish
  split
  · exact kept_refl _ s
  · split
    · rename_i b _ _ ln _
      unfold abandonBundle
      extract_lets t u
      have logged : Kept lanesOf s (logWithdrawal s b) := kept_ite (kept_of_agents rfl rfl) (kept_of_agents rfl rfl)
      have discarded (v : State) : Kept lanesOf v (discardVersions v e.1 b) :=
        Kept.trans (kept_of_agents rfl rfl) (kept_foldl (fun v ln => kept_tellHome _ _ _ v ln) _ _)
      have ht : Kept lanesOf s t := (logged.trans (discarded _)).trans (kept_of_agents rfl rfl)
      have hu : Kept lanesOf t u := kept_of_agents rfl rfl
      exact (ht.trans hu).trans (kept_modAgent fun _ => rfl)
    · exact Kept.trans (kept_of_agents rfl rfl) (kept_placeVersions _ _)

/-- A close that completes where an access releases leaves registers and mask (R232). -/
theorem kept_releases {u w : State} {sc : Nat} (h : Releases u w sc) : Kept lanesOf u w := by
  obtain ⟨-, -, rfl, -⟩ := h
  exact ((kept_drainPosted _ _ _).trans (kept_republish _ _)).trans (kept_closeNow _ _ _)

theorem kept_objectAct (s : State) (k asid loc : Nat) (op : BarOp) : Kept lanesOf s (objectAct s k asid loc op).s := by
  unfold objectAct
  extract_lets u raced old t
  have hu : Kept lanesOf s u := (kept_resolveReads s _ _).trans (kept_flushLine noCloses_lanesOf _ _ _)
  have ht : Kept lanesOf u t := (kept_ite (kept_refl _ u) (kept_used _ _)).trans (kept_noteStrong _ _ _ _)
  clear_value t u
  split
  · exact hu
  · split
    · exact hu
    · split
      · exact hu.trans ht
      · exact ((((hu.trans ht).trans (kept_softwareWrote _ _ _)).trans (kept_writeShared _ _ _)).trans (kept_giveWay _ _ _ _ _)).trans
          (kept_dropViews _ _ _)

end Sys2Proof.Machine
end

section
/-! SUPPORT. TLB shoot-downs and their acknowledgements (R317 to R319); sleeping and waking (R22, R333). -/

namespace Sys2Proof.Machine

open Sys2Proof.Safety

/-! ### Shoot-downs -/

theorem setAgent_find_same (s : State) (k : Nat) (a : Agent) : Tab.find (s.setAgent k a).agents k = some a := by simp

theorem wrN_hold (a : Agent) (r n : Nat) (f : Nat → Option Nat) : (wrN a r n f).hold = a.hold :=
  (congrArg Agent.hold (wrN_only n a r f) :)

theorem wrN_pc (a : Agent) (r n : Nat) (f : Nat → Option Nat) : (wrN a r n f).pc = a.pc :=
  (congrArg Agent.pc (wrN_only n a r f) :)

/-- What the end of a window writes leaves its agent where it is, held as it was. -/
theorem writeEntry_find {s : State} {k : Nat} {a : Agent} (e : LAEntry) (h : Tab.find s.agents k = some a) :
    ∃ b, Tab.find (writeEntry s k e).agents k = some b ∧ b.hold = a.hold ∧ b.pc = a.pc := by
  obtain rfl := agent_of_find h
  exact ⟨_, setAgent_find_same s k _, wrN_hold .., wrN_pc ..⟩

theorem writeEnded_find {k : Nat} {la : List LAEntry} {s : State} {a : Agent} (h : Tab.find s.agents k = some a) :
    ∃ b, Tab.find (writeEnded s k la).agents k = some b ∧ b.hold = a.hold ∧ b.pc = a.pc := by
  unfold writeEnded
  induction la.filter LAEntry.ended generalizing s a with
  | nil => exact ⟨a, h, rfl, rfl⟩
  | cons e es ih =>
    obtain ⟨b, hb, hold, pc⟩ := writeEntry_find e h
    obtain ⟨c, hc, hold', pc'⟩ := ih hb
    exact ⟨c, hc, hold'.trans hold, pc'.trans pc⟩

theorem writeEnded_tlbs (s : State) (k : Nat) (la : List LAEntry) : (writeEnded s k la).tlbs = s.tlbs := by
  unfold writeEnded
  induction la.filter LAEntry.ended generalizing s with
  | nil => rfl
  | cons e es ih => exact ih _

/-- An agent whose instruction an event has ended goes on after it. -/
theorem resumeAfter_find {s : State} {k : Nat} {a : Agent} (h : Tab.find s.agents k = some a) :
    ∃ b, Tab.find (resumeAfter s k).agents k = some b ∧ b.hold = .none ∧ b.pc = a.pc + 8 := by
  unfold resumeAfter
  extract_lets b la
  obtain ⟨c, hc, hold, pc⟩ := writeEnded_find (la := la) (setAgent_find_same s k { b with
    hold := .none, counted := false, pc := b.pc + 8, lahead := la.filter (fun e => !e.ended || e.err.isSome) })
  exact ⟨c, hc, hold, pc.trans (agent_of_find h ▸ rfl)⟩

theorem writeEnded_shootdown (s : State) (k : Nat) (la : List LAEntry) : (writeEnded s k la).shootdown = s.shootdown := by
  unfold writeEnded
  induction la.filter LAEntry.ended generalizing s with
  | nil => rfl
  | cons e es ih => exact ih _

theorem resumeAfter_shootdown (s : State) (k : Nat) : (resumeAfter s k).shootdown = s.shootdown := writeEnded_shootdown _ _ _

theorem resumeAfter_tlbs (s : State) (k : Nat) : (resumeAfter s k).tlbs = s.tlbs := writeEnded_tlbs _ _ _

/-- The state in which the units have been asked, and the team that asks is held. -/
def asking (s : State) (a : Agent) (f : FArgs) : State :=
  State.setMe { s with
    shootdown := some (f.mod.toNat % 4, rd1 a f.b 0 % 2 ^ 13, if f.mod.toNat % 4 = 0 then rdN a f.a.toNat 2 0 else 0, s.cur, List.range
      unitCount)
    asidCache := if f.mod.toNat % 4 = 1 then Tab.erase s.asidCache (rd1 a f.b 0 % 2 ^ 13) else s.asidCache } { a with hold := .tlbi }

theorem exec_tlbi_asks {s : State} {a : Agent} {f : FArgs} (r : Ready s a (.tlbi f)) (on : guardOn a (.tlbi f) = true)
    (idle : s.shootdown = none) : Stays (.tlbi f) s (asking s a f) := by
  show execTlbi f s = _
  simp only [execTlbi, issue_ready r, on, idle, Option.isSome_none, Bool.not_true, Bool.false_eq_true, if_false, asking]

/-! ### Acknowledgements -/

section
variable (s : State) (mode asid va k : Nat) (units : List Nat) (u : Nat)

/-- The state in which a unit's entries are gone, before the team that asked goes on. -/
def forgetting : State :=
  { s with tlbs := Tab.put s.tlbs u ((Tab.get s.tlbs u []).filter (fun t => !removed mode asid va t))
           asidCache := if mode = 1 then Tab.erase s.asidCache asid else s.asidCache
           shootdown := if (units.filter (· != u)).isEmpty then none else some (mode, asid, va, k, units.filter (· != u)) }

theorem acknowledgeUnit_eq : acknowledgeUnit s mode asid va k units u =
    if (units.filter (· != u)).isEmpty && (s.agent k).hold == .tlbi then resumeAfter (forgetting s mode asid va k units u) k
    else forgetting s mode asid va k units u := rfl

theorem acknowledgeUnit_tlbs : (acknowledgeUnit s mode asid va k units u).tlbs =
    Tab.put s.tlbs u ((Tab.get s.tlbs u []).filter (fun t => !removed mode asid va t)) := by
  rw [acknowledgeUnit_eq]
  split
  · exact resumeAfter_tlbs _ _
  · rfl

theorem acknowledgeUnit_gone {e : TlbEntry} (h : e ∈ Tab.get (acknowledgeUnit s mode asid va k units u).tlbs u []) :
    removed mode asid va e = false := by
  rw [acknowledgeUnit_tlbs, Tab.get_put_same] at h
  simpa using (List.mem_filter.mp h).2

/-- With the last acknowledgement the team that asked goes on after its TLBI (R318). -/
theorem acknowledgeUnit_last {b : Agent} (last : units.filter (· != u) = []) (h : Tab.find s.agents k = some b) (held : b.hold = .tlbi) :
    ∃ c, Tab.find (acknowledgeUnit s mode asid va k units u).agents k = some c ∧ c.hold = .none ∧ c.pc = b.pc + 8 := by
  have resumed : acknowledgeUnit s mode asid va k units u = resumeAfter (forgetting s mode asid va k units u) k := by
    rw [acknowledgeUnit_eq, last, agent_of_find h, held]
    rfl
  exact resumed ▸ resumeAfter_find h

theorem acknowledgeUnit_left (left : units.filter (· != u) ≠ []) :
    acknowledgeUnit s mode asid va k units u = forgetting s mode asid va k units u := by
  rw [acknowledgeUnit_eq]
  simp [List.isEmpty_iff, left]

theorem acknowledgeUnit_over (last : units.filter (· != u) = []) : (acknowledgeUnit s mode asid va k units u).shootdown = none := by
  have none_left : (forgetting s mode asid va k units u).shootdown = none := by
    unfold forgetting
    rw [last]
    rfl
  rw [acknowledgeUnit_eq]
  split
  · exact (resumeAfter_shootdown _ _).trans none_left
  · exact none_left

theorem acknowledgeUnit_others {j : Nat} (h : j ≠ u) :
    Tab.get (acknowledgeUnit s mode asid va k units u).tlbs j [] = Tab.get s.tlbs j [] := by
  rw [acknowledgeUnit_tlbs, Tab.get_put_other _ _ _ h]
/-- A unit that is not stopped and has no access outstanding acknowledges, and so does that of a gated core (R319, R356). -/
theorem exec_tlbiAcknowledge (asked : s.shootdown = some (mode, asid, va, k, units)) (hu : u ∈ units)
    (free : unitBusy s u = false ∧ (∀ d, unitDie u = some d → (s.die d).relock = none) ∨ u < 512 ∧ (s.core u).gated = true) :
    exec (.tlbiAcknowledge u) s = .next (acknowledgeUnit s mode asid va k units u) := by
  show execTlbiAcknowledge u s = _
  unfold execTlbiAcknowledge
  simp only [asked]
  have member : units.contains u = true := by simpa using hu
  rw [member]
  obtain ⟨idle, runs⟩ | ⟨core, gated⟩ := free
  · cases hd : unitDie u with
    | none => simp [idle]
    | some d => simp [idle, dieStopped, runs d hd]
  · simp [core, gated]
end

end Sys2Proof.Machine
end

section
/-! SUPPORT. Sleeping and waking (R22, R333). -/

namespace Sys2Proof.Machine

open Sys2Proof.Safety

/-- An open leaves its agent with nothing seen, in the state it was in (R226). -/
theorem openPhase_find (s : State) (k sc : Nat) : ∃ c, Tab.find (openPhase s k sc).agents k = some c ∧ c.state = (s.agent k).state ∧
    c.sleepEnd = (s.agent k).sleepEnd ∧ c.seen = [] := by
  have kept : Kept (fun a => (a.state, a.sleepEnd)) s (settleCloses s k sc) := kept_settleCloses (fun _ _ => rfl) s k sc
  obtain ⟨state, sleepEnd⟩ := Prod.mk.inj (kept.2 k)
  unfold openPhase
  extract_lets t u a left waits
  exact ⟨_, setAgent_find_same _ _ _, state, sleepEnd, rfl⟩

theorem wakeAgent_find {s : State} {k : Nat} {b : Agent} (hb : Tab.find s.agents k = some b) (asleep : b.state = .sleep) :
    ∃ c, Tab.find (wakeAgent s k).agents k = some c ∧ c.state = .ready ∧ c.sleepEnd = 0 ∧ c.seen = [] := by
  obtain rfl := agent_of_find hb
  have woken : wakeAgent s k = openPhase (s.setAgent k { s.agent k with state := .ready, sleepEnd := 0 }) k 2 := by
    simp only [wakeAgent, asleep, beq_self_eq_true, if_true]
  obtain ⟨c, hc, state, sleepEnd, seen⟩ := openPhase_find (s.setAgent k { s.agent k with state := .ready, sleepEnd := 0 }) k 2
  exact ⟨c, woken ▸ hc, state.trans (by simp), sleepEnd.trans (by simp), seen⟩

theorem wakeAgent_pends {s : State} {k : Nat} {b : Agent} (hb : Tab.find s.agents k = some b) (awake : b.state ≠ .sleep) :
    ∃ c, Tab.find (wakeAgent s k).agents k = some c ∧ c.wakePend = true ∧ c.state = b.state := by
  obtain rfl := agent_of_find hb
  have kept : wakeAgent s k = s.setAgent k { s.agent k with wakePend := true } := by simp only [wakeAgent, beq_iff_eq, awake, if_false]
  rw [kept]
  exact ⟨_, setAgent_find_same _ _ _, rfl, rfl⟩

theorem exec_sleepIntervalExpires {s : State} {k : Nat} {b : Agent} (hb : Tab.find s.agents k = some b) (asleep : b.state = .sleep)
    (timed : b.sleepEnd ≠ 0) (due : b.sleepEnd ≤ refCopy s b.die) : exec (.sleepIntervalExpires k) s = .next (wakeAgent s k) := by
  obtain rfl := agent_of_find hb
  show execSleepIntervalExpires k s = _
  simp [execSleepIntervalExpires, asleep, timed, due]

section
variable {s : State} {a : Agent} {f : FArgs} (r : Ready s a (.sleep f))
include r

theorem exec_sleep_sleeps (on : guardOn a (.sleep f) = true) (calm : a.wakePend = false) : GoesOn (.sleep f) s a
    (drainAll (s.setMe { a with state := .sleep, sleepEnd := if rd1 a f.a 0 = 0 then 0 else refCopy s a.die + rd1 a f.a 0 }) s.cur) := by
  show execSleep f s = _
  simp only [execSleep, issue_ready r, on, calm, Bool.not_true, Bool.false_eq_true, if_false]

theorem exec_sleep_wakes (on : guardOn a (.sleep f) = true) (pending : a.wakePend = true) :
    GoesOn (.sleep f) s a (openPhase (drainAll (s.setMe { a with wakePend := false }) s.cur) s.cur 2) := by
  show execSleep f s = _
  simp only [execSleep, issue_ready r, on, pending, Bool.not_true, Bool.false_eq_true, if_false, if_true]

theorem exec_sleep_guardOff (off : guardOn a (.sleep f) = false) : GoesOn (.sleep f) s a s := by
  show execSleep f s = _
  simp only [execSleep, issue_ready r, off, Bool.not_false, if_true]
end

/-- Settles O51: TLBI asks and holds its team, acknowledgements forget and let it go on; SLEEP and wakes are direct but for the open
that waking begins, which changes of other agents' closes alone. -/
theorem shootDown : Obligations.ShootDown := by
  unfold Obligations.ShootDown
  refine ⟨fun s => ⟨fun a f r on idle => ?_, fun u mode asid va k units asked hu free => ?_⟩,
    fun s a f => ⟨exec_sleep_sleeps, exec_sleep_wakes, exec_sleep_guardOff, fun k b hb asleep timed due => ?_, fun k b hb awake => ?_⟩⟩
  · exact ⟨asking s a f, exec_tlbi_asks r on idle, rfl, by simp [asking, State.me, heldByEvent], rfl⟩
  · refine ⟨acknowledgeUnit s mode asid va k units u, exec_tlbiAcknowledge s mode asid va k units u asked hu free,
      fun e he => acknowledgeUnit_gone s mode asid va k units u he, fun j hj => acknowledgeUnit_others s mode asid va k units u hj,
      fun last => ⟨acknowledgeUnit_over s mode asid va k units u last,
        fun b hb held => acknowledgeUnit_last s mode asid va k units u last hb held⟩, fun left => ?_⟩
    rw [acknowledgeUnit_left s mode asid va k units u left]
    exact ⟨by simp [forgetting, List.isEmpty_iff, left], rfl⟩
  · obtain ⟨c, hc, state, sleepEnd, seen⟩ := wakeAgent_find hb asleep
    exact ⟨wakeAgent s k, c, exec_sleepIntervalExpires hb asleep timed due, hc, state, sleepEnd, seen⟩
  · exact wakeAgent_pends hb awake

end Sys2Proof.Machine
end

section
/-! SUPPORT. Loads (R39, R178, R180, R190): the entry that a load leaves outstanding, and what it holds where every byte is at hand. -/

namespace Sys2Proof.Machine

open Sys2Proof.Safety

/-! ### The lanes of an instruction -/

theorem guardTrue_congr {a b : Agent} (h : lanesOf b = lanesOf a) (sh : Shape) (l : Nat) : guardTrue b sh l = guardTrue a sh l := by
  obtain ⟨-, -, hv, hs⟩ : b.mask = a.mask ∧ b.nlanes = a.nlanes ∧ b.vregs = a.vregs ∧ b.sregs = a.sregs := by simpa [lanesOf] using h
  cases sh <;> simp [guardTrue, guardVal, regGet_congr hv hs]

theorem actLanes_congr {a b : Agent} (h : lanesOf b = lanesOf a) (i : Instr) : actLanes b i = actLanes a i := by
  obtain ⟨hm, hn, -, -⟩ : b.mask = a.mask ∧ b.nlanes = a.nlanes ∧ b.vregs = a.vregs ∧ b.sregs = a.sregs := by simpa [lanesOf] using h
  have acts : actsIn b i = actsIn a i := by
    funext l
    rw [actsIn, actsIn, hm, guardTrue_congr h]
  rw [actLanes, actLanes, guardTrue_congr h, hn, acts]

/-! ### The entry of a load -/

section
variable {i : Instr} {d : Reg} {sz : Nat} {free : Nat → Bool} {s : State} {a : Agent} {ls : List (Nat × Nat × List Nat)}

/-- Whatever is posted or bundled, a load leaves an entry outstanding in the lanes it acts on (R39). -/
theorem loadEntry_starts (me : s.agent s.cur = a) : ∃ t e, loadEntry i d sz free s a ls = .long t e ∧ e.dest = d ∧
    e.nreg = (if 0xFE ≤ d.toNat then 0 else szRegs sz) ∧ e.sext = szSext sz ∧ e.parks = true ∧ e.remain = (shapeOf i).la.toNat ∧
    e.done = false ∧ e.lanes = lanesMask (actLanes a i) := by
  unfold loadEntry
  extract_lets locs u now b racing hot loose miss far bad value e vaOf err r v w
  obtain ⟨cur, kept⟩ : Kept lanesOf s u := (kept_drainPosted _ _ _).trans (kept_resolveReads _ _ _)
  have hb : lanesOf b = lanesOf a := by
    rw [← me, ← kept s.cur, ← cur]
    rfl
  exact ⟨_, _, rfl, rfl, rfl, rfl, rfl, rfl, rfl, congrArg lanesMask (actLanes_congr hb i)⟩

theorem resolveReads_settled (h : Settled s) (b : Agent) (k : Nat) (p : PostedJob → Bool) (locs : List Nat) :
    resolveReads (drainPosted s k p) b locs = s := by
  simp [drainPosted, resolveReads, h.1, h.2]

/-- Every byte is at hand: it needs no fetch and is not poisoned. -/
def AtHand (s : State) (a : Agent) (ls : List (Nat × Nat × List Nat)) : Prop :=
  ∀ q ∈ ls, ∀ x ∈ q.2.2.zipIdx, (loadByte s a (q.2.1 + x.2) x.1).isSome = true ∧ fracture s a x.1 = [] ∧ poisoned s a x.1 = false

theorem missingBytes_atHand (h : AtHand s a ls) : missingBytes s a ls = [] := by
  unfold missingBytes
  rw [List.flatten_eq_nil_iff]
  intro xs hxs
  obtain ⟨q, hq, rfl⟩ := List.mem_map.mp hxs
  rw [List.map_eq_nil_iff, List.filter_eq_nil_iff]
  intro x hx
  obtain ⟨here, whole, -⟩ := h q hq x hx
  simp [Option.isNone_iff_eq_none, Option.isSome_iff_ne_none.mp here, whole]

theorem poisoned_atHand (h : AtHand s a ls) : ls.filter (fun e => e.2.2.any (poisoned s a)) = [] := by
  rw [List.filter_eq_nil_iff]
  intro q hq any
  obtain ⟨loc, hloc, bad⟩ := List.any_eq_true.mp any
  obtain ⟨n, hn, rfl⟩ := List.getElem_of_mem hloc
  have clean := (h q hq (q.2.2[n], n) (by simp [List.mem_zipIdx_iff_getElem?, hn])).2.2
  rw [clean] at bad
  exact nomatch bad

/-- Where every byte is at hand, and no engine writes one, the entry asks for nothing and holds in each lane what its agent sees, but
the bytes that a test names (R190). -/
theorem loadEntry_atHand {t : State} {e : LAEntry} (h : loadEntry i d sz free s a ls = .long t e) (me : s.agent s.cur = a)
    (settled : Settled s) (joined : unjoined s (ls.map (·.2.2)).flatten = []) (hand : AtHand s a ls) :
    e.taint = 0 ∧ e.tags = [] ∧ e.err = none ∧
    ∀ l va locs, ls.find? (fun q => q.1 == l) = some (l, va, locs) → l < (if isS d then 1 else a.nlanes) → actsIn a i l = true →
      e.values[l]? = some (ofBytes (locs.zipIdx.map (fun x =>
        if free x.1 then BitVec.ofNat 8 (s.free (16 * l + x.2)) else (loadByte s a (va + x.2) x.1).getD 0))) := by
  unfold loadEntry at h
  extract_lets locs u now b racing hot loose miss far bad value e₀ vaOf err r v w at h
  obtain ⟨-, rfl⟩ := Act.long.inj h
  have hu : s = u := (resolveReads_settled settled _ _ _ _).symm
  have hnow : now = a := by rw [← me, hu]
  have hb : a = b := by
    unfold b
    rw [hnow]
  clear_value b now u
  subst hu hb
  have none_missing : missingBytes s a ls = [] := missingBytes_atHand hand
  have hloose : loose = [] := by simp [loose, none_missing]
  have hmiss : miss = [] := by simp [miss, none_missing]
  have hfar : far = [] := by simp [far, hmiss]
  have hbad : bad = [] := poisoned_atHand hand
  have hhot : hot = free := by
    funext x
    simp [hot, racing, locs, joined]
  refine ⟨?_, ?_, ?_, ?_⟩
  · simp [hbad, hfar, hloose, lanesMask]
  · simp [r, hmiss, requestLines]
  · simp [err, hbad, hfar]
  · intro l va locs found hl acts
    have row : value l = ofBytes (locs.zipIdx.map (fun x =>
        if free x.1 then BitVec.ofNat 8 (s.free (16 * l + x.2)) else (loadByte s a (va + x.2) x.1).getD 0)) := by
      simp [value, found, hhot]
    simp [e₀, mkEntry, hl, acts, row]
end

/-! ### Loads -/

section
variable {s : State} {a : Agent} {i : Instr} {d : Reg} {sz : Nat} {eas : List (Nat × Nat)} {ls : List (Nat × Nat × List Nat)}

theorem sideHeld_unlogged {n : Nat} (h : Unlogged s eas n) (go : Act) : sideHeld s a eas n go = go := by
  have none_logged : (eas.map (fun e => ((List.range n).map (e.2 + ·)).filter (sideCovers s s.cur))).flatten = [] := by
    rw [List.flatten_eq_nil_iff]
    intro xs hxs
    obtain ⟨e, he, rfl⟩ := List.mem_map.mp hxs
    rw [List.filter_eq_nil_iff]
    intro va hva
    obtain ⟨j, hj, rfl⟩ := List.mem_map.mp hva
    simp [h e he j (List.mem_range.mp hj)]
  unfold sideHeld
  rw [none_logged]

theorem loadAct_translated (free : Nat → Bool) (token : tokenFree s a = true) (unlogged : Unlogged s eas (szBytes sz))
    (range : rangeFault eas (szBytes sz) = none) (translated : xlateLanes s a eas (szBytes sz) .read = .ok ls) :
    loadAct i d sz free eas s a = loadEntry i d sz free s a ls := by
  simp [loadAct, token, range, translated, sideHeld_unlogged unlogged]

theorem exec_loadForm (form : LoadForm a i d sz eas) (r : Ready s a i) {t : State} {e : LAEntry}
    (h : loadAct i d sz (fun _ => false) eas s a = .long t e) : Starts i s a t e := by
  obtain ⟨f, rfl, rfl, rfl, rfl⟩ | ⟨x, rfl, rfl, rfl, rfl⟩ := form
  · show execLd f s = _
    rw [execLd, issue_ready r, h]
  · show execLdL x s = _
    rw [execLdL, issue_ready r, h]

theorem loads_of_form (form : LoadForm a i d sz eas) (r : Ready s a i) (settled : Settled s) (token : tokenFree s a = true)
    (unlogged : Unlogged s eas (szBytes sz)) (range : rangeFault eas (szBytes sz) = none)
    (translated : xlateLanes s a eas (szBytes sz) .read = .ok ls) : Loads i s a d (szRegs sz) (szSext sz) ls := by
  have me : s.agent s.cur = a := agent_of_find r.1
  obtain ⟨t, e, h, dest, nreg, sext, parks, remain, done, lanes⟩ := loadEntry_starts (i := i) (d := d) (sz := sz) (free := fun _ => false)
    (ls := ls) me
  have act := (loadAct_translated (i := i) (d := d) _ token unlogged range translated).trans h
  refine ⟨t, e, exec_loadForm form r act, dest, nreg, sext, parks, remain, done, lanes, fun joined hand => ?_⟩
  simpa using loadEntry_atHand h me settled joined hand
end

/-! ### The constant bank -/

section
variable {s : State} {a : Agent} {f : FArgs} (r : Ready s a (.ldk f))
include r

theorem exec_ldk_beyond {e : Nat × Nat} (h : ((actLanes a (.ldk f)).map (fun l => (l, wrapN 32 ((rd1 a f.a l : Int) + fOff f)))).find?
    (fun e => decide (recordField s a.grid 32 4 < e.2 + szBytes f.mod.toNat)) = some e) :
    Traps (.ldk f) s .pagePermission (recordField s a.grid 24 8 + e.2) := by
  show execLdk f s = _
  rw [execLdk, issue_ready r]
  simp only [h]

theorem exec_ldk_starts {t : State} {e : LAEntry}
    (h : ((actLanes a (.ldk f)).map (fun l => (l, wrapN 32 ((rd1 a f.a l : Int) + fOff f)))).find?
    (fun e => decide (recordField s a.grid 32 4 < e.2 + szBytes f.mod.toNat)) = none)
    (act : loadAct (.ldk f) f.d f.mod.toNat (racedFor s a.grid) (((actLanes a (.ldk f)).map (fun l =>
      (l, wrapN 32 ((rd1 a f.a l : Int) + fOff f)))).map (fun e => (e.1, recordField s a.grid 24 8 + e.2))) s a = .long t e) :
    Starts (.ldk f) s a t e := by
  show execLdk f s = _
  rw [execLdk, issue_ready r]
  simp only [h, act]
end

/-- Settles O24: a load starts with its entry, which holds what the agent sees where every byte is at hand; so does a load from the
constant bank, within it. -/
theorem loadResults : Obligations.LoadResults := by
  unfold Obligations.LoadResults
  refine ⟨fun s a i d sz eas ls => loads_of_form, fun s a f r => ?_⟩
  intro offs eas
  refine ⟨fun e h => exec_ldk_beyond r h, fun ls within token unlogged range translated => ?_⟩
  have me : s.agent s.cur = a := agent_of_find r.1
  obtain ⟨t, e, h, dest, -, sext, -, remain, done, lanes⟩ := loadEntry_starts (i := .ldk f) (d := f.d) (sz := f.mod.toNat)
    (free := racedFor s a.grid) (ls := ls) me
  have act := (loadAct_translated (i := .ldk f) (d := f.d) _ token unlogged range translated).trans h
  refine ⟨t, e, exec_ldk_starts r within act, dest, lanes, done, sext, remain, fun settled joined hand => ?_⟩
  obtain ⟨taint, -, err, values⟩ := loadEntry_atHand h me settled joined hand
  exact ⟨taint, err, values⟩

end Sys2Proof.Machine
end

section
/-! SUPPORT. Barrier objects at their homes: what one operation reads and leaves there (R246, R247, R254), and how BAR.INIT, the arrivals
and the waits go on from it. -/

namespace Sys2Proof.Machine

open Sys2Proof.Safety

/-! ### Bytes at their homes -/

theorem Memory.read_writeCells_last {m : Memory} (pre post : List Host.Cell) (a : Nat) (x : Byte) (wf : Memory.wf m = true)
    (fresh : ∀ c ∈ post, c.1 ≠ a) : (m.writeCells (pre ++ (a, x) :: post)).read a = x := by
  have split : m.writeCells (pre ++ (a, x) :: post) = ((m.writeCells pre).write a x).writeCells post := by
    simp [Memory.writeCells]
  rw [split, Memory.read_writeCells_other _ _ _ fresh, Memory.read_write_same _ _ (Memory.wf_writeCells _ wf)]

theorem recallLine_home (s : State) (asid pa but : Nat) :
    (recallLine s asid pa but).mem = s.mem ∧ (recallLine s asid pa but).held = s.held := by
  unfold recallLine
  split
  · exact ⟨rfl, rfl⟩
  · rename_i holders _
    extract_lets back op t
    split
    · exact ⟨rfl, rfl⟩
    · split
      · rename_i n _
        have sent := sendOnly_sendToAll t n (holdersOf s holders) op (.recall pa)
        exact ⟨sent.mem, sent.held⟩
      · have sent := sendOnly_foldl (fun s dev => sendOnly_sendOp s dev op (.recall pa)) ((holdersOf s holders).filter (· != but)) t
        exact ⟨sent.mem, sent.held⟩

theorem writeShared_home (s : State) (asid : Nat) (bytes : Tab Byte) :
    (writeShared s asid bytes).mem = s.mem.writeCells
      ((bytes.filter (fun e => !lineShared s (e.1 % 2 ^ 40 / 128))).map (fun e => (e.1 % 2 ^ 40, e.2))) ∧
    (writeShared s asid bytes).held = (bytes.filter (fun e => lineShared s (e.1 % 2 ^ 40 / 128))).foldl (fun h e => Tab.put h e.1 e.2)
      s.held := by
  unfold writeShared
  extract_lets before busy later t
  have recalled (u : State) (pas : List Nat) : (pas.foldl (fun s pa => recallLine s asid pa s.device) u).mem = u.mem ∧
      (pas.foldl (fun s pa => recallLine s asid pa s.device) u).held = u.held := by
    refine List.foldlRecOn (motive := fun v : State => v.mem = u.mem ∧ v.held = u.held) _ _ ⟨rfl, rfl⟩ fun v h pa _ => ?_
    obtain ⟨mem, held⟩ := recallLine_home v asid pa v.device
    exact ⟨mem.trans h.1, held.trans h.2⟩
  split
  · rename_i none_later
    refine ⟨rfl, ?_⟩
    have nothing : bytes.filter (fun e => lineShared s (e.1 % 2 ^ 40 / 128)) = [] := List.isEmpty_iff.mp none_later
    rw [nothing]
    rfl
  · exact ⟨(recalled _ _).1, (recalled _ _).2⟩

/-- A byte written at its home is there afterwards, if no later one of the write goes to the same place. -/
theorem homeByte_writeShared {s : State} {asid a : Nat} {x : Byte} {pre post : Tab Byte} (held : s.held = []) (wf : Memory.wf s.mem = true)
    (fresh : ∀ e ∈ post, e.1 % 2 ^ 40 ≠ a % 2 ^ 40) : homeByte (writeShared s asid (pre ++ (a, x) :: post)) a = x := by
  obtain ⟨mem', held'⟩ := writeShared_home s asid (pre ++ (a, x) :: post)
  have others : ∀ e ∈ post, e.1 ≠ a := fun e he same => fresh e he (by rw [same])
  rw [homeByte, mem', held', held]
  by_cases busy : lineShared s (a % 2 ^ 40 / 128) = true
  · have last := Tab.find_foldl_put_last (pre.filter (fun e => lineShared s (e.1 % 2 ^ 40 / 128)))
      (post.filter (fun e => lineShared s (e.1 % 2 ^ 40 / 128))) x (fun e he => others e (List.mem_filter.mp he).1) []
    have kept : (pre ++ (a, x) :: post).filter (fun e => lineShared s (e.1 % 2 ^ 40 / 128)) =
        pre.filter (fun e => lineShared s (e.1 % 2 ^ 40 / 128)) ++ (a, x) :: post.filter (fun e => lineShared s (e.1 % 2 ^ 40 / 128)) := by
      rw [List.filter_append, List.filter_cons, if_pos busy]
    rw [kept, last, Option.getD_some]
  · have absent : Tab.find (((pre ++ (a, x) :: post).filter (fun e => lineShared s (e.1 % 2 ^ 40 / 128))).foldl
        (fun h e => Tab.put h e.1 e.2) []) a = none := by
      rw [Tab.find_foldl_put_other]
      · rfl
      · intro e he same
        have shared := (List.mem_filter.mp he).2
        rw [same] at shared
        exact busy shared
    rw [absent, Option.getD_none]
    simp only [List.filter_append, List.map_append, List.filter_cons, busy, Bool.not_false, if_true, List.map_cons]
    refine Memory.read_writeCells_last _ _ _ _ wf ?_
    intro c hc
    obtain ⟨e, he, rfl⟩ := List.mem_map.mp hc
    exact fresh e (List.mem_filter.mp he).1

/-! ### One operation on an object at its local home -/

theorem modAgent_home (s : State) (k : Nat) (f : Agent → Agent) : (s.modAgent k f).mem = s.mem ∧ (s.modAgent k f).held = s.held := by
  unfold State.modAgent
  split
  · exact ⟨rfl, rfl⟩
  · exact ⟨rfl, rfl⟩

theorem softwareWrote_home (s : State) (k : Nat) (locs : List Nat) :
    (softwareWrote s k locs).mem = s.mem ∧ (softwareWrote s k locs).held = s.held := by
  unfold softwareWrote touchWritten
  extract_lets gs t
  split
  · exact ⟨rfl, rfl⟩
  · exact ⟨rfl, rfl⟩

/-- The state in which a barrier operation comes to the object: what other versions and closes hold of its line is home (R231). -/
def atObject (s : State) (k loc : Nat) : State := flushLine (resolveReads s (s.agent k) [loc]) k loc

/-- The bytes of an object, with where they stand. -/
def objectCells (loc : Nat) (o : List Byte) : Tab Byte := o.zipIdx.map (fun e => (loc + e.2, e.1))

/-- What an operation of 64 bytes leaves, that writes `o`. -/
def objectWritten (s : State) (k asid loc : Nat) (o : List Byte) : State :=
  dropViews (giveWay (writeShared (softwareWrote (noteStrong s k loc 64) 0xFFFFFFFF ((objectCells loc o).map (·.1))) asid
    (objectCells loc o))
    k loc 64 (nowNum (noteStrong s k loc 64) k)) k (objectCells loc o)

section
variable {s : State} {k asid loc : Nat} {op : BarOp}
  (sound : lineBad (atObject s k loc) (portOfAgent (atObject s k loc) k) (lineOf (loc % 2 ^ 40)) = false)
  (matched : mismatched (atObject s k loc) loc 64 = none) (calm : racedBytes (atObject s k loc) k loc 64 = [])
include sound matched calm

/-- Without poison, another width's access or a race, an operation reads the object as it stands and writes what its rule says. -/
theorem objectAct_eq : objectAct s k asid loc op =
    let old := (List.range 64).map (fun i => homeByte (atObject s k loc) (loc + i))
    (op.new old).elim ⟨noteStrong (atObject s k loc) k loc 64, old, none⟩
      fun o => ⟨objectWritten (atObject s k loc) k asid loc o, old, none⟩ := by
  unfold atObject at *
  simp only [objectAct, sound, matched, calm, Option.isSome_none, Bool.false_and, Bool.false_eq_true, if_false, List.isEmpty_nil, if_true,
    List.contains_nil]
  cases op.new ((List.range 64).map (fun i => homeByte (flushLine (resolveReads s (s.agent k) [loc]) k loc) (loc + i))) with
  | none => rfl
  | some o => rfl

theorem objectAct_reads : (objectAct s k asid loc op).err = none ∧
    (objectAct s k asid loc op).old = (List.range 64).map (fun i => homeByte (atObject s k loc) (loc + i)) := by
  rw [objectAct_eq sound matched calm]
  extract_lets old
  cases op.new old with
  | none => exact ⟨rfl, rfl⟩
  | some o => exact ⟨rfl, rfl⟩

theorem objectAct_writes {o : List Byte} (new : op.new (objectAct s k asid loc op).old = some o) :
    (objectAct s k asid loc op).s = objectWritten (atObject s k loc) k asid loc o := by
  rw [(objectAct_reads sound matched calm).2] at new
  rw [objectAct_eq sound matched calm]
  extract_lets old
  have wrote : op.new old = some o := new
  rw [wrote]
  rfl
end

theorem homeByte_congr {s t : State} (h : t.mem = s.mem ∧ t.held = s.held) (loc : Nat) : homeByte t loc = homeByte s loc := by
  rw [homeByte, homeByte, h.1, h.2]

/-- The bytes of an object, split at one of them; the later ones go to other places. -/
theorem objectCells_split {o : List Byte} {i : Nat} (loc : Nat) (length : o.length = 64) (hi : i < 64) : ∃ pre post : Tab Byte,
    objectCells loc o = pre ++ (loc + i, o.getD i 0) :: post ∧ ∀ e ∈ post, e.1 % 2 ^ 40 ≠ (loc + i) % 2 ^ 40 := by
  have hio : i < o.length := by omega
  refine ⟨objectCells loc (o.take i), ((o.drop (i + 1)).zipIdx (i + 1)).map (fun e => (loc + e.2, e.1)), ?_, ?_⟩
  · have split : o = o.take i ++ o[i] :: o.drop (i + 1) := by simp
    conv_lhs => rw [objectCells, split]
    rw [objectCells, List.zipIdx_append, List.zipIdx_cons, List.map_append, List.map_cons, List.length_take, Nat.min_eq_left hio.le,
      Nat.zero_add, List.getD_eq_getElem _ _ hio]
  · intro e he
    obtain ⟨x, hx, rfl⟩ := List.mem_map.mp he
    have after := List.le_snd_of_mem_zipIdx hx
    have within := List.snd_lt_of_mem_zipIdx hx
    rw [List.length_drop] at within
    have near : x.2 < 64 := by omega
    show (loc + x.2) % 2 ^ 40 ≠ (loc + i) % 2 ^ 40
    omega

theorem homeByte_objectWritten {s : State} {k asid loc i : Nat} {o : List Byte} (held : s.held = []) (wf : Memory.wf s.mem = true)
    (length : o.length = 64) (hi : i < 64) : homeByte (objectWritten s k asid loc o) (loc + i) = o.getD i 0 := by
  obtain ⟨pre, post, split, fresh⟩ := objectCells_split loc length hi
  obtain ⟨mem', held'⟩ := softwareWrote_home (noteStrong s k loc 64) 0xFFFFFFFF ((objectCells loc o).map (·.1))
  have there : homeByte (writeShared (softwareWrote (noteStrong s k loc 64) 0xFFFFFFFF ((objectCells loc o).map (·.1))) asid
      (objectCells loc o)) (loc + i) = o.getD i 0 := by
    generalize softwareWrote (noteStrong s k loc 64) 0xFFFFFFFF ((objectCells loc o).map (·.1)) = w at mem' held'
    rw [split]
    exact homeByte_writeShared (held'.trans held) (mem' ▸ wf) fresh
  exact (homeByte_congr (modAgent_home _ _ _) _).trans there

/-! ### Barrier instructions at a local home -/

theorem aligned_of_objectLoc {s : State} {a : Agent} {addr loc : Nat} (h : objectLoc s a addr = .ok loc) : addr % 64 = 0 := by
  by_contra crooked
  rw [objectLoc, if_pos crooked] at h
  exact nomatch h

theorem objectLoc_crooked {s : State} {a : Agent} {addr : Nat} (h : addr % 64 ≠ 0) : objectLoc s a addr = .error .misaligned := by
  rw [objectLoc, if_pos h]

/-- An operation at a local home goes on with the object as it read it (R231). -/
theorem onObject_local {s : State} {a : Agent} {addr loc : Nat} {op : BarOp} (go : State → List Byte → Act) (home : homeOf loc = s.device)
    (done : (objectAct s s.cur a.asid loc op).err = none) : onObject s a addr loc op go =
      go (afterObject (objectAct s s.cur a.asid loc op)) (objectAct s s.cur a.asid loc op).old := by
  unfold onObject
  extract_lets seen r lost
  have unfailed : r.err = none := done
  rw [if_pos (by simpa using home)]
  simp only [unfailed]
  rfl

/-- A release completes, and the access follows it (R232). -/
theorem released_release {s w : State} {ord sc : Nat} (go : State → Act) (rel : 2 ≤ ord) (h : Releases s w sc) :
    released s ord sc go = go w := by
  obtain ⟨placeable, free, rfl, complete⟩ := h
  have nothing : (if 2 ≤ sc then unplaceable (beginClose s) (beginClose s).cur else none) = none := by
    split
    · exact placeable ‹_›
    · rfl
  simp only [released, Nat.not_lt.mpr rel, if_false, nothing, free, complete, Bool.not_true, Bool.false_eq_true]

theorem withObject_releases {s w : State} {a : Agent} {addr loc sc : Nat} {op : BarOp} (go : State → List Byte → Act)
    (there : objectLoc s a addr = .ok loc) (held : a.hold = .none) (h : Releases s w sc) (home : homeOf loc = w.device)
    (done : (objectAct w w.cur w.me.asid loc op).err = none) : withObject s a addr (some sc) op go =
      go (afterObject (objectAct w w.cur w.me.asid loc op)) (objectAct w w.cur w.me.asid loc op).old := by
  simp only [withObject, there, held]
  rw [released_release _ (Nat.le_refl 2) h, onObject_local go home done]

theorem withObject_waits {s : State} {a : Agent} {addr loc : Nat} {op : BarOp} (go : State → List Byte → Act)
    (there : objectLoc s a addr = .ok loc) : withObject s a addr none op go = onObject s a addr loc op go := by
  simp only [withObject, there]

/-- An access leaves the agent's addresses where they are. -/
theorem rdN_congr {a b : Agent} (h : lanesOf b = lanesOf a) (l : Nat) : ∀ (n r : Nat), rdN b r n l = rdN a r n l
  | 0, _ => rfl
  | n + 1, r => by
    obtain ⟨-, -, hv, hs⟩ : b.mask = a.mask ∧ b.nlanes = a.nlanes ∧ b.vregs = a.vregs ∧ b.sregs = a.sregs := by simpa [lanesOf] using h
    rw [rdN, rdN, regGet_congr hv hs, rdN_congr h l n]

/-- A wait at a local home (R248). -/
theorem barWait_none {f : FArgs} {s : State} {a : Agent} {loc : Nat} (there : objectLoc s a (rdN a f.a.toNat 2 0) = .ok loc)
    (h : a.arrivals.find? (fun e => e.1 == rdN a f.a.toNat 2 0) = none) :
    barWait f s a = .go (endWait s (rdN a f.a.toNat 2 0) (fScope f)) := by
  simp only [barWait, there, h]

theorem barWait_some {f : FArgs} {s : State} {a : Agent} {loc : Nat} {e : Nat × Nat} (there : objectLoc s a (rdN a f.a.toNat 2 0) = .ok loc)
    (h : a.arrivals.find? (fun e => e.1 == rdN a f.a.toNat 2 0) = some e) (home : homeOf loc = s.device)
    (done : (objectAct s s.cur a.asid loc .read).err = none) :
    barWait f s a =
      if sliceN (objectAct s s.cur a.asid loc .read).old 8 4 != e.2 then
        .go (endWait (afterObject (objectAct s s.cur a.asid loc .read)) (rdN a f.a.toNat 2 0) (fScope f))
      else .hold ((afterObject (objectAct s s.cur a.asid loc .read)).setMe
        { (afterObject (objectAct s s.cur a.asid loc .read)).me with state := .barrier, hold := .barrier (rdN a f.a.toNat 2 0) }) := by
  simp only [barWait, there, h]
  rw [withObject_waits _ there, onObject_local _ home done]

section
variable {i : Instr} {s t : State} {a : Agent} {body : State → Agent → Act} (r : Ready s a i) (runs : exec i s = issue i s body)
include r runs

theorem goesOn_of_body (act : body s a = .go t) : GoesOn i s a t := by rw [GoesOn, runs, issue_ready r, act]

theorem stays_of_body (act : body s a = .hold t) : Stays i s t := by rw [Stays, runs, issue_ready r, act]

theorem traps_of_body {c : Cause} {addr : Nat} (act : body s a = .trap c addr) : Traps i s c addr := by
  rw [Traps, runs, issue_ready r, act]

theorem trapsIn_of_body {c : Cause} {addr : Nat} (act : body s a = .trapIn t c addr) : exec i s = .next (takeTrap t s.cur c addr) := by
  rw [runs, issue_ready r, act]

/-- An instruction whose description comes to a wait ends as the wait does. -/
theorem barEnds_of_body {f : FArgs} {loc : Nat} (waits : body s a = barWait f t t.me)
    (there : objectLoc t t.me (rdN t.me f.a.toNat 2 0) = .ok loc) (home : homeOf loc = t.device) :
    BarEnds i s t a (fScope f) (rdN t.me f.a.toNat 2 0) loc := by
  refine ⟨fun h => goesOn_of_body r runs (waits.trans (barWait_none there h)), fun e h => ?_⟩
  intro x u done
  have step := waits.trans (barWait_some there h home done)
  refine ⟨fun ended => goesOn_of_body r runs ?_, fun stands => stays_of_body r runs ?_⟩
  · rw [if_pos (by simpa using ended)] at step
    exact step
  · rw [if_neg (by simpa using stands)] at step
    exact step
end

/-- Where an arrival's access has been performed, the object that it read decides (R247). -/
theorem arrive_performed {f : FArgs} {s w : State} {a : Agent} {loc : Nat} (go : State → Act)
    (there : objectLoc s a (rdN a f.a.toNat 2 0) = .ok loc)
    (held : a.hold = .none) (h : Releases s w (fScope f)) (home : homeOf loc = w.device) (index : arrivalIndex a f < 128)
    (room : recordArrival s a (rdN a f.a.toNat 2 0) 0 ≠ none)
  (done : (objectAct w w.cur w.me.asid loc (.arrive (arrivalIndex a f))).err = none) :
    arrive f s a go =
      let r := objectAct w w.cur w.me.asid loc (.arrive (arrivalIndex a f))
      let v := afterObject r
      if expectBad r.old then .trapIn v .reservedField (rdN a f.a.toNat 2 0)
      else go (v.setMe { v.me with arrivals := (recordArrival v v.me (rdN a f.a.toNat 2 0) (sliceN r.old 8 4)).getD v.me.arrivals }) := by
  have room' : (recordArrival s a (rdN a f.a.toNat 2 0) 0).isNone = false := by simpa [Option.isSome_iff_ne_none] using room
  simp only [arrive, aligned_of_objectLoc there, ne_eq, not_true_eq_false, if_false, Nat.not_le.mpr index, room', Bool.false_eq_true]
  rw [withObject_releases _ there held h home done]

section
variable {f : FArgs} {s : State} {a : Agent}

theorem arrive_crooked (go : State → Act) (h : rdN a f.a.toNat 2 0 % 64 ≠ 0) :
    arrive f s a go = .trap .misaligned (rdN a f.a.toNat 2 0) := by
  rw [arrive, if_pos h]

theorem arrive_badIndex (go : State → Act) (h : rdN a f.a.toNat 2 0 % 64 = 0) (index : 128 ≤ arrivalIndex a f) :
    arrive f s a go = .trap .reservedField 0 := by
  rw [arrive, if_neg (by simpa using h), if_pos index]

theorem barWait_crooked (h : rdN a f.a.toNat 2 0 % 64 ≠ 0) : barWait f s a = .trap .misaligned (rdN a f.a.toNat 2 0) := by
  simp only [barWait, objectLoc_crooked h]
end

theorem lanesOf_me {s t : State} {a : Agent} (h : Kept lanesOf s t) (ha : Tab.find s.agents s.cur = some a) : lanesOf t.me = lanesOf a := by
  rw [State.me, h.1, h.2, agent_of_find ha]

theorem kept_setMe {s : State} {b : Agent} (h : lanesOf b = lanesOf s.me) : Kept lanesOf s (s.setMe b) := kept_setAgent h

/-- An arrival's access leaves registers and mask of the agents. -/
theorem kept_arrival {s w : State} {sc loc : Nat} {op : BarOp} (h : Releases s w sc) :
    Kept lanesOf s (afterObject (objectAct w w.cur w.me.asid loc op)) :=
  ((kept_releases h).trans (kept_objectAct w w.cur w.me.asid loc op)).trans (kept_modAgent fun _ => rfl)

/-- The state once an arrival is recorded with the generation that it read. -/
def arrived (w : State) (a : Agent) (f : FArgs) (loc : Nat) : State :=
  let r := objectAct w w.cur w.me.asid loc (.arrive (arrivalIndex a f))
  let v := afterObject r
  v.setMe { v.me with arrivals := (recordArrival v v.me (rdN a f.a.toNat 2 0) (sliceN r.old 8 4)).getD v.me.arrivals }

theorem kept_arrived {s w : State} {sc : Nat} (a : Agent) (f : FArgs) (loc : Nat) (h : Releases s w sc) :
    Kept lanesOf s (arrived w a f loc) := by
  unfold arrived
  extract_lets r v
  have hv : Kept lanesOf s v := kept_arrival h
  clear_value v
  exact hv.trans (kept_setMe rfl)

theorem kept_syncWait (s : State) : Kept lanesOf s (s.setMe { s.me with syncWait := true }) := kept_setMe rfl

section
variable {s w : State} {a : Agent} {f : FArgs} {loc : Nat} (there : objectLoc s a (rdN a f.a.toNat 2 0) = .ok loc)
include there

theorem exec_barInit (held : a.hold = .none) (h : Releases s w (fScope f)) (home : homeOf loc = w.device) (r : Ready s a (.barInit f))
    (on : guardOn a (.barInit f) = true) (low : 0 < rd1 a f.b 0) (high : rd1 a f.b 0 ≤ 128)
    (done : (objectAct w w.cur w.me.asid loc (.init (rd1 a f.b 0))).err = none) :
    GoesOn (.barInit f) s a (afterObject (objectAct w w.cur w.me.asid loc (.init (rd1 a f.b 0)))) := by
  refine goesOn_of_body r (show execBarInit f s = _ from rfl) ?_
  simp only [on, Bool.not_true, Bool.false_eq_true, if_false, there, Nat.pos_iff_ne_zero.mp low, Nat.not_lt.mpr high, decide_false,
    Bool.or_self]
  rw [withObject_releases _ there held h home done]

theorem exec_barInit_badCount (r : Ready s a (.barInit f)) (on : guardOn a (.barInit f) = true)
    (bad : rd1 a f.b 0 = 0 ∨ 128 < rd1 a f.b 0) : Traps (.barInit f) s .reservedField 0 := by
  refine traps_of_body r (show execBarInit f s = _ from rfl) ?_
  simp [on, there, bad]

theorem exec_arrive_badIndex {i : Instr} (hi : i = .barArv f ∨ i = .barSync f ∧ a.syncWait = false) (r : Ready s a i)
    (on : guardOn a i = true)
    (index : 128 ≤ arrivalIndex a f) : Traps i s .reservedField 0 := by
  obtain rfl | ⟨rfl, fresh⟩ := hi
  · refine traps_of_body r (show execBarArv f s = _ from rfl) ?_
    simp only [on, Bool.not_true, Bool.false_eq_true, if_false]
    exact arrive_badIndex _ (aligned_of_objectLoc there) index
  · refine traps_of_body r (show execBarSync f s = _ from rfl) ?_
    simp only [on, Bool.not_true, Bool.false_eq_true, if_false, fresh]
    exact arrive_badIndex _ (aligned_of_objectLoc there) index

section
variable (held : a.hold = .none) (h : Releases s w (fScope f)) (home : homeOf loc = w.device) (index : arrivalIndex a f < 128)
  (room : recordArrival s a (rdN a f.a.toNat 2 0) 0 ≠ none)
  (done : (objectAct w w.cur w.me.asid loc (.arrive (arrivalIndex a f))).err = none)
include held h home index room done

theorem exec_arrive_badObject {i : Instr} (hi : i = .barArv f ∨ i = .barSync f ∧ a.syncWait = false) (r : Ready s a i)
    (on : guardOn a i = true)
    (bad : expectBad (objectAct w w.cur w.me.asid loc (.arrive (arrivalIndex a f))).old = true) :
    exec i s = .next (takeTrap (afterObject (objectAct w w.cur w.me.asid loc (.arrive (arrivalIndex a f)))) s.cur .reservedField
      (rdN a f.a.toNat 2 0)) := by
  obtain rfl | ⟨rfl, fresh⟩ := hi
  · refine trapsIn_of_body r (show execBarArv f s = _ from rfl) ?_
    simp only [on, Bool.not_true, Bool.false_eq_true, if_false]
    rw [arrive_performed _ there held h home index room done]
    exact if_pos bad
  · refine trapsIn_of_body r (show execBarSync f s = _ from rfl) ?_
    simp only [on, Bool.not_true, Bool.false_eq_true, if_false, fresh]
    rw [arrive_performed _ there held h home index room done]
    exact if_pos bad

theorem arrive_records (go : State → Act) (good : expectBad (objectAct w w.cur w.me.asid loc (.arrive (arrivalIndex a f))).old = false) :
    arrive f s a go = go (arrived w a f loc) := by
  rw [arrive_performed go there held h home index room done]
  exact if_neg (by simp [good])

theorem exec_barArv (r : Ready s a (.barArv f)) (on : guardOn a (.barArv f) = true)
    (good : expectBad (objectAct w w.cur w.me.asid loc (.arrive (arrivalIndex a f))).old = false) :
    GoesOn (.barArv f) s a (arrived w a f loc) := by
  refine goesOn_of_body r (show execBarArv f s = _ from rfl) ?_
  simp only [on, Bool.not_true, Bool.false_eq_true, if_false]
  exact arrive_records there held h home index room done _ good

/-- BAR.SYNC arrives and then waits, at the address that its agent's registers still give (R248). -/
theorem exec_barSync (r : Ready s a (.barSync f)) (on : guardOn a (.barSync f) = true) (fresh : a.syncWait = false)
    (good : expectBad (objectAct w w.cur w.me.asid loc (.arrive (arrivalIndex a f))).old = false) {t : State}
    (ht : t = (arrived w a f loc).setMe { (arrived w a f loc).me with syncWait := true })
    (still : objectLoc t t.me (rdN a f.a.toNat 2 0) = .ok loc) (near : homeOf loc = t.device) :
    BarEnds (.barSync f) s t a (fScope f) (rdN a f.a.toNat 2 0) loc := by
  have kept : Kept lanesOf s t := by
    rw [ht]
    exact (kept_arrived a f loc h).trans (kept_syncWait _)
  have addr : rdN t.me f.a.toNat 2 0 = rdN a f.a.toNat 2 0 := rdN_congr (lanesOf_me kept r.1) 0 2 _
  rw [← addr] at still ⊢
  refine barEnds_of_body r (show execBarSync f s = _ from rfl) ?_ still near
  simp only [on, Bool.not_true, Bool.false_eq_true, if_false, fresh]
  rw [arrive_records there held h home index room done _ good, ht]
end
end

section
variable {s : State} {a : Agent} {f : FArgs} {i : Instr} (r : Ready s a i)
include r

theorem exec_barWait {loc : Nat} (hi : i = .barWait f ∨ i = .barSync f ∧ a.syncWait = true) (on : guardOn a i = true)
    (there : objectLoc s a (rdN a f.a.toNat 2 0) = .ok loc) (home : homeOf loc = s.device) :
    BarEnds i s s a (fScope f) (rdN a f.a.toNat 2 0) loc := by
  have me : s.me = a := agent_of_find r.1
  subst me
  obtain rfl | ⟨rfl, again⟩ := hi
  · refine barEnds_of_body r (show execBarWait f s = _ from rfl) ?_ there home
    simp only [on, Bool.not_true, Bool.false_eq_true, if_false]
  · refine barEnds_of_body r (show execBarSync f s = _ from rfl) ?_ there home
    simp only [on, again, Bool.not_true, Bool.false_eq_true, if_false, if_true]

theorem exec_bar_crooked (hi : i = .barInit f ∨ i = .barArv f ∨ i = .barWait f ∨ i = .barSync f) (on : guardOn a i = true)
    (crooked : rdN a f.a.toNat 2 0 % 64 ≠ 0) : Traps i s .misaligned (rdN a f.a.toNat 2 0) := by
  obtain rfl | rfl | rfl | rfl := hi
  · refine traps_of_body r (show execBarInit f s = _ from rfl) ?_
    simp [on, objectLoc_crooked crooked]
  · refine traps_of_body r (show execBarArv f s = _ from rfl) ?_
    simp [on, arrive_crooked _ crooked]
  · refine traps_of_body r (show execBarWait f s = _ from rfl) ?_
    simp [on, barWait_crooked crooked]
  · refine traps_of_body r (show execBarSync f s = _ from rfl) ?_
    simp [on, arrive_crooked _ crooked, barWait_crooked crooked]

theorem exec_bar_guardOff (hi : i = .barInit f ∨ i = .barArv f ∨ i = .barWait f ∨ i = .barSync f) (off : guardOn a i = false) :
    GoesOn i s a s := by
  obtain rfl | rfl | rfl | rfl := hi
  · refine goesOn_of_body r (show execBarInit f s = _ from rfl) ?_
    simp [off]
  · refine goesOn_of_body r (show execBarArv f s = _ from rfl) ?_
    simp [off]
  · refine goesOn_of_body r (show execBarWait f s = _ from rfl) ?_
    simp [off]
  · refine goesOn_of_body r (show execBarSync f s = _ from rfl) ?_
    simp [off]
end

/-- The notice ends a wait whose generation is over, and asks again for the objects of other devices otherwise (R22, R248). -/
theorem exec_barrierCompletionNotice {s : State} {k addr g : Nat} {b : Agent} {e : Nat × Nat} (hb : s.agent k = b)
    (held : b.hold = .barrier addr)
    (waits : b.state = .barrier) (he : b.arrivals.find? (fun e => e.1 == addr) = some e) (hg : genAt s b addr = some g)
    (runs : dieStopped s b.die = false) :
    (g ≠ e.2 → exec (.barrierCompletionNotice k) s = .next (s.setAgent k { b with state := .ready, hold := .none })) ∧
    (g = e.2 → exec (.barrierCompletionNotice k) s = .next (pollObjects s k)) := by
  subst hb
  have at_addr : e.1 = addr := by simpa using List.find?_some he
  have ended : arrivalOver s (s.agent k) e = (g != e.2) := by simp [arrivalOver, at_addr, hg]
  refine ⟨fun ended' => ?_, fun stands => ?_⟩
  · show execBarrierCompletionNotice k s = _
    simp only [execBarrierCompletionNotice, held, he, ended, runs, waits]
    simp [ended']
  · show execBarrierCompletionNotice k s = _
    simp only [execBarrierCompletionNotice, held, he, ended, runs]
    simp [stands]

/-- Settles O37: one operation at the home, then what each instruction makes of the object it read. -/
theorem barrierResults : Obligations.BarrierResults := by
  unfold Obligations.BarrierResults
  refine ⟨fun s w a f loc => ?_, fun s a f loc =>
    ⟨fun i hi r on => exec_barWait r hi on, fun i hi r => ⟨exec_bar_crooked r hi, exec_bar_guardOff r hi⟩,
    fun k b e g => exec_barrierCompletionNotice⟩⟩
  intro addr there held h home
  refine ⟨fun op => ?_, fun r on =>
    ⟨fun low high done => exec_barInit there held h home r on low high done, exec_barInit_badCount there r on⟩,
    fun i hi r on => ⟨exec_arrive_badIndex there hi r on, fun index room done =>
      ⟨fun bad => ?_, fun good hi' => ?_, fun good hi' still near => ?_⟩⟩⟩
  · intro x y sound matched calm
    obtain ⟨err, old⟩ := objectAct_reads (op := op) (asid := w.me.asid) sound matched calm
    refine ⟨err, old, fun o empty wf new length i hi => ?_⟩
    have wrote : y.s = objectWritten x w.cur w.me.asid loc o := objectAct_writes sound matched calm new
    rw [wrote]
    exact homeByte_objectWritten empty wf length hi
  · exact exec_arrive_badObject there held h home index room done hi r on bad
  · subst hi'
    exact exec_barArv there held h home index room done r on good
  · subst hi'
    obtain hi | ⟨-, fresh⟩ := hi
    · exact nomatch hi
    · exact exec_barSync there held h home index room done r on fresh good rfl still near

end Sys2Proof.Machine
end

section
/-! SUPPORT. The decoder and the encoder are inverse to each other, on words and on bytes (R48 to R54, R63, R68, R72). -/

namespace Sys2Proof.Encoding

open Sys2Proof.Machine Sys2Proof.Laws.Encoding

/-! ### Words as bytes (R5, R48) -/

theorem ofBytes_toBytes (n x : Nat) : ofBytes (toBytes n x) = x % 256 ^ n := by
  induction n generalizing x with
  | zero => simp [toBytes, ofBytes, Nat.mod_one]
  | succ n ih =>
    rw [toBytes, ofBytes, ih, BitVec.toNat_ofNat, (Nat.pow_succ' : 256 ^ (n + 1) = 256 * 256 ^ n)]
    exact (Nat.mod_mul (a := 256)).symm

theorem length_toBytes (n x : Nat) : (toBytes n x).length = n := by
  induction n generalizing x with
  | zero => rfl
  | succ n ih => simp [toBytes, ih]

theorem wordBytes_cons (w : DWord) (ws : List DWord) : wordBytes (w :: ws) = toBytes 8 w.toNat ++ wordBytes ws := by
  simp [wordBytes]

theorem wordBytes_nil : wordBytes [] = [] := rfl

theorem wordBytes_append (ws vs : List DWord) : wordBytes (ws ++ vs) = wordBytes ws ++ wordBytes vs := by
  simp [wordBytes]

theorem wordOf_toBytes (w : DWord) (rest : List Byte) : wordOf (toBytes 8 w.toNat ++ rest) = w := by
  have whole : (toBytes 8 w.toNat ++ rest).take 8 = toBytes 8 w.toNat := List.take_left' (length_toBytes 8 _)
  rw [wordOf, whole, ofBytes_toBytes]
  rw [Nat.mod_eq_of_lt (show w.toNat < 256 ^ 8 from w.isLt), BitVec.ofNat_toNat, BitVec.setWidth_eq]

/-- One word that does not begin an L frame is decoded alone (R49). -/
theorem decode_word {w : DWord} (short : w.extractLsb' 62 2 ≠ 0b10#2) (rest : List Byte) :
    decode (wordBytes [w] ++ rest) = (decodeWords w (wordOf rest)).map (·, rest) := by
  have tail : (toBytes 8 w.toNat ++ rest).drop 8 = rest := List.drop_left' (length_toBytes 8 _)
  have short' : (w.extractLsb' 62 2 == 0b10#2) = false := by simpa using short
  rw [wordBytes_cons, wordBytes_nil, List.append_nil]
  simp only [decode, wordOf_toBytes, List.length_append, length_toBytes, tail, short', Bool.false_and, Bool.false_eq_true, if_false,
    Nat.not_lt.mpr (Nat.le_add_right 8 _)]
  cases decodeWords w (wordOf rest) <;> rfl

/-- A word that begins an L frame is decoded with the word after it (R49, R54). -/
theorem decode_words {w0 : DWord} (long : w0.extractLsb' 62 2 = 0b10#2) (w1 : DWord) (rest : List Byte) :
    decode (wordBytes [w0, w1] ++ rest) = (decodeWords w0 w1).map (·, rest) := by
  have next : (toBytes 8 w0.toNat ++ (toBytes 8 w1.toNat ++ rest)).drop 8 = toBytes 8 w1.toNat ++ rest :=
    List.drop_left' (length_toBytes 8 _)
  have tail : (toBytes 8 w0.toNat ++ (toBytes 8 w1.toNat ++ rest)).drop 16 = rest := by
    rw [← List.append_assoc]
    exact List.drop_left' (by simp [length_toBytes])
  have enough : ¬ 8 + (8 + rest.length) < 16 := by omega
  rw [wordBytes_cons, wordBytes_cons, wordBytes_nil, List.append_nil, List.append_assoc]
  simp only [decode, wordOf_toBytes, List.length_append, length_toBytes, next, tail, long, enough, beq_self_eq_true, decide_false,
    Bool.and_false, Bool.false_eq_true, if_false, if_true, Nat.not_lt.mpr (Nat.le_add_right 8 _)]
  cases decodeWords w0 w1 <;> rfl

/-! ### The opcode map and its inverse (R68) -/

theorem fInstr_of_shape {i : Instr} {op : Nat} {x : FArgs} (h : shapeOf i = .f op x) : op < 2 ^ 10 ∧ fInstr op x = some i := by
  cases i <;> cases h <;> exact ⟨by decide, rfl⟩

theorem lInstr_of_shape {i : Instr} {op : Nat} {x : LArgs} (h : shapeOf i = .l op x) : op < 2 ^ 10 ∧ lInstr op x = some i := by
  cases i <;> cases h <;> exact ⟨by decide, rfl⟩

theorem eq_pPair_of_shape {i : Instr} {x : PArgs} (h : shapeOf i = .p x) : i = .pPair x := by
  cases i <;> cases h
  rfl

theorem shape_of_fInstr {i : Instr} {op : Nat} {x : FArgs} (h : fInstr op x = some i) : shapeOf i = .f op x := by
  unfold fInstr at h
  split at h <;> cases h <;> rfl

theorem shape_of_lInstr {i : Instr} {op : Nat} {x : LArgs} (h : lInstr op x = some i) : shapeOf i = .l op x := by
  unfold lInstr at h
  split at h <;> cases h <;> rfl

theorem encode_of_fShape {i : Instr} {op : Nat} {x : FArgs} (h : shapeOf i = .f op x) : encode i = [fWord (BitVec.ofNat 10 op) x] := by
  simp [encode, h]

theorem encode_of_lShape {i : Instr} {op : Nat} {x : LArgs} (h : shapeOf i = .l op x) :
    encode i = [lWord0 (BitVec.ofNat 10 op) x, lWord1 x] := by
  simp [encode, h]

theorem encode_pPair (x : PArgs) : encode (.pPair x) = [pWord x] := rfl

/-- Settles O2, frame by frame. -/
theorem encodeThenDecode : Obligations.EncodeThenDecode := by
  intro i rest word
  cases shape : shapeOf i with
  | f op x =>
    obtain ⟨small, row⟩ := fInstr_of_shape shape
    have number : (BitVec.ofNat 10 op).toNat = op := Nat.mod_eq_of_lt small
    rw [encode_of_fShape shape, decode_word (by rw [fWord_frame]; decide), decodeWords_fWord _ x _ i (number.symm ▸ row)]
    rfl
  | l op x =>
    obtain ⟨small, row⟩ := lInstr_of_shape shape
    have number : (BitVec.ofNat 10 op).toNat = op := Nat.mod_eq_of_lt small
    rw [encode_of_lShape shape, decode_words (lWord0_frame _ x), decodeWords_lWords _ x i (number.symm ▸ row)]
    rfl
  | p x =>
    obtain rfl := eq_pPair_of_shape shape
    rw [encode_pPair, decode_word (by rw [pWord_frame]; decide), decodeWords_pWord]
    rfl
  | event => exact absurd shape word

/-! ### Words from their fields (R51, R54, R63) -/

theorem ofBool_getLsbD {n : Nat} (x : BitVec n) (k : Nat) : BitVec.ofBool (x.getLsbD k) = x.extractLsb' k 1 := by
  ext i hi
  obtain rfl : i = 0 := by omega
  simp

theorem guardBits_guardOf (x : BitVec 14) : guardBits (guardOf x) = x := by
  simp (disch := decide) only [guardBits, guardOf, ofBool_getLsbD, BitVec.extractLsb'_append_extractLsb'_eq_extractLsb']
  exact BitVec.extractLsb'_eq_self

theorem fWord_fArgsOf {w : DWord} (frame : w.extractLsb' 62 2 = 0#2) : fWord (w.extractLsb' 52 10) (fArgsOf w) = w := by
  simp (disch := decide) only [fWord, fArgsOf, ← frame, guardBits_guardOf, ofBool_getLsbD,
    BitVec.extractLsb'_append_extractLsb'_eq_extractLsb']
  exact BitVec.extractLsb'_eq_self

theorem lWord0_lArgsOf {w0 : DWord} (w1 : DWord) (frame : w0.extractLsb' 62 2 = 2#2) :
    lWord0 (w0.extractLsb' 52 10) (lArgsOf w0 w1) = w0 := by
  simp (disch := decide) only [lWord0, lArgsOf, ← frame,
    BitVec.extractLsb'_append_extractLsb'_eq_extractLsb']
  exact BitVec.extractLsb'_eq_self

theorem lWord1_lArgsOf (w0 : DWord) {w1 : DWord} (frame : w1.extractLsb' 62 2 = 3#2) : lWord1 (lArgsOf w0 w1) = w1 := by
  simp (disch := decide) only [lWord1, lArgsOf, ← frame, guardBits_guardOf, ofBool_getLsbD,
    BitVec.extractLsb'_append_extractLsb'_eq_extractLsb']
  exact BitVec.extractLsb'_eq_self

theorem pNum_of_pOpOf {n : Nat} {op : POp} (h : pOpOf n = some op) : (pNum op).toNat = n := by
  unfold pOpOf at h
  split at h <;> cases h <;> rfl

theorem pSlotBits_of_pSlotOf {x : BitVec 31} {s : PSlot} (h : pSlotOf x = some s) : pSlotBits s = x := by
  obtain ⟨op, hop, rfl⟩ := Option.map_eq_some_iff.mp h
  have number : pNum op = x.extractLsb' 24 7 := BitVec.eq_of_toNat_eq (pNum_of_pOpOf hop)
  simp (disch := decide) only [pSlotBits, number, BitVec.extractLsb'_append_extractLsb'_eq_extractLsb']
  exact BitVec.extractLsb'_eq_self

theorem pWord_of_slots {w : DWord} {x : PArgs} (frame : w.extractLsb' 62 2 = 1#2) (h0 : pSlotOf (w.extractLsb' 31 31) = some x.s0)
    (h1 : pSlotOf (w.extractLsb' 0 31) = some x.s1) : pWord x = w := by
  simp (disch := decide) only [pWord, ← frame, pSlotBits_of_pSlotOf h0, pSlotBits_of_pSlotOf h1,
    BitVec.extractLsb'_append_extractLsb'_eq_extractLsb']
  exact BitVec.extractLsb'_eq_self

/-! ### What words decode to, frame by frame (R48, R72) -/

/-- How words form an instruction: as the F word, the P word or the two L words of its shape. -/
inductive Forms (w0 w1 : DWord) (i : Instr) : Prop where
  | f (frame : w0.extractLsb' 62 2 = 0#2) (shape : shapeOf i = .f (w0.extractLsb' 52 10).toNat (fArgsOf w0))
  | p (frame : w0.extractLsb' 62 2 = 1#2) (x : PArgs) (s0 : pSlotOf (w0.extractLsb' 31 31) = some x.s0)
      (s1 : pSlotOf (w0.extractLsb' 0 31) = some x.s1) (pair : i = .pPair x)
  | l (frame0 : w0.extractLsb' 62 2 = 2#2) (frame1 : w1.extractLsb' 62 2 = 3#2)
      (shape : shapeOf i = .l (w0.extractLsb' 52 10).toNat (lArgsOf w0 w1))

theorem frame_cases (x : BitVec 2) : x = 0#2 ∨ x = 1#2 ∨ x = 2#2 ∨ x = 3#2 := by
  revert x
  decide

theorem forms_of_decodeWords {w0 w1 : DWord} {i : Instr} (h : decodeWords w0 w1 = .ok i) : Forms w0 w1 i := by
  obtain frame | frame | frame | frame := frame_cases (w0.extractLsb' 62 2) <;>
    simp only [decodeWords, frame, BitVec.reduceToNat] at h
  · split at h
    · rename_i row
      cases h
      exact .f frame (shape_of_fInstr row)
    · split at h <;> cases h
  · split at h
    · rename_i s0 s1 h0 h1
      cases h
      exact .p frame ⟨s0, s1⟩ h0 h1 rfl
    · cases h
  · split at h
    · rename_i second
      split at h
      · rename_i row
        cases h
        exact .l frame (by simpa using second) (shape_of_lInstr row)
      · split at h <;> cases h
    · cases h
  · cases h

/-- Settles O3: the fields that a word is read as are the whole word, in each frame. -/
theorem decodeThenEncode : Obligations.DecodeThenEncode := by
  intro w0 w1 i h
  cases forms_of_decodeWords h with
  | f frame shape => rw [encode_of_fShape shape, BitVec.ofNat_toNat, BitVec.setWidth_eq, fWord_fArgsOf frame, if_neg (by rw [frame]; decide)]
  | p frame x h0 h1 pair =>
    subst pair
    rw [encode_pPair, pWord_of_slots frame h0 h1, if_neg (by rw [frame]; decide)]
  | l frame0 frame1 shape =>
    rw [encode_of_lShape shape, BitVec.ofNat_toNat, BitVec.setWidth_eq, lWord0_lArgsOf w1 frame0, lWord1_lArgsOf w0 frame1, if_pos frame0]

/-- An instruction's own words decode to it. -/
theorem decode_of_encode {ws : List DWord} {i : Instr} (h : encode i = ws) (word : shapeOf i ≠ .event) : decode (wordBytes ws) = .ok (i, []) := by
  have := encodeThenDecode i [] word
  rwa [List.append_nil, h] at this

/-- Settles O1: the first five words are the encodings of their instructions; no frame has the last two. -/
theorem decodeWords : Obligations.DecodeWords := by
  refine ⟨decode_of_encode (by decide) (by decide), decode_of_encode (by decide) (by decide), decode_of_encode (by decide) (by decide),
    decode_of_encode (by decide) (by decide), decode_of_encode (by decide) (by decide), by decide, by decide⟩

end Sys2Proof.Encoding
end

section
/-! SUPPORT. The traps of words (R49, R72, R73): what comes before an instruction's own description, and words that are no instruction. -/

namespace Sys2Proof.Machine

open Sys2Proof.Safety Sys2Proof.Encoding

/-! ### Every instruction of the set comes to issue -/

theorem aluLong_issues (i : Instr) (s : State) (d : Reg) (n : Nat) (srcs : List Reg) (g : Agent → Nat → Nat × Word) :
    ∃ body, aluLong i s d n srcs g = issue i s body := ⟨_, rfl⟩

theorem exec_issues {i : Instr} (word : shapeOf i ≠ .event) (s : State) : ∃ body, exec i s = issue i s body := by
  have word' : (shapeOf i == .event) = false := beq_eq_false_iff_ne.mpr word
  clear word
  unfold exec
  cases i <;> cases word' <;> dsimp only
  case idiv f | irem f | fdiv f | fsqrt f | frcp f | frsq f | fexp2 f | flog2 f | fsin f | fcos f | ftanh f =>
    exact aluLong_issues _ s _ _ _ _
  all_goals exact ⟨_, rfl⟩

theorem rowOf_event {i : Instr} (h : shapeOf i = .event) : rowOf i = none := by
  cases i <;> cases h <;> rfl

theorem rowOf_pPair (p : PArgs) : rowOf (.pPair p) = none := rfl

theorem namesV_event {i : Instr} (h : shapeOf i = .event) : namesV i = false := by
  cases i <;> cases h <;> rfl

/-! ### The trap of a word (R73) -/

/-- To set the current agent to what it is makes no difference to a trap of it. -/
theorem takeTrap_setMe {s : State} {a : Agent} (h : Tab.find s.agents s.cur = some a) (c : Cause) (addr : Nat) :
    takeTrap (s.setMe a) s.cur c addr = takeTrap s s.cur c addr := by
  have same (x : Agent) : (s.setMe a).setAgent s.cur x = s.setAgent s.cur x := setMe_setMe s a x
  simp only [takeTrap, setMe_agent, agent_of_find h, same]
  rfl

theorem traps_of_staticTrap {s : State} {a : Agent} {i : Instr} {c : Cause} (word : shapeOf i ≠ .event)
    (h : Tab.find s.agents s.cur = some a) (free : notYet s a i = none) (calm : dueError a = none) (trap : staticTrap a i = some c) :
    Traps i s c 0 := by
  obtain ⟨body, runs⟩ := exec_issues word s
  rw [Traps, runs, ← takeTrap_setMe h]
  simp only [issue, h, free, earlyTrap, calm, trap]

theorem staticTrap_of_row (a : Agent) {i : Instr} {r : OpRow} (h : rowOf i = some r) :
    staticTrap a i =
      if a.kind = .forester ∧ (r.runs = .team ∨ namesV i = true) ∨ a.kind = .team ∧ r.runs = .forester then some .illegalOpcode
      else if r.priv = true ∧ a.priv = false then some .privilege
      else if fieldRules i = false ∨ beyondAllotment a i = true ∨ strandBroken a i = true then some .reservedField
      else none := by
  have single (p : PArgs) (pair : i = .pPair p) : False := by
    rw [pair] at h
    exact nomatch h
  cases hk : a.kind <;> simp [staticTrap, h, hk, or_assoc]

theorem staticTrap_pPair (a : Agent) (p : PArgs) :
    staticTrap a (.pPair p) =
      if a.kind = .forester then (if namesV (.pPair p) = true then some .illegalOpcode else some .illegalFrame)
      else if fieldRules (.pPair p) = false ∨ beyondAllotment a (.pPair p) = true then some .reservedField
      else if pairOk p = true then none else some .pairConflict := by
  cases hk : a.kind <;> simp [staticTrap, strandBroken, rowOf_pPair, hk]

/-! ### Words that are no instruction (R49, R72) -/

/-- A word that is fetched and begins no instruction brings the trap of its rejection; no second word is fetched. -/
theorem fetch_rejected_word {s : State} {a : Agent} {w0 : DWord} {e : Reject} (h0 : fetchWord s a a.pc.toNat = .ok w0)
    (short : w0.extractLsb' 62 2 ≠ 0b10#2) (rejected : ∀ w, decodeWords w0 w = .error e) : fetch s a = .trap (rejectCause a e) 0 := by
  have decoded : decode (wordBytes [w0, 0]) = .error e := by
    have := decode_word short (wordBytes [0])
    rwa [rejected, ← wordBytes_append] at this
  have short' : (w0.extractLsb' 62 2 == 0b10#2) = false := by simpa using short
  simp only [fetch, h0, short', Bool.false_eq_true, if_false, decoded]

/-- So do two words of which the first begins an L frame. -/
theorem fetch_rejected_words {s : State} {a : Agent} {w0 w1 : DWord} {e : Reject} (h0 : fetchWord s a a.pc.toNat = .ok w0)
    (long : w0.extractLsb' 62 2 = 0b10#2) (h1 : fetchWord s a (a.pc.toNat + 8) = .ok w1) (rejected : decodeWords w0 w1 = .error e) :
    fetch s a = .trap (rejectCause a e) 0 := by
  have decoded : decode (wordBytes [w0, w1]) = .error e := by
    have := decode_words long w1 []
    rwa [List.append_nil, rejected] at this
  simp only [fetch, h0, h1, long, beq_self_eq_true, if_true, decoded]

theorem pNum_lt (op : POp) : (pNum op).toNat < 24 := by
  cases op <;> decide

theorem extractLsb'_extractLsb' {n : Nat} (x : BitVec n) (lo : Nat) {len k m : Nat} (h : k + m ≤ len) :
    (x.extractLsb' lo len).extractLsb' k m = x.extractLsb' (lo + k) m := by
  ext i hi
  simp only [BitVec.getElem_extractLsb', BitVec.getLsbD_extractLsb', Nat.add_assoc]
  simp only [show k + i < len by omega, decide_true, Bool.true_and]

theorem pSlotOf_eq_none {x : BitVec 31} (h : 24 ≤ (x.extractLsb' 24 7).toNat) : pSlotOf x = none := by
  rw [pSlotOf, Option.map_eq_none_iff]
  cases hop : pOpOf (x.extractLsb' 24 7).toNat with
  | none => rfl
  | some op =>
    have number := pNum_of_pOpOf hop
    have := pNum_lt op
    omega

section
variable {w0 : DWord} (w1 : DWord)

theorem decodeWords_secondWord (frame : w0.extractLsb' 62 2 = 0b11#2) : decodeWords w0 w1 = .error .illegalFrame := by
  simp [decodeWords, frame]

theorem decodeWords_brokenPair {w1 : DWord} (frame : w0.extractLsb' 62 2 = 0b10#2) (broken : w1.extractLsb' 62 2 ≠ 0b11#2) :
    decodeWords w0 w1 = .error .illegalFrame := by
  simp [decodeWords, frame, broken]

theorem decodeWords_fUnknown (frame : w0.extractLsb' 62 2 = 0b00#2) (row : fInstr (w0.extractLsb' 52 10).toNat (fArgsOf w0) = none) :
    decodeWords w0 w1 = .error (if isLOpcode (w0.extractLsb' 52 10).toNat = true
      then .frameNotPermitted (runsOfOp (w0.extractLsb' 52 10).toNat) (shortNamesV (w0.extractLsb' 52 10).toNat (fArgsOf w0))
      else .illegalOpcode) := by
  simp only [decodeWords, frame, row, BitVec.reduceToNat]
  split <;> rfl

theorem decodeWords_pUnknown (frame : w0.extractLsb' 62 2 = 0b01#2)
    (slot : 24 ≤ (w0.extractLsb' 55 7).toNat ∨ 24 ≤ (w0.extractLsb' 24 7).toNat) : decodeWords w0 w1 = .error .illegalOpcode := by
  have none : pSlotOf (w0.extractLsb' 31 31) = none ∨ pSlotOf (w0.extractLsb' 0 31) = none := by
    refine slot.imp (fun high => pSlotOf_eq_none ?_) (fun high => pSlotOf_eq_none ?_)
    · rwa [extractLsb'_extractLsb' _ 31 (by decide)]
    · rwa [extractLsb'_extractLsb' _ 0 (by decide)]
  simp only [decodeWords, frame, BitVec.reduceToNat]
  split
  · rename_i h0 h1
    simp [h0, h1] at none
  · rfl

theorem decodeWords_lUnknown {w1 : DWord} (frame : w0.extractLsb' 62 2 = 0b10#2) (second : w1.extractLsb' 62 2 = 0b11#2)
    (row : lInstr (w0.extractLsb' 52 10).toNat (lArgsOf w0 w1) = none) :
    decodeWords w0 w1 = .error (if isFOpcode (w0.extractLsb' 52 10).toNat = true
      then .frameNotPermitted (runsOfOp (w0.extractLsb' 52 10).toNat) (longNamesV (w0.extractLsb' 52 10).toNat (lArgsOf w0 w1))
      else .illegalOpcode) := by
  simp only [decodeWords, frame, second, row, BitVec.reduceToNat, beq_self_eq_true, if_true]
  split <;> rfl
end

/-- A word of an opcode in a frame it does not permit: a wrong context or a v register of a forester program comes first (R73). -/
theorem rejectCause_frame (a : Agent) (runs : RunsIn) (v : Bool) :
    rejectCause a (.frameNotPermitted runs v) =
      if runs = .forester ∧ a.kind = .team ∨ a.kind = .forester ∧ (runs = .team ∨ v = true) then .illegalOpcode else .illegalFrame := by
  cases hk : a.kind <;> simp [rejectCause, hk]

/-- Settles O9: the trap of an instruction's word in the order of R73, then what the decoder refuses, frame by frame. -/
theorem wordTraps : Obligations.WordTraps := by
  refine ⟨fun s a i r h free calm row => ?_, fun s a i h free calm => ⟨fun kind v => ?_, fun p pair => ?_⟩, fun s a w0 w1 h0 => ?_⟩
  · have word : shapeOf i ≠ .event := fun event => by simp [rowOf_event event] at row
    have trap := staticTrap_of_row a row
    refine ⟨fun runs kind => ?_, fun runs kind => ?_, fun runs kind priv user => ?_, fun runs kind level broken => ?_,
      fun runs kind uniform => ⟨fun priv user => ?_, fun level broken => ?_⟩⟩ <;>
      refine traps_of_staticTrap word h free calm (trap.trans ?_)
    · simp [runs, kind]
    · simp [runs, kind]
    · simp [runs, kind, priv, user]
    · have privileged : ¬ (r.priv = true ∧ a.priv = false) := fun ⟨priv, user⟩ => by simp [level priv] at user
      rw [if_neg (by simp [runs, kind]), if_neg privileged, if_pos (by tauto)]
    · simp [runs, kind, uniform, priv, user]
    · have privileged : ¬ (r.priv = true ∧ a.priv = false) := fun ⟨priv, user⟩ => by simp [level priv] at user
      rw [if_neg (by simp [runs, kind, uniform]), if_neg privileged, if_pos (.inl broken)]
  · have word : shapeOf i ≠ .event := fun event => by simp [namesV_event event] at v
    exact traps_of_staticTrap word h free calm (by simp [staticTrap, kind, v])
  · subst pair
    have trap := staticTrap_pPair a p
    refine ⟨fun kind uniform => ?_, fun kind broken => ?_, fun kind sound within bad => ?_⟩ <;>
      refine traps_of_staticTrap (by simp [shapeOf]) h free calm (trap.trans ?_)
    · simp [kind, uniform]
    · simp [kind, broken]
    · simp [kind, sound, within, bad]
  · have one {v : BitVec 2} (frame : w0.extractLsb' 62 2 = v) (other : v ≠ 0b10#2) : w0.extractLsb' 62 2 ≠ 0b10#2 := frame ▸ other
    refine ⟨fun frame => ?_, fun frame h1 broken => ?_, fun frame row unassigned => ?_, fun frame slot => ?_,
      fun frame assigned row => ?_, fun frame h1 second row => ?_⟩
    · exact fetch_rejected_word h0 (one frame (by decide)) fun w => decodeWords_secondWord w frame
    · exact fetch_rejected_words h0 frame h1 (decodeWords_brokenPair frame broken)
    · have trap := fetch_rejected_word h0 (one frame (by decide)) fun w => decodeWords_fUnknown w frame row
      rwa [if_neg (Bool.eq_false_iff.mp unassigned)] at trap
    · exact fetch_rejected_word h0 (one frame (by decide)) fun w => decodeWords_pUnknown w frame slot
    · have trap := fetch_rejected_word h0 (one frame (by decide)) fun w => decodeWords_fUnknown w frame row
      rw [if_pos assigned, rejectCause_frame] at trap
      exact ⟨fun outside => by rwa [if_pos outside] at trap, fun inside => by rwa [if_neg inside] at trap⟩
    · have trap := fetch_rejected_words h0 frame h1 (decodeWords_lUnknown frame second row)
      refine ⟨fun unassigned => ?_, fun assigned outside => ?_, fun assigned inside => ?_⟩
      · rwa [if_neg (Bool.eq_false_iff.mp unassigned)] at trap
      · rwa [if_pos assigned, rejectCause_frame, if_pos outside] at trap
      · rwa [if_pos assigned, rejectCause_frame, if_neg inside] at trap

end Sys2Proof.Machine
end

section
/-! SUPPORT. P pairs (R63 to R65): both slots read what stood before the pair, and each writes its own destination. -/

namespace Sys2Proof.Machine

open Sys2Proof.Safety

theorem slotResult_eq (a : Agent) (p : PSlot) (l : Nat) :
    slotResult a p l = slotValue p (rd1 a p.d l) (if p.op = .movi then 0 else rd1 a p.a l) := by
  simp only [slotResult, beq_iff_eq]

theorem regGet_slotWrite_other (old a : Agent) (p : PSlot) {r : Nat} (l : Nat) (h : r ≠ p.d.toNat) :
    regGet (slotWrite old a p) r l = regGet a r l :=
  (regGet_congr (a := regPut a p.d.toNat _) rfl rfl r l).trans (regGet_regPut_other a l _ h)

theorem regGet_slotWrite_same (old a : Agent) (p : PSlot) {l : Nat} (hl : l < a.nlanes) (hv : p.d.toNat < 192 ∨ l = 0) :
    regGet (slotWrite old a p) p.d.toNat l =
      if slotActs old p l = true ∧ ¬ fixedReg p.d.toNat then BitVec.ofNat 32 (slotResult old p l).1 else regGet a p.d.toNat l := by
  have put := regGet_regPut_same a p.d.toNat l (fun l => if slotActs old p l then some (BitVec.ofNat 32 (slotResult old p l).1) else none) hl hv
  refine ((regGet_congr (a := regPut a p.d.toNat _) rfl rfl p.d.toNat l).trans put).trans ?_
  by_cases fixed : fixedReg p.d.toNat <;> by_cases acts : slotActs old p l = true <;> simp [fixed, acts]

/-- A register that reads, in the lanes of a slot, the slot's result is a destination that holds it. -/
theorem holds_slot {a b : Agent} {p : PSlot}
    (reads : ∀ l, l < a.nlanes → (p.d.toNat < 192 ∨ l = 0) → regGet b p.d.toNat l = regGet (slotWrite a a p) p.d.toNat l) :
    Holds a b p.d 1 (slotActs a p) (fun l => (slotValue p (rd1 a p.d l) (if p.op = .movi then 0 else rd1 a p.a l)).1) := by
  intro j l hj hl hv
  obtain rfl : j = 0 := by omega
  rw [Nat.add_zero] at hv ⊢
  rw [reads l hl hv, regGet_slotWrite_same a a p hl hv, slotResult_eq, Nat.mul_zero, Nat.pow_zero, Nat.div_one]

/-- Settles O19: the second slot writes another register than the first, and reads the registers as they stood before the pair. -/
theorem pairResults : Obligations.PairResults := by
  intro s a p apart r q
  have only0 := slotWrite_only a a p.s0
  have only1 := slotWrite_only a (slotWrite a a p.s0) p.s1
  have lanes : (slotWrite a a p.s0).nlanes = a.nlanes := (congrArg Agent.nlanes only0 :)
  have outstanding : (slotWrite a (slotWrite a a p.s0) p.s1).lahead = a.lahead :=
    (congrArg Agent.lahead only1 :).trans (congrArg Agent.lahead only0 :)
  have distinct : p.s0.d.toNat ≠ p.s1.d.toNat := fun same => apart (BitVec.eq_of_toNat_eq same)
  obtain ⟨t, b, ht, hb, frame, hpc, hv, hs, hf, -⟩ := issue_onAgent r q (fun a => slotWrite a (slotWrite a a p.s0) p.s1) outstanding
  have reads (x l : Nat) : regGet b x l = regGet (slotWrite a (slotWrite a a p.s0) p.s1) x l := regGet_congr hv hs x l
  refine ⟨t, b, ⟨ht, hb⟩, frame, hpc, holds_slot fun l _ _ => ?_, holds_slot fun l hl hv => ?_, fun x l _ _ not0 not1 => ?_, ?_⟩
  · rw [reads, regGet_slotWrite_other a _ p.s1 l distinct]
  · rw [reads, regGet_slotWrite_same a _ p.s1 (lanes.symm ▸ hl) hv, regGet_slotWrite_same a a p.s1 hl hv,
      regGet_slotWrite_other a a p.s0 l distinct.symm]
  · rw [reads, regGet_slotWrite_other a _ p.s1 l not1, regGet_slotWrite_other a a p.s0 l not0]
  · rw [hf, slotWrite_fstat, slotWrite_fstat]

end Sys2Proof.Machine
end

section
/-! SUPPORT. The conversion block (R104 to R107): CVT, PACK and UNPK lane by lane, CVTQ and CVTD by their format slot. -/

namespace Sys2Proof.Machine

open Sys2Proof.Safety

/-- A conversion by an unbound or malformed slot traps (R74, R106). -/
theorem traps_slotConvert {s : State} {a : Agent} {i : Instr} (r : Ready s a i) {f : FArgs} {nd na : Nat → Nat}
    {go : List Byte → Nat → Agent → Agent} (runs : exec i s = issue i s (slotConvert f nd na go))
    (bad : slotBad (slotOf s a.grid (f.mod.toNat % 8)) = true) : Traps i s .formatSlot 0 :=
  traps_of_body r runs (by simp only [slotConvert, bad, if_true])

/-- Settles O20: the values that each writes lane by lane, and the course that CVTQ and CVTD share. -/
theorem conversionResults : Obligations.ConversionResults := by
  refine ⟨fun s a f => ⟨fun r q => gives_of_aluFlags r q rfl fun _ => rfl, fun r q => gives_of_aluFlags r q rfl fun _ => rfl,
    fun r q => gives_of_alu r q rfl fun _ => rfl, fun cb u b good reads => ⟨fun r hd ha => ?_, fun r hd ha => ?_⟩⟩,
    fun s a f bad => ⟨fun r => traps_slotConvert r rfl bad, fun r => traps_slotConvert r rfl bad⟩⟩
  · exact exec_slotConvert (go := fun cb slot a => quantise cb slot f a) r rfl rfl good reads hd ha
  · exact exec_slotConvert (go := fun cb slot a => dequantise cb slot f a) r rfl rfl good reads hd ha

end Sys2Proof.Machine
end

section
/-! SUPPORT. Branches, calls and returns (R49, R53, R62, R114, R118). -/

namespace Sys2Proof.Machine

open Sys2Proof.Safety

/-! ### Targets -/

theorem ofNat_wrapN (n : Nat) (x : Int) : BitVec.ofNat n (wrapN n x) = BitVec.ofInt n x := by
  apply BitVec.eq_of_toNat_eq
  rw [BitVec.toNat_ofNat, Nat.mod_eq_of_lt (wrapN_lt n x), BitVec.toNat_ofInt, wrapN]

/-- An offset is added to the pc modulo 2^64 (R53). -/
theorem pc_add_offset (pc : DWord) (x : Int) : BitVec.ofNat 64 (wrapN 64 ((pc.toNat : Int) + x)) = pc + BitVec.ofInt 64 x := by
  rw [ofNat_wrapN, BitVec.ofInt_add, BitVec.ofInt_natCast, BitVec.ofNat_toNat, BitVec.setWidth_eq]

theorem branchTarget_eq (a : Agent) (f : FArgs) : branchTarget a f =
    a.pc + BitVec.ofInt 64 (8 * signedN 24 (f.d.toNat * 65536 + f.a.toNat * 256 + f.b.toNat)) := pc_add_offset a.pc _

/-- RET stays within the 4 GiB of the pc (R114). -/
theorem hiWord_toNat (x : DWord) : (hiWord x).toNat = x.toNat / 2 ^ 32 := by
  have := x.isLt
  simp only [hiWord, BitVec.toNat_setWidth, BitVec.toNat_ushiftRight, Nat.shiftRight_eq_div_pow]
  omega

theorem jumpTo_aligned (s : State) {t : Nat} (h : t % 8 = 0) : jumpTo s t = .goTo s (BitVec.ofNat 64 t) := by
  simp [jumpTo, h]

theorem jumpTo_crooked (s : State) {t : Nat} (h : t % 8 ≠ 0) : jumpTo s t = .trap .misaligned t := by
  simp [jumpTo, h]

/-! ### The instructions -/

theorem goesTo_of_body {i : Instr} {s t : State} {a : Agent} {body : State → Agent → Act} {pc : DWord} (r : Ready s a i)
    (runs : exec i s = issue i s body) (act : body s a = .goTo t pc) : GoesTo i s t pc := by
  rw [GoesTo, runs, issue_ready r, act]

/-- A control transfer whose guard does not hold goes on (R58, R114). -/
theorem goesOn_guardOff {i : Instr} {s : State} {a : Agent} {taken : State → Agent → Act} (r : Ready s a i)
    (runs : exec i s = issue i s (fun s a => if guardOn a i then taken s a else .go s)) (off : guardOn a i = false) : GoesOn i s a s :=
  goesOn_of_body r runs (if_neg (Bool.eq_false_iff.mp off))

/-- Settles O21, instruction by instruction: what each is where its guard holds, and that it goes on where the guard does not. -/
theorem branchResults : Obligations.BranchResults := by
  intro s a f
  refine ⟨fun r => ?_, fun r on => ?_, fun r => ?_, fun x r on => ?_, fun x r => ?_, fun r on whole => ?_, fun r on crooked => ?_, fun r => ?_,
    fun r on => ?_, fun r => ?_, fun r on whole => ?_, fun r on crooked => ?_, fun r => ?_, fun r on => ?_, fun r => ?_⟩
  · exact goesOn_of_body r (show execNop f s = _ from rfl) rfl
  · exact goesTo_of_body r (show execBra f s = _ from rfl) (by rw [if_pos on, branchTarget_eq])
  · exact goesOn_guardOff r (show execBra f s = _ from rfl)
  · exact goesTo_of_body r (show execBraL x s = _ from rfl) (by rw [if_pos on, pc_add_offset])
  · exact goesOn_guardOff r (show execBraL x s = _ from rfl)
  · exact goesTo_of_body r (show execBrx f s = _ from rfl) (by rw [if_pos on, jumpTo_aligned s whole])
  · exact traps_of_body r (show execBrx f s = _ from rfl) (by rw [if_pos on, jumpTo_crooked s crooked])
  · exact goesOn_guardOff r (show execBrx f s = _ from rfl)
  · exact goesTo_of_body r (show execCall f s = _ from rfl) (by rw [if_pos on, branchTarget_eq]; rfl)
  · exact goesOn_guardOff r (show execCall f s = _ from rfl)
  · exact goesTo_of_body r (show execRet f s = _ from rfl) (by rw [if_pos on, hiWord_toNat, jumpTo_aligned s (by omega)])
  · exact traps_of_body r (show execRet f s = _ from rfl) (by rw [if_pos on, hiWord_toNat, jumpTo_crooked s (by omega)])
  · exact goesOn_guardOff r (show execRet f s = _ from rfl)
  · exact goesOn_of_body r (show execYieldTeam f s = _ from rfl) (by rw [if_pos on])
  · exact goesOn_guardOff r (show execYieldTeam f s = _ from rfl)

end Sys2Proof.Machine
end

section
/-! SUPPORT. Floating point codes, their fields, and the numbers that they are (R121, R122). -/

namespace Sys2Proof.Machine

open Sys2Proof.Safety

/-! ### Codes and their fields (R121, R122) -/

/-- The code of a sign, an exponent field and a mantissa field (R121). -/
def Fmt.pack (f : Fmt) (neg : Bool) (e m : Nat) : Nat := f.signBit neg + e * 2 ^ f.m + m

theorem signBit_eq (f : Fmt) (neg : Bool) : f.signBit neg = b2n neg * 2 ^ (f.e + f.m) := by
  cases neg <;> simp [Fmt.signBit, b2n]

theorem signBit_eq_pack (f : Fmt) (neg : Bool) : f.signBit neg = f.pack neg 0 0 := by simp [Fmt.pack]

theorem infCode_eq_pack (f : Fmt) (neg : Bool) : f.infCode neg = f.pack neg (2 ^ f.e - 1) 0 := rfl

theorem nanCode_eq_pack (f : Fmt) : f.nanCode = f.pack false (2 ^ f.e - 1) (2 ^ (f.m - 1)) := rfl

theorem xor_two_pow_of_lt {x k : Nat} (h : x < 2 ^ k) : x ^^^ 2 ^ k = 2 ^ k + x := by
  apply Nat.eq_of_testBit_eq
  intro i
  rw [Nat.testBit_xor, Nat.testBit_two_pow]
  obtain below | rfl | above := lt_trichotomy i k
  · rw [Nat.testBit_two_pow_add_gt below]
    simp [below.ne']
  · rw [Nat.testBit_two_pow_add_eq]
    simp
  · have wide : 2 ^ k + x < 2 ^ i := by
      have := Nat.pow_le_pow_right Nat.two_pos (Nat.succ_le_of_lt above)
      rw [Nat.pow_succ] at this
      omega
    rw [Nat.testBit_lt_two_pow wide, Nat.testBit_lt_two_pow ((Nat.le_add_left x _).trans_lt wide)]
    simp [above.ne]

section
variable {f : Fmt} {neg : Bool} {e m : Nat} (he : e < 2 ^ f.e) (hm : m < 2 ^ f.m)
include he hm

/-- Exponent and mantissa together stay below the sign bit. -/
theorem fields_lt : e * 2 ^ f.m + m < 2 ^ (f.e + f.m) := by
  have : (e + 1) * 2 ^ f.m ≤ 2 ^ f.e * 2 ^ f.m := Nat.mul_le_mul_right _ he
  rw [Nat.pow_add]
  linarith

theorem pack_lt : f.pack neg e m < 2 ^ f.width := by
  have fields := fields_lt he hm
  have width : 2 ^ f.width = 2 ^ (f.e + f.m) + 2 ^ (f.e + f.m) := by rw [Fmt.width, Nat.add_assoc, Nat.pow_add]; omega
  rw [Fmt.pack, signBit_eq, width]
  cases neg <;> simp [b2n] <;> omega

theorem pack_div : f.pack neg e m / 2 ^ (f.width - 1) = b2n neg := by
  have fields := fields_lt he hm
  rw [Fmt.pack, signBit_eq, Fmt.width, show 1 + f.e + f.m - 1 = f.e + f.m by omega, Nat.add_assoc,
    Nat.add_comm, Nat.add_mul_div_right _ _ (Nat.two_pow_pos _), Nat.div_eq_of_lt fields, Nat.zero_add]

theorem bitN_pack_sign : bitN (f.pack neg e m) (f.e + f.m) = neg := by
  have div := pack_div (neg := neg) he hm
  rw [Fmt.width, show 1 + f.e + f.m - 1 = f.e + f.m by omega] at div
  rw [bitN, Nat.testBit_eq_decide_div_mod_eq, div]
  cases neg <;> simp [b2n]

omit he in
theorem fieldN_pack_mantissa : fieldN (f.pack neg e m) 0 f.m = m := by
  rw [fieldN, Nat.shiftRight_zero, Fmt.pack, signBit_eq, Nat.pow_add, ← mul_assoc, ← Nat.add_mul, Nat.mul_add_mod_of_lt hm]

theorem fieldN_pack_exponent : fieldN (f.pack neg e m) f.m f.e = e := by
  rw [fieldN, Nat.shiftRight_eq_div_pow, Fmt.pack, signBit_eq, Nat.pow_add, ← mul_assoc, ← Nat.add_mul, Nat.add_comm,
    Nat.add_mul_div_right _ _ (Nat.two_pow_pos _), Nat.div_eq_of_lt hm, Nat.zero_add, Nat.mul_add_mod_of_lt he]

theorem decodeF_pack : decodeF f (f.pack neg e m) =
    if e = 2 ^ f.e - 1 then (if m = 0 then .inf neg else .nan (!bitN m (f.m - 1)))
    else if e = 0 then .fin neg m (f.emin - f.m) else .fin neg (2 ^ f.m + m) ((e : Int) - f.bias - f.m) := by
  simp only [decodeF, bitN_pack_sign he hm, fieldN_pack_mantissa hm, fieldN_pack_exponent he hm]

/-- Flipping the sign bit changes the sign alone. -/
theorem pack_flip : f.pack neg e m ^^^ 2 ^ (f.width - 1) = f.pack (!neg) e m := by
  have up : f.pack false e m ^^^ 2 ^ (f.e + f.m) = f.pack true e m := by
    simpa [Fmt.pack, Fmt.signBit, Nat.add_assoc] using xor_two_pow_of_lt (fields_lt he hm)
  rw [Fmt.width, show 1 + f.e + f.m - 1 = f.e + f.m by omega]
  cases neg
  · exact up
  · rw [← up, Nat.xor_assoc, Nat.xor_self, Nat.xor_zero, Bool.not_true]
end

theorem exists_pack {f : Fmt} {x : Nat} (h : x < 2 ^ f.width) : ∃ neg e m, e < 2 ^ f.e ∧ m < 2 ^ f.m ∧ x = f.pack neg e m := by
  have pos := Nat.two_pow_pos f.m
  refine ⟨decide (x / 2 ^ (f.e + f.m) = 1), x % 2 ^ (f.e + f.m) / 2 ^ f.m, x % 2 ^ f.m, ?_, Nat.mod_lt _ pos, ?_⟩
  · rw [Nat.div_lt_iff_lt_mul pos, ← Nat.pow_add]
    exact Nat.mod_lt _ (Nat.two_pow_pos _)
  · have top : x / 2 ^ (f.e + f.m) < 2 := by
      rw [Nat.div_lt_iff_lt_mul (Nat.two_pow_pos _), ← Nat.pow_succ']
      rwa [Fmt.width, show 1 + f.e + f.m = f.e + f.m + 1 by omega] at h
    have sign : f.signBit (decide (x / 2 ^ (f.e + f.m) = 1)) = x / 2 ^ (f.e + f.m) * 2 ^ (f.e + f.m) := by
      rw [signBit_eq]
      obtain off | on : x / 2 ^ (f.e + f.m) = 0 ∨ x / 2 ^ (f.e + f.m) = 1 :=
        Nat.le_one_iff_eq_zero_or_eq_one.mp (Nat.le_of_lt_succ top)
      · simp [off, b2n]
      · simp [on, b2n]
    have low : x % 2 ^ (f.e + f.m) % 2 ^ f.m = x % 2 ^ f.m := by
      rw [Nat.pow_add, Nat.mod_mul_left_mod]
    rw [Fmt.pack, sign, Nat.add_assoc, ← low, Nat.div_add_mod', Nat.div_add_mod']

/-! ### Finite numbers -/

theorem pow2_cast {K : Type} [DivisionRing K] {k : Int} (h : 0 ≤ k) : ((pow2 k : ℕ) : K) = (2 : K) ^ k := by
  lift k to ℕ using h
  simp [pow2]

/-- What the vector core's formats have in common: a mantissa, room for every significand as an integer, and a range that
a scaling by 2^5000 leaves. -/
structure Fmt.Regular (f : Fmt) : Prop where
  mantissa : 1 ≤ f.m
  integers : f.m + 1 ≤ f.bias
  scale : 2 * f.bias + f.m + 4 ≤ 5000

theorem regular_of_vectorFmt {f : Fmt} (h : vectorFmt f) : f.Regular := by
  obtain rfl | rfl | rfl | rfl := h <;> constructor <;> decide

theorem Fmt.Regular.exponents {f : Fmt} (h : f.Regular) : 2 ^ f.e = 2 * f.bias + 2 := by
  have two := h.integers
  have one := h.mantissa
  unfold Fmt.bias at *
  cases he : f.e with
  | zero => simp [he] at two
  | succ e =>
    have := Nat.two_pow_pos e
    simp only [he, Nat.add_sub_cancel] at *
    rw [Nat.pow_succ]
    omega

theorem Fmt.Regular.emin_add_one_lt_emax {f : Fmt} (h : f.Regular) : f.emin + 1 < f.emax := by
  have := h.integers
  have := h.mantissa
  unfold Fmt.emin Fmt.emax
  omega

theorem ratOf_fin (n : Bool) (m : Nat) (e : Int) : ratOf (.fin n m e) = (if n then -1 else 1) * m * (2 : ℚ) ^ e := rfl

theorem ratOf_fin_cast (n : Bool) (m : Nat) (e : Int) : ((ratOf (.fin n m e) : ℚ) : ℝ) = (if n then -1 else 1) * m * (2 : ℝ) ^ e := by
  cases n <;> simp [ratOf_fin]

theorem abs_ratOf_fin (n : Bool) (m : Nat) (e : Int) : |ratOf (.fin n m e)| = m * (2 : ℚ) ^ e := by
  have pos : (0 : ℚ) ≤ m * (2 : ℚ) ^ e := by positivity
  rw [ratOf_fin]
  cases n <;> simp [abs_of_nonneg pos]

theorem abs_ratOf_fin_cast (n : Bool) (m : Nat) (e : Int) : |((ratOf (.fin n m e) : ℚ) : ℝ)| = m * (2 : ℝ) ^ e := by
  rw [← Rat.cast_abs, abs_ratOf_fin]
  push_cast
  rfl

/-- The significand and the exponent of a code that is a finite number (R122). -/
theorem decodeF_finite {f : Fmt} {neg : Bool} {e m : Nat} (he : e < 2 ^ f.e - 1) (hm : m < 2 ^ f.m) : decodeF f (f.pack neg e m) =
    .fin neg (if e = 0 then m else 2 ^ f.m + m) ((max e 1 : Nat) - (f.bias : Int) - f.m) := by
  rw [decodeF_pack (by omega) hm, if_neg (by omega)]
  split
  · simp [*, Fmt.emin]
  · rw [max_eq_left (by omega)]

/-- The fields of a code that is a finite number. -/
theorem fields_of_finite {f : Fmt} {x : Nat} (hx : x < 2 ^ f.width) {n : Bool} {s : Nat} {p : Int} (h : decodeF f x = .fin n s p) :
    ∃ e m, e < 2 ^ f.e - 1 ∧ m < 2 ^ f.m ∧ x = f.pack n e m ∧ s = (if e = 0 then m else 2 ^ f.m + m) ∧
      p = (max e 1 : Nat) - (f.bias : Int) - f.m := by
  obtain ⟨neg, e, m, he, hm, rfl⟩ := exists_pack hx
  have below : e < 2 ^ f.e - 1 := by
    by_contra top
    rw [decodeF_pack he hm, if_pos (by omega)] at h
    split at h <;> exact nomatch h
  rw [decodeF_finite below hm] at h
  obtain ⟨rfl, rfl, rfl⟩ := FVal.fin.inj h
  exact ⟨e, m, below, hm, rfl, rfl, rfl⟩

theorem isNumber_iff {f : Fmt} {c : Nat} {r : ℚ} : IsNumber f c r ↔ ∃ neg e m, e < 2 ^ f.e - 1 ∧ m < 2 ^ f.m ∧ c = f.pack neg e m ∧
    r = ratOf (.fin neg (if e = 0 then m else 2 ^ f.m + m) ((max e 1 : Nat) - (f.bias : Int) - f.m)) := by
  constructor
  · rintro ⟨lt, fin, rfl⟩
    match h : decodeF f c with
    | .fin n s p =>
      obtain ⟨e, m, he, hm, rfl, rfl, rfl⟩ := fields_of_finite lt h
      exact ⟨n, e, m, he, hm, rfl, rfl⟩
    | .nan _ | .inf _ => rw [h] at fin; exact nomatch fin
  · rintro ⟨neg, e, m, he, hm, rfl, rfl⟩
    have value := decodeF_finite (neg := neg) he hm
    exact ⟨pack_lt (by omega) hm, by rw [value]; rfl, by rw [value]⟩

/-- A number of a format is a multiple of a unit of its range, or lies below every significand of that unit. -/
theorem number_on_grid {f : Fmt} {c : Nat} {r : ℚ} (h : IsNumber f c r) (q : Int) :
    (∃ k : ℕ, |(r : ℝ)| = k * (2 : ℝ) ^ q) ∨ (f.emin - f.m < q ∧ |(r : ℝ)| < (2 : ℝ) ^ (f.m : ℕ) * 2 ^ q) := by
  obtain ⟨neg, e, m, he, hm, rfl, rfl⟩ := isNumber_iff.mp h
  generalize hs : (if e = 0 then m else 2 ^ f.m + m) = sig
  generalize hx : ((max e 1 : Nat) - (f.bias : Int) - f.m) = x
  rw [abs_ratOf_fin_cast]
  by_cases fine : q ≤ x
  · refine .inl ⟨sig * 2 ^ (x - q).toNat, ?_⟩
    have split : (2 : ℝ) ^ x = 2 ^ (x - q).toNat * 2 ^ q := by
      rw [← zpow_natCast, ← zpow_add₀ (by norm_num)]
      congr 1
      omega
    rw [split]
    push_cast
    ring
  · have coarse : x + 1 ≤ q := by omega
    have small : (sig : ℝ) < 2 ^ (f.m + 1) := by
      have : sig < 2 ^ (f.m + 1) := by
        rw [Nat.pow_succ, ← hs]
        split <;> omega
      exact_mod_cast this
    refine .inr ⟨?_, ?_⟩
    · unfold Fmt.emin
      omega
    · calc (sig : ℝ) * 2 ^ x < 2 ^ (f.m + 1) * 2 ^ x := by
            exact mul_lt_mul_of_pos_right small (by positivity)
        _ = 2 ^ f.m * 2 ^ (x + 1) := by rw [zpow_add₀ (by norm_num), zpow_one]; ring
        _ ≤ 2 ^ f.m * 2 ^ q := by gcongr; norm_num

/-- The code of a significand of a unit of the range (R121). -/
theorem encode_significand {f : Fmt} (h : f.Regular) {j : Nat} {q : Int} (hq : f.emin - f.m ≤ q) (hj : j ≤ 2 ^ (f.m + 1))
    (low : j < 2 ^ f.m → q = f.emin - f.m) (fits : (normSig f j q).2 + f.m ≤ f.emax) (neg : Bool) :
    ∃ e m, e < 2 ^ f.e - 1 ∧ m < 2 ^ f.m ∧
      f.signBit neg + (if (normSig f j q).1 < 2 ^ f.m then (normSig f j q).1
        else ((normSig f j q).2 + f.m + f.bias).toNat * 2 ^ f.m + ((normSig f j q).1 - 2 ^ f.m)) = f.pack neg e m ∧
      m % 2 = j % 2 ∧ ((if e = 0 then m else 2 ^ f.m + m : ℕ) : ℝ) * (2 : ℝ) ^ ((max e 1 : Nat) - (f.bias : Int) - f.m) = j * 2 ^ q := by
  have exps := h.exponents
  have one := h.mantissa
  have bias := h.integers
  have pos := Nat.two_pow_pos f.m
  have even : 2 ^ f.m % 2 = 0 := by
    obtain ⟨k, hk⟩ := Nat.exists_eq_add_of_le one
    rw [hk, Nat.pow_add]
    omega
  rw [Nat.pow_succ] at hj
  unfold Fmt.emin at hq low
  unfold Fmt.emax at fits
  unfold Fmt.pack
  by_cases top : 2 ^ (f.m + 1) ≤ j
  · have jtop : j = 2 ^ f.m * 2 := by rw [Nat.pow_succ] at top; omega
    have norm : normSig f j q = (2 ^ f.m, q + 1) := by rw [normSig, if_pos top, jtop, Nat.mul_div_cancel _ Nat.two_pos]
    rw [norm] at fits ⊢
    dsimp only at fits ⊢
    refine ⟨(q + 1 + f.m + f.bias).toNat, 0, by omega, pos, by simp, by omega, ?_⟩
    rw [if_neg (by omega), max_eq_left (by omega), show (((q + 1 + f.m + f.bias).toNat : Int) - f.bias - f.m) = q + 1 by omega, jtop,
      zpow_add₀ (by norm_num)]
    push_cast
    ring
  · have norm : normSig f j q = (j, q) := by rw [normSig, if_neg top]
    rw [norm] at fits ⊢
    rw [Nat.pow_succ] at top
    dsimp only at fits ⊢
    by_cases sub : j < 2 ^ f.m
    · refine ⟨0, j, by omega, sub, by simp [sub], rfl, ?_⟩
      rw [if_pos rfl, low sub]
      simp
    · refine ⟨(q + f.m + f.bias).toNat, j - 2 ^ f.m, by omega, by omega, by rw [if_neg sub, Nat.add_assoc], by omega, ?_⟩
      rw [if_neg (by omega), max_eq_left (by omega), show (((q + f.m + f.bias).toNat : Int) - f.bias - f.m) = q by omega,
        Nat.add_sub_cancel' (by omega)]

theorem pack_mod_two {f : Fmt} (h : f.Regular) (neg : Bool) (e m : Nat) : f.pack neg e m % 2 = m % 2 := by
  obtain ⟨k, hk⟩ := Nat.exists_eq_add_of_le' h.mantissa
  have whole : f.pack neg e m = 2 * (b2n neg * 2 ^ (f.e + k) + e * 2 ^ k) + m := by
    rw [Fmt.pack, signBit_eq, hk]
    ring
  omega

/-- The code that rounding makes of a significand of a unit is the number that it stands for. -/
theorem isNumber_encode {f : Fmt} (h : f.Regular) (neg : Bool) {j : Nat} {q : Int} (hq : f.emin - f.m ≤ q) (hj : j ≤ 2 ^ (f.m + 1))
    (low : j < 2 ^ f.m → q = f.emin - f.m) (fits : (normSig f j q).2 + f.m ≤ f.emax) {c : Nat}
    (hc : c = f.signBit neg + (if (normSig f j q).1 < 2 ^ f.m then (normSig f j q).1
      else ((normSig f j q).2 + f.m + f.bias).toNat * 2 ^ f.m + ((normSig f j q).1 - 2 ^ f.m))) :
    ∃ r : ℚ, IsNumber f c r ∧ c / 2 ^ (f.width - 1) = b2n neg ∧ c % 2 = j % 2 ∧ (r : ℝ) = (if neg then -1 else 1) * j * 2 ^ q := by
  obtain ⟨e, m, he, hm, code, parity, value⟩ := encode_significand h hq hj low fits neg
  rw [← hc] at code
  refine ⟨_, isNumber_iff.mpr ⟨neg, e, m, he, hm, code, rfl⟩, ?_, ?_, ?_⟩
  · rw [code, pack_div (by omega) hm]
  · rw [code, pack_mod_two h, parity]
  · rw [ratOf_fin_cast, mul_assoc, mul_assoc, ← value]

end Sys2Proof.Machine
end

section
/-! SUPPORT. Rounding of a magnitude to an integer, in each mode, and the magnitudes that round alike (R83). -/

namespace Sys2Proof.Machine

open Sys2Proof.Safety

/-! ### Rounding to an integer (R83) -/

/-- `j` is a magnitude `t` rounded to an integer in a mode: to nearest, ties to even; away from zero; or toward it. -/
def RoundsInt (rm : Nat) (neg : Bool) (t : ℝ) (j : ℕ) : Prop :=
  (rm = 0 → |t - j| ≤ 1 / 2 ∧ (|t - j| = 1 / 2 → j % 2 = 0)) ∧ (roundsAway rm neg → t ≤ j ∧ (j : ℝ) < t + 1) ∧
    (rm ≠ 0 → ¬ roundsAway rm neg → (j : ℝ) ≤ t ∧ t < j + 1)

theorem roundsAway_ne_zero {rm : Nat} {neg : Bool} (h : roundsAway rm neg) : rm ≠ 0 := by
  rintro rfl
  simp [roundsAway] at h

theorem roundsInt_nat (rm : Nat) (neg : Bool) (j : ℕ) : RoundsInt rm neg j j := by
  refine ⟨fun _ => ?_, fun _ => ?_, fun _ _ => ?_⟩ <;> norm_num

section
variable {rm : Nat} {neg : Bool} {t : ℝ} {j : ℕ} (h : RoundsInt rm neg t j)
include h

/-- Rounding passes no integer. -/
theorem le_roundsInt {n : ℕ} (hn : (n : ℝ) ≤ t) : n ≤ j := by
  have close : t < j + 1 := by
    by_cases near : rm = 0
    · have := abs_le.mp (h.1 near).1
      linarith
    · by_cases away : roundsAway rm neg
      · have := (h.2.1 away).1
        linarith
      · exact (h.2.2 near away).2
  have : (n : ℝ) < (j + 1 : ℕ) := by push_cast; linarith
  exact Nat.le_of_lt_succ (by exact_mod_cast this)

theorem roundsInt_le {n : ℕ} (hn : t ≤ n) : j ≤ n := by
  have close : (j : ℝ) < t + 1 := by
    by_cases near : rm = 0
    · have := abs_le.mp (h.1 near).1
      linarith
    · by_cases away : roundsAway rm neg
      · exact (h.2.1 away).2
      · have := (h.2.2 near away).1
        linarith
  have : (j : ℝ) < (n + 1 : ℕ) := by push_cast; linarith
  exact Nat.le_of_lt_succ (by exact_mod_cast this)

/-- When rounding reaches an even integer from below. -/
theorem roundsInt_reaches {n : ℕ} (even : n % 2 = 0) (below : t < n) :
    n ≤ j ↔ (rm = 0 ∧ (n : ℝ) - 1 / 2 ≤ t) ∨ (roundsAway rm neg ∧ (n : ℝ) - 1 < t) := by
  have cap : j ≤ n := roundsInt_le h below.le
  constructor
  · intro reached
    obtain rfl : j = n := le_antisymm cap reached
    by_cases near : rm = 0
    · have := abs_le.mp (h.1 near).1
      exact .inl ⟨near, by linarith⟩
    · by_cases away : roundsAway rm neg
      · have := (h.2.1 away).2
        exact .inr ⟨away, by linarith⟩
      · have := (h.2.2 near away).1
        linarith
  · intro reached
    by_contra short
    have step : (j : ℝ) + 1 ≤ n := by exact_mod_cast Nat.lt_of_not_le short
    obtain ⟨near, half⟩ | ⟨away, above⟩ := reached
    · obtain ⟨close, tie⟩ := h.1 near
      have := abs_le.mp close
      have half' : t - j = 1 / 2 := by linarith
      have next : (j : ℝ) + 1 = n := by linarith
      have jn : j + 1 = n := by exact_mod_cast next
      have := tie (by rw [half', abs_of_pos (by norm_num)])
      omega
    · have := (h.2.1 away).1
      linarith
end

theorem roundsUp_directed {rm : Nat} (h : rm ≠ 0) (neg : Bool) (sig rem d : ℕ) :
    roundsUp rm neg sig rem d = true ↔ roundsAway rm neg ∧ 0 < rem := by
  by_cases up : rm = 2
  · simp [roundsUp, roundsAway, up]
  · by_cases down : rm = 3
    · simp [roundsUp, roundsAway, down]
    · simp [roundsUp, roundsAway, h, up, down]

/-- The choice between the two integers beside a magnitude, from its remainder. -/
theorem roundsInt_of_remainder (rm : Nat) (neg : Bool) {sig rem d : ℕ} {t : ℝ} (low : (sig : ℝ) ≤ t) (high : t < sig + 1)
    (whole : t ≤ sig ↔ rem = 0) (half : t ≤ sig + 1 / 2 ↔ 2 * rem ≤ d) (half' : (sig : ℝ) + 1 / 2 ≤ t ↔ d ≤ 2 * rem) :
    RoundsInt rm neg t (if roundsUp rm neg sig rem d then sig + 1 else sig) := by
  by_cases near : rm = 0
  · subst near
    refine ⟨fun _ => ?_, fun away => absurd rfl (roundsAway_ne_zero away), fun h => absurd rfl h⟩
    simp only [roundsUp, if_true, Bool.or_eq_true, Bool.and_eq_true, decide_eq_true_eq, beq_iff_eq]
    obtain below | tie | above := lt_trichotomy (2 * rem) d
    · have : t < sig + 1 / 2 := lt_of_not_ge (half'.not.mpr (by omega))
      rw [if_neg (by omega), abs_of_nonneg (by linarith)]
      exact ⟨by linarith, fun eq => by linarith⟩
    · have : t = sig + 1 / 2 := le_antisymm (half.mpr tie.le) (half'.mpr tie.ge)
      split
      · rw [this, Nat.cast_add, Nat.cast_one, show (sig : ℝ) + 1 / 2 - (sig + 1) = -(1 / 2) by ring, abs_neg, abs_of_pos (by norm_num)]
        exact ⟨le_rfl, fun _ => by omega⟩
      · rw [this, show (sig : ℝ) + 1 / 2 - sig = 1 / 2 by ring, abs_of_pos (by norm_num)]
        exact ⟨le_rfl, fun _ => by omega⟩
    · have : (sig : ℝ) + 1 / 2 < t := lt_of_not_ge (half.not.mpr (by omega))
      rw [if_pos (.inl above), Nat.cast_add, Nat.cast_one, abs_of_neg (by linarith)]
      exact ⟨by linarith, fun eq => by linarith⟩
  · simp only [roundsUp_directed near]
    refine ⟨fun h => absurd h near, fun away => ?_, fun _ toward => ?_⟩
    · by_cases rest : 0 < rem
      · have : (sig : ℝ) < t := lt_of_not_ge (whole.not.mpr rest.ne')
        rw [if_pos ⟨away, rest⟩, Nat.cast_add, Nat.cast_one]
        exact ⟨high.le, by linarith⟩
      · rw [if_neg fun h => rest h.2]
        exact ⟨whole.mpr (Nat.eq_zero_of_not_pos rest), by linarith⟩
    · rw [if_neg fun h => toward h.1]
      exact ⟨low, high⟩

/-! ### Magnitudes that round alike -/

/-- Two magnitudes lie alike among the multiples of 2^u. -/
def SameCell (u : Int) (x y : ℝ) : Prop :=
  ∀ k : ℕ, (k * (2 : ℝ) ^ u ≤ x ↔ k * (2 : ℝ) ^ u ≤ y) ∧ (x ≤ k * (2 : ℝ) ^ u ↔ y ≤ k * (2 : ℝ) ^ u)

theorem sameCell_refl (u : Int) (x : ℝ) : SameCell u x x := fun _ => ⟨Iff.rfl, Iff.rfl⟩

theorem zpow_split {u q : Int} (h : u ≤ q) : (2 : ℝ) ^ q = ((2 ^ (q - u).toNat : ℕ) : ℝ) * 2 ^ u := by
  rw [Nat.cast_pow, Nat.cast_ofNat, ← zpow_natCast, ← zpow_add₀ (by norm_num)]
  congr 1
  omega

theorem SameCell.mono {u q : Int} {x y : ℝ} (h : SameCell u x y) (le : u ≤ q) : SameCell q x y := by
  intro k
  rw [zpow_split le, ← mul_assoc, ← Nat.cast_mul]
  exact h _

/-- A magnitude that lies alike with a multiple is that multiple. -/
theorem SameCell.eq_of_multiple {u : Int} {x y : ℝ} (h : SameCell u x y) {k : ℕ} (hy : y = k * (2 : ℝ) ^ u) : x = y := by
  obtain ⟨above, below⟩ := h k
  rw [← hy] at above below
  exact le_antisymm (below.mpr le_rfl) (above.mpr le_rfl)

/-- A magnitude of the cell of mag·2^exp, in units of 2^q, lies among the halves as mag / 2^(q - exp) does. -/
theorem SameCell.halves {mag : ℕ} {exp q u : Int} {x : ℝ} (h : SameCell u x (mag * (2 : ℝ) ^ exp)) (hu : u + 1 ≤ q)
    (coarse : exp ≤ q) (k : ℕ) :
    ((k : ℝ) / 2 ≤ x / 2 ^ q ↔ k * pow2 (q - exp) ≤ 2 * mag) ∧ (x / 2 ^ q ≤ (k : ℝ) / 2 ↔ 2 * mag ≤ k * pow2 (q - exp)) := by
  have pos : (0 : ℝ) < 2 ^ q := by positivity
  have unit : (2 : ℝ) ^ q = pow2 (q - exp) * 2 ^ exp := by rw [zpow_split coarse, pow2]
  generalize pow2 (q - exp) = d at unit ⊢
  have half : (2 : ℝ) ^ (q - 1) = 2 ^ q / 2 := by rw [zpow_sub_one₀ (by norm_num)]; ring
  have unit' : (0 : ℝ) < 2 ^ exp / 2 := by positivity
  obtain ⟨above, below⟩ := h.mono (by omega : u ≤ q - 1) k
  have left : (k : ℝ) * 2 ^ (q - 1) = ((k * d : ℕ) : ℝ) * (2 ^ exp / 2) := by rw [half, unit]; push_cast; ring
  have right : (mag : ℝ) * 2 ^ exp = ((2 * mag : ℕ) : ℝ) * (2 ^ exp / 2) := by push_cast; ring
  rw [right, left, mul_le_mul_iff_of_pos_right unit', Nat.cast_le, ← left, half] at above below
  rw [le_div_iff₀ pos, div_le_iff₀ pos, ← above, ← below]
  constructor <;> rw [mul_div_assoc', div_mul_eq_mul_div]

/-- A number that lies among the halves as (sig·d + rem) / d does is rounded by that quotient's remainder. -/
theorem rounds_of_halves (rm : Nat) (neg : Bool) {sig rem d mag : ℕ} {t : ℝ} (parts : d * sig + rem = mag) (less : rem < d)
    (halves : ∀ k : ℕ, ((k : ℝ) / 2 ≤ t ↔ k * d ≤ 2 * mag) ∧ (t ≤ (k : ℝ) / 2 ↔ 2 * mag ≤ k * d)) :
    RoundsInt rm neg t (if roundsUp rm neg sig rem d then sig + 1 else sig) ∧ (sig : ℝ) ≤ t ∧ t < sig + 1 ∧ (t ≤ sig ↔ rem = 0) := by
  subst parts
  have low : (sig : ℝ) ≤ t := by
    have := (halves (2 * sig)).1.mpr (by nlinarith)
    push_cast at this
    linarith
  have high : t < sig + 1 := by
    have := (halves (2 * sig + 2)).1.not.mpr (by nlinarith)
    push_cast at this
    linarith
  have whole : t ≤ sig ↔ rem = 0 := by
    have := (halves (2 * sig)).2
    rw [Nat.cast_mul, Nat.cast_ofNat, mul_div_cancel_left₀ _ two_ne_zero] at this
    rw [this]
    constructor <;> intro <;> nlinarith
  have mid : (((2 * sig + 1 : ℕ) : ℝ)) / 2 = sig + 1 / 2 := by push_cast; ring
  have half : t ≤ sig + 1 / 2 ↔ 2 * rem ≤ d := by
    rw [← mid, (halves (2 * sig + 1)).2]
    constructor <;> intro <;> nlinarith
  have half' : (sig : ℝ) + 1 / 2 ≤ t ↔ d ≤ 2 * rem := by
    rw [← mid, (halves (2 * sig + 1)).1]
    constructor <;> intro <;> nlinarith
  exact ⟨roundsInt_of_remainder rm neg low high whole half half', low, high, whole⟩

/-- A number is the integer that it is rounded to exactly when it is one. -/
theorem RoundsInt.eq_iff {rm : Nat} {neg : Bool} {sig j : ℕ} {t : ℝ} (h : RoundsInt rm neg t j) (low : (sig : ℝ) ≤ t) (high : t < sig + 1) :
    t = j ↔ t ≤ sig := by
  constructor
  · rintro rfl
    have : j < sig + 1 := by exact_mod_cast high
    exact_mod_cast Nat.le_of_lt_succ this
  · intro le
    obtain rfl := le_antisymm le low
    rw [le_antisymm (roundsInt_le h le_rfl) (le_roundsInt h le_rfl)]

/-- A magnitude is rounded to a multiple of 2^q, whatever other magnitude of its cell stands for it. -/
theorem roundAt_spec (rm : Nat) (neg : Bool) {mag : ℕ} {exp q u : Int} {x : ℝ} (h : SameCell u x (mag * (2 : ℝ) ^ exp)) (hu : u + 1 ≤ q) :
    RoundsInt rm neg (x / 2 ^ q) (roundAt rm neg mag exp q).1 ∧
      ((roundAt rm neg mag exp q).2 = true ↔ x ≠ (roundAt rm neg mag exp q).1 * (2 : ℝ) ^ q) := by
  have pos : (0 : ℝ) < 2 ^ q := by positivity
  by_cases fine : q ≤ exp
  · have value : mag * (2 : ℝ) ^ exp = ((mag * pow2 (exp - q) : ℕ) : ℝ) * 2 ^ q := by
      rw [zpow_split fine, pow2]
      push_cast
      ring
    have same : x = ((mag * pow2 (exp - q) : ℕ) : ℝ) * 2 ^ q :=
      ((h.mono (by omega : u ≤ q)).eq_of_multiple value).trans value
    rw [roundAt, if_pos fine, same, mul_div_cancel_right₀ _ pos.ne']
    exact ⟨roundsInt_nat rm neg _, by simp⟩
  · obtain ⟨rounds, low, high, whole⟩ := rounds_of_halves rm neg (Nat.div_add_mod mag (pow2 (q - exp)))
      (Nat.mod_lt mag (Nat.two_pow_pos _)) (h.halves hu (by omega))
    rw [roundAt, if_neg fine]
    refine ⟨rounds, ?_⟩
    rw [decide_eq_true_eq, ne_eq, ne_eq, ← whole, not_iff_not, ← div_eq_iff pos.ne', rounds.eq_iff low high]

end Sys2Proof.Machine
end

section
/-! SUPPORT. The limits at which a rounding overflows or is tiny (R97). -/

namespace Sys2Proof.Machine

open Sys2Proof.Safety

/-! ### Overflow and tininess, as limits of a magnitude (R97) -/

theorem leadExp_bounds {mag : ℕ} (h : mag ≠ 0) (exp : Int) :
    (2 : ℝ) ^ leadExp mag exp ≤ mag * (2 : ℝ) ^ exp ∧ mag * (2 : ℝ) ^ exp < 2 ^ (leadExp mag exp + 1) := by
  have low : ((2 ^ mag.log2 : ℕ) : ℝ) ≤ mag := by exact_mod_cast Nat.log2_self_le h
  have high : (mag : ℝ) < ((2 ^ (mag.log2 + 1) : ℕ) : ℝ) := by exact_mod_cast Nat.lt_log2_self
  push_cast at low high
  unfold leadExp
  constructor
  · rw [zpow_add₀ (by norm_num), zpow_natCast]
    gcongr
  · rw [show ((mag.log2 : ℤ) + exp + 1) = ((mag.log2 + 1 : ℕ) : ℤ) + exp by push_cast; ring, zpow_add₀ (by norm_num), zpow_natCast]
    gcongr

/-- The limits of R97 below the even integer 2^(m+1) of units 2^q, for a magnitude of 2^(m+1) units and more below it. -/
theorem limit_half (m : ℕ) (p : Int) (x : ℝ) :
    (2 : ℝ) ^ (p + 1) * (1 - 2 ^ (-(m : Int) - 2)) ≤ x ↔ ((2 ^ (m + 1) : ℕ) : ℝ) - 1 / 2 ≤ x / 2 ^ (p - m) := by
  rw [le_div_iff₀ (by positivity)]
  have : (2 : ℝ) ^ (p + 1) * (1 - 2 ^ (-(m : Int) - 2)) = (((2 ^ (m + 1) : ℕ) : ℝ) - 1 / 2) * 2 ^ (p - m) := by
    rw [zpow_add₀ two_ne_zero, zpow_sub₀ two_ne_zero, zpow_sub₀ two_ne_zero, zpow_neg, zpow_natCast]
    push_cast
    field_simp
    ring
  rw [this]

theorem limit_one (m : ℕ) (p : Int) (x : ℝ) :
    (2 : ℝ) ^ (p + 1) * (1 - 2 ^ (-(m : Int) - 1)) < x ↔ ((2 ^ (m + 1) : ℕ) : ℝ) - 1 < x / 2 ^ (p - m) := by
  rw [lt_div_iff₀ (by positivity)]
  have : (2 : ℝ) ^ (p + 1) * (1 - 2 ^ (-(m : Int) - 1)) = (((2 ^ (m + 1) : ℕ) : ℝ) - 1) * 2 ^ (p - m) := by
    rw [zpow_add₀ two_ne_zero, zpow_sub₀ two_ne_zero, zpow_sub₀ two_ne_zero, zpow_neg, zpow_natCast]
    push_cast
    field_simp
    ring
  rw [this]

/-- Rounding carries a magnitude of the binade 2^p to the next one. -/
theorem carries_iff {rm : Nat} {neg : Bool} {m : ℕ} {p : Int} {x : ℝ} {j : ℕ} (high : x < 2 ^ (p + 1))
    (h : RoundsInt rm neg (x / 2 ^ (p - m)) j) : 2 ^ (m + 1) ≤ j ↔
      (rm = 0 ∧ (2 : ℝ) ^ (p + 1) * (1 - 2 ^ (-(m : Int) - 2)) ≤ x) ∨
        (roundsAway rm neg ∧ (2 : ℝ) ^ (p + 1) * (1 - 2 ^ (-(m : Int) - 1)) < x) := by
  have below : x / 2 ^ (p - m) < ((2 ^ (m + 1) : ℕ) : ℝ) := by
    rw [div_lt_iff₀ (by positivity)]
    refine high.trans_eq ?_
    rw [Nat.cast_pow, Nat.cast_ofNat, ← zpow_natCast, ← zpow_add₀ two_ne_zero]
    congr 1
    push_cast
    ring
  rw [roundsInt_reaches h (by rw [Nat.pow_succ]; omega) below, limit_half, limit_one]

/-- A magnitude overflows when rounding carries it past the last binade (R97). -/
theorem overflows_iff {f : Fmt} {rm : Nat} {neg : Bool} {x : ℝ} : Overflows f rm neg x ↔
    (rm = 0 ∧ (2 : ℝ) ^ (f.emax + 1) * (1 - 2 ^ (-(f.m : Int) - 2)) ≤ x) ∨
    (roundsAway rm neg ∧ (2 : ℝ) ^ (f.emax + 1) * (1 - 2 ^ (-(f.m : Int) - 1)) < x) ∨
    (rm ≠ 0 ∧ ¬ roundsAway rm neg ∧ (2 : ℝ) ^ (f.emax + 1) ≤ x) := by
  have half : (2 : ℝ) ^ f.emax * (2 - 2 ^ (-(f.m : Int) - 1)) = 2 ^ (f.emax + 1) * (1 - 2 ^ (-(f.m : Int) - 2)) := by
    rw [zpow_add₀ two_ne_zero, zpow_sub₀ two_ne_zero, zpow_sub₀ two_ne_zero]
    ring
  have one : (2 : ℝ) ^ f.emax * (2 - 2 ^ (-(f.m : Int))) = 2 ^ (f.emax + 1) * (1 - 2 ^ (-(f.m : Int) - 1)) := by
    rw [zpow_add₀ two_ne_zero, zpow_sub₀ two_ne_zero]
    ring
  rw [Overflows, half, one, zpow_add₀ two_ne_zero, zpow_one]

/-- The limits lie in the last binade. -/
theorem limits_ge (m : ℕ) (p : Int) :
    (2 : ℝ) ^ p ≤ 2 ^ (p + 1) * (1 - 2 ^ (-(m : Int) - 2)) ∧ (2 : ℝ) ^ p ≤ 2 ^ (p + 1) * (1 - 2 ^ (-(m : Int) - 1)) := by
  have small (k : Int) (h : k ≤ -1) : (2 : ℝ) ^ k ≤ 1 / 2 := by
    have := zpow_le_zpow_right₀ (by norm_num : (1 : ℝ) ≤ 2) h
    norm_num at this ⊢
    exact this
  have pos : (0 : ℝ) < 2 ^ p := by positivity
  rw [zpow_add₀ two_ne_zero, zpow_one]
  constructor
  · nlinarith [small (-(m : Int) - 2) (by omega)]
  · nlinarith [small (-(m : Int) - 1) (by omega)]

theorem not_overflows_of_lt {f : Fmt} {rm : Nat} {neg : Bool} {x : ℝ} (h : x < 2 ^ f.emax) : ¬ Overflows f rm neg x := by
  obtain ⟨half, one⟩ := limits_ge f.m f.emax
  have step : (2 : ℝ) ^ f.emax ≤ 2 ^ (f.emax + 1) := zpow_le_zpow_right₀ (by norm_num) (by omega)
  rw [overflows_iff]
  rintro (⟨-, h'⟩ | ⟨-, h'⟩ | ⟨-, -, h'⟩) <;> linarith

theorem overflows_of_ge {f : Fmt} {rm : Nat} {neg : Bool} {x : ℝ} (h : 2 ^ (f.emax + 1) ≤ x) : Overflows f rm neg x := by
  have lt (k : Int) : (2 : ℝ) ^ (f.emax + 1) * (1 - 2 ^ k) < 2 ^ (f.emax + 1) := by
    have : (0 : ℝ) < 2 ^ (f.emax + 1) * 2 ^ k := by positivity
    linarith
  rw [overflows_iff]
  by_cases near : rm = 0
  · exact .inl ⟨near, (lt _).le.trans h⟩
  · by_cases away : roundsAway rm neg
    · exact .inr (.inl ⟨away, (lt _).trans_le h⟩)
    · exact .inr (.inr ⟨near, away, h⟩)

theorem tiny_of_lt {f : Fmt} {rm : Nat} {neg : Bool} {x : ℝ} (h : x < 2 ^ (f.emin - 1)) : TinyRounded f rm neg x := by
  obtain ⟨half, one⟩ := limits_ge f.m (f.emin - 1)
  rw [Int.sub_add_cancel] at half one
  have step : (2 : ℝ) ^ (f.emin - 1) ≤ 2 ^ f.emin := zpow_le_zpow_right₀ (by norm_num) (by omega)
  by_cases near : rm = 0
  · exact .inl ⟨near, h.trans_le half⟩
  · by_cases away : roundsAway rm neg
    · exact .inr (.inl ⟨away, (h.trans_le one).le⟩)
    · exact .inr (.inr ⟨near, away, h.trans_le step⟩)

theorem not_tiny_of_ge {f : Fmt} {rm : Nat} {neg : Bool} {x : ℝ} (h : 2 ^ f.emin ≤ x) : ¬ TinyRounded f rm neg x := by
  have lt (k : Int) : (2 : ℝ) ^ f.emin * (1 - 2 ^ k) < 2 ^ f.emin := by
    have : (0 : ℝ) < 2 ^ f.emin * 2 ^ k := by positivity
    linarith
  rintro (⟨-, h'⟩ | ⟨-, h'⟩ | ⟨-, -, h'⟩)
  · linarith [lt (-(f.m : Int) - 2)]
  · linarith [lt (-(f.m : Int) - 1)]
  · linarith

/-- In the binade below the normal numbers, a magnitude is tiny unless rounding carries it out. -/
theorem tiny_iff_of_binade {f : Fmt} {rm : Nat} {neg : Bool} {x : ℝ} {j : ℕ} (high : x < 2 ^ f.emin)
    (h : RoundsInt rm neg (x / 2 ^ (f.emin - 1 - f.m)) j) : TinyRounded f rm neg x ↔ ¬ 2 ^ (f.m + 1) ≤ j := by
  have carries := carries_iff (p := f.emin - 1) (by rwa [Int.sub_add_cancel]) h
  rw [Int.sub_add_cancel] at carries
  rw [carries, TinyRounded]
  by_cases near : rm = 0
  · subst near
    simp [roundsAway]
  · by_cases away : roundsAway rm neg
    · simp [near, away]
    · simp [near, away, high]

end Sys2Proof.Machine
end

section
/-! SUPPORT. One rounding of an exact number to a format: the number taken, its code, and the flags (R83, R97). -/

namespace Sys2Proof.Machine

open Sys2Proof.Safety

/-! ### The rounded number is the best of its format (R83) -/

/-- Distances in units of 2^q. -/
theorem abs_sub_scaled (v : ℝ) (q : Int) (y : ℝ) : |(|v| - y * 2 ^ q)| = |(|v| / 2 ^ q - y)| * 2 ^ q := by
  have unit : (0 : ℝ) < 2 ^ q := by positivity
  rw [← abs_of_pos unit, ← abs_mul, abs_of_pos unit, sub_mul, div_mul_cancel₀ _ unit.ne']

section
variable {f : Fmt} {rm : Nat} {neg : Bool} {v : ℝ} {q : Int} {j : ℕ} {r : ℚ} (sign : neg = true ↔ v < 0)
  (hr : (r : ℝ) = (if neg then -1 else 1) * j * 2 ^ q)
include hr

theorem abs_rounded : |(r : ℝ)| = j * 2 ^ q := by
  have pos : (0 : ℝ) ≤ j * 2 ^ q := by positivity
  rw [hr]
  cases neg <;> simp [abs_of_nonneg pos]

include sign

/-- The rounded number lies on the side of zero on which the exact one does. -/
theorem sub_rounded : |v - r| = |(|v| - j * 2 ^ q)| ∧ |v + r| = |v| + j * 2 ^ q := by
  have pos : (0 : ℝ) ≤ j * 2 ^ q := by positivity
  rw [hr]
  cases neg
  · have : 0 ≤ v := not_lt.mp (by simpa using sign)
    rw [abs_of_nonneg this]
    simp [abs_of_nonneg (add_nonneg this pos)]
  · have : v < 0 := sign.mp rfl
    have minus : v - (if true then -1 else 1) * j * 2 ^ q = -(-v - j * 2 ^ q) := by rw [if_pos rfl]; ring
    have plus : v + (if true then -1 else 1) * j * 2 ^ q = -(-v + j * 2 ^ q) := by rw [if_pos rfl]; ring
    rw [minus, plus, abs_neg, abs_neg, abs_of_neg this, abs_of_pos (by linarith : 0 < -v + j * 2 ^ q)]
    exact ⟨rfl, rfl⟩

variable (h : RoundsInt rm neg (|v| / 2 ^ q) j) (normal : f.emin - f.m < q → ((2 ^ f.m : ℕ) : ℝ) * 2 ^ q ≤ |v|)
include h

/-- To nearest: no number of the grid is nearer, and of two equally near the even one is taken. -/
theorem nearest_on_grid (near : rm = 0) (nonzero : v ≠ 0) {r' : ℚ} {k : ℕ} (hk : |(r' : ℝ)| = k * (2 : ℝ) ^ q) :
    |v - r| ≤ |v - r'| ∧ (|v - r| = |v - r'| → r' ≠ r → j % 2 = 0) := by
  have unit : (0 : ℝ) < 2 ^ q := by positivity
  obtain ⟨close, tie⟩ := h.1 near
  obtain ⟨dist, opposite⟩ := sub_rounded sign hr
  have reverse : |(|v| - |(r' : ℝ)|)| ≤ |v - r'| := abs_abs_sub_abs_le _ _
  have scaled := abs_sub_scaled v q
  generalize |v| / 2 ^ q = t at *
  rw [scaled] at dist
  rw [dist]
  rw [hk, scaled] at reverse
  by_cases same : k = j
  · subst same
    refine ⟨reverse, fun eq other => ?_⟩
    have mirrored : (r' : ℝ) = -r :=
      (abs_eq_abs.mp (hk.trans (abs_rounded hr).symm)).resolve_left fun e => other (by exact_mod_cast e)
    rw [mirrored, sub_neg_eq_add, opposite, ← scaled] at eq
    have vpos : 0 < |v| := abs_pos.mpr nonzero
    have kpos : (0 : ℝ) ≤ k * 2 ^ q := by positivity
    have zero : (k : ℝ) * 2 ^ q = 0 := by
      obtain e | e := abs_choice (|v| - k * 2 ^ q) <;> rw [e] at eq <;> linarith
    have : k = 0 := by exact_mod_cast (mul_eq_zero.mp zero).resolve_right unit.ne'
    simp [this]
  · have apart : (1 : ℝ) ≤ |(j : ℝ) - k| := by
      have : (1 : ℤ) ≤ |(j : ℤ) - k| := Int.one_le_abs (by omega)
      exact_mod_cast this
    have far : 1 / 2 ≤ |t - k| := by
      have := abs_sub_le (j : ℝ) t k
      rw [abs_sub_comm (j : ℝ) t] at this
      linarith
    refine ⟨le_trans (mul_le_mul_of_nonneg_right (close.trans far) unit.le) reverse, fun eq _ => tie ?_⟩
    rw [← eq] at reverse
    exact le_antisymm close (far.trans (le_of_mul_le_mul_right reverse unit))

include normal

/-- To nearest: a number finer than the grid is farther. -/
theorem farther_below_grid (near : rm = 0) {r' : ℚ} (above : f.emin - f.m < q) (small : |(r' : ℝ)| < 2 ^ f.m * (2 : ℝ) ^ q) :
    |v - r| < |v - r'| := by
  have unit : (0 : ℝ) < 2 ^ q := by positivity
  obtain ⟨close, -⟩ := h.1 near
  obtain ⟨dist, -⟩ := sub_rounded sign hr
  have scaled := abs_sub_scaled v q
  have hv : |v| = |v| / 2 ^ q * 2 ^ q := (div_mul_cancel₀ _ unit.ne').symm
  have base : ((2 ^ f.m : ℕ) : ℝ) ≤ |v| / 2 ^ q := (le_div_iff₀ unit).mpr (normal above)
  generalize |v| / 2 ^ q = t at *
  have low : 2 ^ f.m ≤ j := le_roundsInt h base
  have gap : (t - ((2 ^ f.m : ℕ) : ℝ)) * 2 ^ q < |(|v| - |(r' : ℝ)|)| := by
    refine lt_of_lt_of_le ?_ (le_abs_self _)
    rw [sub_mul, ← hv]
    push_cast
    linarith
  rw [dist, scaled]
  refine lt_of_lt_of_le (lt_of_le_of_lt (mul_le_mul_of_nonneg_right ?_ unit.le) gap) (abs_abs_sub_abs_le _ _)
  obtain rfl | more := Nat.eq_or_lt_of_le low
  · rw [abs_of_nonneg (by linarith)]
  · have step : ((2 ^ f.m : ℕ) : ℝ) + 1 ≤ j := by exact_mod_cast more
    have := abs_le.mp close
    linarith

/-- To nearest: no number of the format is nearer, and of two equally near the even one is taken. -/
theorem nearest_number (near : rm = 0) (nonzero : v ≠ 0) {c' : Nat} {r' : ℚ} (h' : IsNumber f c' r') :
    |v - r| ≤ |v - r'| ∧ (|v - r| = |v - r'| → r' ≠ r → j % 2 = 0) := by
  obtain ⟨k, hk⟩ | ⟨above, small⟩ := number_on_grid h' q
  · exact nearest_on_grid sign hr h near nonzero hk
  · have strict := farther_below_grid sign hr h normal near above small
    exact ⟨strict.le, fun eq => absurd eq strict.ne⟩

omit sign in
/-- Rounding passes no number of the format beyond the exact one. -/
theorem rounded_le_number {c' : Nat} {r' : ℚ} (h' : IsNumber f c' r') (beyond : |v| ≤ |(r' : ℝ)|) : |r| ≤ |r'| := by
  have unit : (0 : ℝ) < 2 ^ q := by positivity
  have goal : |(r : ℝ)| ≤ |(r' : ℝ)| := by
    obtain ⟨k, hk⟩ | ⟨above, small⟩ := number_on_grid h' q
    · rw [hk, ← div_le_iff₀ unit] at beyond
      rw [abs_rounded hr, hk]
      exact mul_le_mul_of_nonneg_right (by exact_mod_cast roundsInt_le h beyond) unit.le
    · have := normal above
      push_cast at this
      linarith
  exact_mod_cast goal

omit sign in
/-- Nor one on the near side of it. -/
theorem number_le_rounded {c' : Nat} {r' : ℚ} (h' : IsNumber f c' r') (within : |(r' : ℝ)| ≤ |v|) :
    |r'| ≤ |r| := by
  have unit : (0 : ℝ) < 2 ^ q := by positivity
  have goal : |(r' : ℝ)| ≤ |(r : ℝ)| := by
    rw [abs_rounded hr]
    obtain ⟨k, hk⟩ | ⟨above, small⟩ := number_on_grid h' q
    · rw [hk, ← le_div_iff₀ unit] at within
      rw [hk]
      exact mul_le_mul_of_nonneg_right (by exact_mod_cast le_roundsInt h within) unit.le
    · have base := normal above
      rw [← le_div_iff₀ unit] at base
      have low : ((2 ^ f.m : ℕ) : ℝ) ≤ j := by exact_mod_cast le_roundsInt h base
      push_cast at low
      exact small.le.trans (mul_le_mul_of_nonneg_right low unit.le)
  exact_mod_cast goal
end

/-! ### One rounding to a format (R97) -/

theorem toInf_iff (rm : Nat) (neg : Bool) : (rm == 0 || (rm == 2 && !neg) || (rm == 3 && neg)) = true ↔ rm = 0 ∨ roundsAway rm neg := by
  simp [roundsAway, or_assoc]

/-- The flags of a rounding that does not overflow. -/
theorem roundingFlags_bits (inexact tiny : Bool) :
    let w := flagIf inexact flagNX ||| flagIf (tiny && inexact) flagUF
    (w.getLsbD 4 = true ↔ inexact = true) ∧ (w.getLsbD 3 = true ↔ inexact = true ∧ tiny = true) ∧
      ∀ k, k ≠ 3 → k ≠ 4 → w.getLsbD k = false := by
  have nx : flagNX = BitVec.twoPow 32 4 := rfl
  have uf : flagUF = BitVec.twoPow 32 3 := rfl
  refine ⟨?_, ?_, fun k h3 h4 => ?_⟩
  · cases inexact <;> cases tiny <;> decide
  · cases inexact <;> cases tiny <;> decide
  · cases inexact <;> cases tiny <;> simp [flagIf, nx, uf, BitVec.getLsbD_twoPow, h3.symm, h4.symm]

section
variable {f : Fmt} {rm : Nat} {neg : Bool} {x : ℝ} {lead : Int} (low : 2 ^ lead ≤ x) (high : x < 2 ^ (lead + 1))
include low high

/-- The significand of a rounding: at most the next binade's first, and no less than its own binade's first but in the range of the
subnormal numbers. -/
theorem significand_bounds {j : ℕ} {q : Int} (hq : q = max (lead - f.m) (f.emin - f.m)) (h : RoundsInt rm neg (x / 2 ^ q) j) :
    j ≤ 2 ^ (f.m + 1) ∧ (f.emin - f.m < q → ((2 ^ f.m : ℕ) : ℝ) * 2 ^ q ≤ x) := by
  refine ⟨roundsInt_le h ?_, fun above => ?_⟩
  · rw [div_le_iff₀ (by positivity)]
    refine high.le.trans ?_
    rw [Nat.cast_pow, Nat.cast_ofNat, ← zpow_natCast, ← zpow_add₀ two_ne_zero]
    exact zpow_le_zpow_right₀ (by norm_num) (by push_cast; omega)
  · refine le_trans (le_of_eq ?_) low
    rw [Nat.cast_pow, Nat.cast_ofNat, ← zpow_natCast, ← zpow_add₀ two_ne_zero]
    congr 1
    omega

theorem overflow_iff (reg : f.Regular) {j : ℕ} {q : Int} (hq : q = max (lead - f.m) (f.emin - f.m)) (h : RoundsInt rm neg (x / 2 ^ q) j) :
    f.emax < (normSig f j q).2 + f.m ↔ Overflows f rm neg x := by
  have room := reg.emin_add_one_lt_emax
  have norm : q ≤ (normSig f j q).2 ∧ (normSig f j q).2 ≤ q + 1 := by
    unfold normSig
    split <;> constructor <;> dsimp only <;> omega
  obtain below | at_ | above := lt_trichotomy lead f.emax
  · have : x < 2 ^ f.emax := high.trans_le (zpow_le_zpow_right₀ (by norm_num) (by omega))
    exact iff_of_false (by omega) (not_overflows_of_lt this)
  · have hq' : q = f.emax - f.m := by omega
    rw [at_] at high
    rw [hq'] at h
    have carries := carries_iff high h
    have step : f.emax < (normSig f j q).2 + f.m ↔ 2 ^ (f.m + 1) ≤ j := by
      unfold normSig
      split <;> dsimp only <;> omega
    rw [step, carries, overflows_iff]
    constructor
    · rintro (near | away)
      · exact .inl near
      · exact .inr (.inl away)
    · rintro (near | away | ⟨-, -, out⟩)
      · exact .inl near
      · exact .inr away
      · exact absurd out (not_le.mpr high)
  · have : 2 ^ (f.emax + 1) ≤ x := le_trans (zpow_le_zpow_right₀ (by norm_num) (by omega)) low
    exact iff_of_true (by omega) (overflows_of_ge this)

theorem tiny_iff {j : ℕ} (h : RoundsInt rm neg (x / 2 ^ (lead - f.m)) j) :
    (decide (lead < f.emin) && !(decide (lead = f.emin - 1) && decide (2 ^ (f.m + 1) ≤ j))) = true ↔ TinyRounded f rm neg x := by
  simp only [Bool.and_eq_true, Bool.not_eq_true', Bool.and_eq_false_iff, decide_eq_true_eq, decide_eq_false_iff_not]
  obtain below | at_ | above : lead < f.emin - 1 ∨ lead = f.emin - 1 ∨ f.emin ≤ lead := by omega
  · have : x < 2 ^ (f.emin - 1) := high.trans_le (zpow_le_zpow_right₀ (by norm_num) (by omega))
    exact iff_of_true ⟨by omega, .inl (by omega)⟩ (tiny_of_lt this)
  · rw [at_] at h high
    rw [Int.sub_add_cancel] at high
    rw [tiny_iff_of_binade high h]
    simp [at_]
  · have : 2 ^ f.emin ≤ x := le_trans (zpow_le_zpow_right₀ (by norm_num) above) low
    exact iff_of_false (by omega) (not_tiny_of_ge this)
end

/-- A magnitude has the leading exponent of what stands for it. -/
theorem SameCell.bounds {m mag : ℕ} {exp : Int} {x : ℝ} (hm : mag ≠ 0) (cell : SameCell (leadExp mag exp - m - 1) x (mag * (2 : ℝ) ^ exp)) :
    2 ^ leadExp mag exp ≤ x ∧ x < 2 ^ (leadExp mag exp + 1) := by
  obtain ⟨low, high⟩ := leadExp_bounds hm exp
  generalize leadExp mag exp = lead at *
  have first := (cell.mono (by omega : lead - m - 1 ≤ lead) 1).1
  have last := (cell.mono (by omega : lead - m - 1 ≤ lead + 1) 1).1.not
  rw [Nat.cast_one, one_mul] at first last
  exact ⟨first.mpr low, not_le.mp (last.mpr (not_le.mpr high))⟩

/-- Rounding a magnitude of the cell of an exact nonzero number rounds that number once. -/
theorem roundsTo_roundF {f : Fmt} (reg : f.Regular) (rm : Nat) {neg : Bool} {v : ℝ} (sign : neg = true ↔ v < 0) {mag : ℕ} {exp : Int}
    (hm : mag ≠ 0) (cell : SameCell (leadExp mag exp - f.m - 1) |v| (mag * (2 : ℝ) ^ exp)) :
    RoundsTo f rm v (roundF f rm neg mag exp).1 (roundF f rm neg mag exp).2 := by
  rw [roundF, if_neg hm]
  extract_lets lead q r n free tiny toInf code
  obtain ⟨low, high⟩ := cell.bounds hm
  obtain ⟨rounds, inexact⟩ : RoundsInt rm neg (|v| / 2 ^ q) r.1 ∧ (r.2 = true ↔ |v| ≠ r.1 * (2 : ℝ) ^ q) :=
    roundAt_spec rm neg cell (by omega)
  have isTiny : tiny = true ↔ TinyRounded f rm neg |v| := tiny_iff low high (roundAt_spec rm neg cell (by omega)).1
  have overflow : f.emax < n.2 + f.m ↔ Overflows f rm neg |v| := overflow_iff low high reg rfl rounds
  obtain ⟨most, normal⟩ := significand_bounds low high rfl rounds
  refine ⟨neg, sign, fun out => ?_, fun inside => ?_⟩
  · rw [if_pos (overflow.mpr out)]
    refine ⟨?_, rfl⟩
    simp only [toInf, toInf_iff]
  · rw [if_neg (overflow.not.mpr inside)]
    have subnormal : r.1 < 2 ^ f.m → q = f.emin - f.m := by
      intro less
      by_contra above
      have base := normal (by omega)
      rw [← le_div_iff₀ (by positivity)] at base
      exact absurd (le_roundsInt rounds base) (by omega)
    obtain ⟨k, number, top, parity, hr⟩ :=
      isNumber_encode reg neg (q := q) (le_max_right _ _) most subnormal (not_lt.mp (overflow.not.mpr inside)) (c := f.signBit neg + code) rfl
    obtain ⟨nx, uf, others⟩ := roundingFlags_bits r.2 tiny
    have nonzero : v ≠ 0 := abs_pos.mp (lt_of_lt_of_le (by positivity) low)
    have moved : (k : ℝ) ≠ v ↔ r.2 = true := by
      rw [inexact, not_iff_not, ← sub_eq_zero (a := |v|), ← abs_eq_zero, ← (sub_rounded sign hr).1, abs_eq_zero, sub_eq_zero, eq_comm]
    refine ⟨k, number, top, fun near c' r' h' => ?_, fun away => ⟨?_, fun c' r' h' => rounded_le_number hr rounds normal h'⟩,
      fun near toward => ⟨?_, fun c' r' h' => number_le_rounded hr rounds normal h'⟩, by rw [nx, moved], by rw [uf, moved, isTiny], others⟩
    · obtain ⟨nearest, tie⟩ := nearest_number sign hr rounds normal near nonzero h'
      exact ⟨nearest, fun eq other => parity.trans (tie eq other)⟩
    · rw [abs_rounded hr, ← div_le_iff₀ (by positivity)]
      exact (rounds.2.1 away).1
    · rw [abs_rounded hr, ← le_div_iff₀ (by positivity)]
      exact (rounds.2.2 near toward).1

end Sys2Proof.Machine
end

section
/-! SUPPORT. Exact sums, products, quotients and square roots as the values that are rounded (R97, R102). -/

namespace Sys2Proof.Machine

open Sys2Proof.Safety

/-! ### Exact sums and products -/

theorem ratOf_fin_eq_zero {n : Bool} {m : Nat} {e : Int} : ratOf (.fin n m e) = 0 ↔ m = 0 := by
  have unit : (2 : ℚ) ^ e ≠ 0 := zpow_ne_zero _ two_ne_zero
  cases n <;> simp [ratOf_fin, unit]

theorem ratOf_fin_neg {n : Bool} {m : Nat} {e : Int} (hm : m ≠ 0) : n = true ↔ ratOf (.fin n m e) < 0 := by
  have pos : (0 : ℚ) < m * (2 : ℚ) ^ e := by positivity
  cases n
  · simpa [ratOf_fin] using pos.le
  · simpa [ratOf_fin] using pos

theorem scaledInt_mul (n : Bool) (m : Nat) {e e0 : Int} (h : e0 ≤ e) : (scaledInt n m e e0 : ℚ) * 2 ^ e0 = ratOf (.fin n m e) := by
  have unit : (2 : ℚ) ^ e = pow2 (e - e0) * 2 ^ e0 := by
    rw [pow2_cast (by omega), ← zpow_add₀ two_ne_zero, Int.sub_add_cancel]
  rw [ratOf_fin, unit]
  cases n <;> simp only [scaledInt, if_true] <;> push_cast <;> simp <;> ring

/-- The sum of two finite values, and the sign of a zero sum (R97). -/
theorem addV_fin (rm : Nat) (n₁ n₂ : Bool) (m₁ m₂ : Nat) (e₁ e₂ : Int) :
    ∃ n m e, addV rm (.fin n₁ m₁ e₁) (.fin n₂ m₂ e₂) = (.fin n m e, 0) ∧
    ratOf (.fin n m e) = ratOf (.fin n₁ m₁ e₁) + ratOf (.fin n₂ m₂ e₂) ∧ (m = 0 → n = if n₁ = n₂ then n₁ else rm == 3) := by
  have sum : ((scaledInt n₁ m₁ e₁ (min e₁ e₂) + scaledInt n₂ m₂ e₂ (min e₁ e₂) : ℤ) : ℚ) * 2 ^ min e₁ e₂ =
      ratOf (.fin n₁ m₁ e₁) + ratOf (.fin n₂ m₂ e₂) := by
    rw [Int.cast_add, add_mul, scaledInt_mul _ _ (min_le_left _ _), scaledInt_mul _ _ (min_le_right _ _)]
  rw [← sum]
  simp only [addV]
  generalize hv : scaledInt n₁ m₁ e₁ (min e₁ e₂) + scaledInt n₂ m₂ e₂ (min e₁ e₂) = v at sum ⊢
  by_cases zero : v = 0
  · refine ⟨_, _, _, if_pos zero, by rw [zero, ratOf_fin_eq_zero.mpr rfl]; simp, fun _ => ?_⟩
    rw [zero, Int.cast_zero, zero_mul] at sum
    by_cases same : n₁ = n₂
    · subst same
      have both : m₁ = 0 ∧ m₂ = 0 := by
        have p₁ : (0 : ℚ) ≤ m₁ * 2 ^ e₁ := by positivity
        have p₂ : (0 : ℚ) ≤ m₂ * 2 ^ e₂ := by positivity
        simp only [← @ratOf_fin_eq_zero n₁ m₁ e₁, ← @ratOf_fin_eq_zero n₁ m₂ e₂]
        cases n₁ <;> simp only [ratOf_fin, if_true, Bool.false_eq_true, if_false] at sum ⊢ <;> constructor <;> linarith
      simp [both]
    · simp [same]
  · refine ⟨_, _, _, if_neg zero, ?_, fun none => absurd (Int.natAbs_eq_zero.mp none) zero⟩
    obtain neg | pos := lt_or_gt_of_ne zero
    · have : ((v.natAbs : ℕ) : ℚ) = -v := by rw [Nat.cast_natAbs, abs_of_neg neg]; push_cast; ring
      simp [ratOf_fin, neg, this]
    · have : ((v.natAbs : ℕ) : ℚ) = v := by rw [Nat.cast_natAbs, abs_of_pos pos]
      simp [ratOf_fin, not_lt.mpr pos.le, this]

theorem mulV_fin (n₁ n₂ : Bool) (m₁ m₂ : Nat) (e₁ e₂ : Int) :
    mulV (.fin n₁ m₁ e₁) (.fin n₂ m₂ e₂) = (.fin (xor n₁ n₂) (m₁ * m₂) (e₁ + e₂), 0) ∧
    ratOf (.fin (xor n₁ n₂) (m₁ * m₂) (e₁ + e₂)) = ratOf (.fin n₁ m₁ e₁) * ratOf (.fin n₂ m₂ e₂) := by
  refine ⟨rfl, ?_⟩
  rw [ratOf_fin, ratOf_fin, ratOf_fin, zpow_add₀ two_ne_zero]
  cases n₁ <;> cases n₂ <;> push_cast <;> simp <;> ring

/-! ### Rounding of an exact value -/

section
variable {f : Fmt} (reg : f.Regular) (rm : Nat)

theorem fin1_nan (s : Bool) (w : Word) : fin1 f rm (.nan s, w) = (f.nanCode, w) := by simp [fin1, roundV]

theorem fin1_inf (n : Bool) (w : Word) : fin1 f rm (.inf n, w) = (f.infCode n, w) := by simp [fin1, roundV]

theorem fin1_zero (n : Bool) (e : Int) : fin1 f rm (.fin n 0 e, 0) = (f.signBit n, 0) := by simp [fin1, roundV, roundF]

theorem fin1_fin (n : Bool) (m : Nat) (e : Int) : fin1 f rm (.fin n m e, 0) = roundF f rm n m e := by
  rw [fin1, roundV]
  ext1
  · rfl
  · exact BitVec.zero_or

include reg

/-- An exact number is rounded once; a zero has the sign of its value (R97). -/
theorem fin1_rounds {n : Bool} {m : Nat} {e : Int} {r : ℚ} (value : ratOf (.fin n m e) = r) :
    (r ≠ 0 → RoundsTo f rm (r : ℝ) (fin1 f rm (.fin n m e, 0)).1 (fin1 f rm (.fin n m e, 0)).2) ∧
    (r = 0 → fin1 f rm (.fin n m e, 0) = (f.signBit n, 0)) := by
  subst value
  rw [ne_eq, ratOf_fin_eq_zero]
  refine ⟨fun hm => ?_, fun hm => by rw [hm, fin1_zero]⟩
  rw [fin1_fin]
  refine roundsTo_roundF reg rm ?_ hm ?_
  · rw [ratOf_fin_neg (e := e) hm]
    exact_mod_cast Iff.rfl
  · rw [abs_ratOf_fin_cast]
    exact sameCell_refl _ _

end

/-! ### Results with a sticky bit (R102) -/

/-- A magnitude between two multiples of 2^u is rounded like the lower one with a bit below it that tells whether it is that one. -/
theorem sameCell_sticky {x : ℝ} {k : ℕ} {u : Int} {inexact : Bool} (low : k * (2 : ℝ) ^ u ≤ x) (high : x < (k + 1) * 2 ^ u)
    (whole : x = k * 2 ^ u ↔ inexact = false) : SameCell u x ((2 * k + b2n inexact : ℕ) * (2 : ℝ) ^ (u - 1)) := by
  have unit : (0 : ℝ) < 2 ^ u := by positivity
  have half : (2 : ℝ) ^ (u - 1) = 2 ^ u / 2 := by rw [zpow_sub_one₀ two_ne_zero]; ring
  have less : b2n inexact ≤ 1 := by cases inexact <;> decide
  intro j
  have scaled : (j : ℝ) * 2 ^ u = (2 * j : ℕ) * (2 : ℝ) ^ (u - 1) := by rw [half]; push_cast; ring
  have half_pos : (0 : ℝ) < 2 ^ (u - 1) := by positivity
  conv => rhs; rw [scaled]
  conv => lhs; rhs; rw [scaled]
  rw [mul_le_mul_iff_of_pos_right half_pos, mul_le_mul_iff_of_pos_right half_pos, Nat.cast_le, Nat.cast_le]
  obtain below | rfl | above := lt_trichotomy j k
  · have : (j : ℝ) + 1 ≤ k := by exact_mod_cast below
    have : ((j : ℝ) + 1) * 2 ^ u ≤ k * 2 ^ u := mul_le_mul_of_nonneg_right this unit.le
    exact ⟨iff_of_true (by linarith) (by omega), iff_of_false (by linarith) (by omega)⟩
  · refine ⟨iff_of_true low (by omega), ?_⟩
    rw [← scaled, low.ge_iff_eq', whole]
    cases inexact <;> simp [b2n]
  · have : (k : ℝ) + 1 ≤ j := by exact_mod_cast above
    have : ((k : ℝ) + 1) * 2 ^ u ≤ j * 2 ^ u := mul_le_mul_of_nonneg_right this unit.le
    exact ⟨iff_of_false (by linarith) (by omega), iff_of_true (by linarith) (by omega)⟩

theorem roundsTo_sticky {f : Fmt} (reg : f.Regular) (rm : Nat) {neg : Bool} {v : ℝ} (sign : neg = true ↔ v < 0)
    {k : ℕ} {u : Int} {inexact : Bool}
    (long : 2 ^ (f.m + 1) ≤ k) (low : k * (2 : ℝ) ^ u ≤ |v|) (high : |v| < (k + 1) * 2 ^ u) (whole : |v| = k * 2 ^ u ↔ inexact = false) :
    RoundsTo f rm v (roundF f rm neg (2 * k + b2n inexact) (u - 1)).1 (roundF f rm neg (2 * k + b2n inexact) (u - 1)).2 := by
  have some_ : 2 * k + b2n inexact ≠ 0 := by
    have := Nat.two_pow_pos (f.m + 1)
    omega
  refine roundsTo_roundF reg rm sign some_ ((sameCell_sticky low high whole).mono ?_)
  have : f.m + 2 ≤ (2 * k + b2n inexact).log2 := by
    rw [Nat.le_log2 some_, Nat.pow_succ]
    omega
  unfold leadExp
  omega

/-! ### Quotients and square roots (R102) -/

/-- A number given by its sign and its magnitude. -/
theorem signed_magnitude {neg : Bool} {v x : ℝ} (h : v = (if neg then -1 else 1) * x) (pos : 0 < x) : (neg = true ↔ v < 0) ∧ |v| = x := by
  subst h
  cases neg <;> simp [abs_of_pos pos, pos, pos.le]

/-- A quotient of naturals lies between its whole part and the next integer. -/
theorem quotient_between {n d : ℕ} (hd : 0 < d) : ((n / d : ℕ) : ℝ) ≤ (n : ℝ) / d ∧ (n : ℝ) / d < ((n / d : ℕ) : ℝ) + 1 ∧
    ((n : ℝ) / d = ((n / d : ℕ) : ℝ) ↔ n % d = 0) := by
  have pos : (0 : ℝ) < d := by exact_mod_cast hd
  refine ⟨Nat.cast_div_le, ?_, ?_⟩
  · rw [div_lt_iff₀ pos, mul_comm]
    exact_mod_cast Nat.lt_mul_div_succ n hd
  · rw [div_eq_iff pos.ne', ← Nat.cast_mul, Nat.cast_inj]
    have := Nat.div_add_mod' n d
    omega

theorem fin1_div_rounds {f : Fmt} (reg : f.Regular) (rm : Nat) {n₁ n₂ : Bool} {m₁ m₂ : Nat} {e₁ e₂ : Int} (h₁ : m₁ ≠ 0) (h₂ : m₂ ≠ 0) :
    RoundsTo f rm ((ratOf (.fin n₁ m₁ e₁) / ratOf (.fin n₂ m₂ e₂) : ℚ) : ℝ) (fin1 f rm (divV f (.fin n₁ m₁ e₁) (.fin n₂ m₂ e₂))).1
      (fin1 f rm (divV f (.fin n₁ m₁ e₁) (.fin n₂ m₂ e₂))).2 := by
  rw [divV, if_neg h₂]
  extract_lets k q
  have pos₂ : 0 < m₂ := Nat.pos_of_ne_zero h₂
  have unit : (0 : ℝ) < 2 ^ (e₁ - e₂ - k) := by positivity
  have value : (m₁ : ℝ) / m₂ * 2 ^ (e₁ - e₂) = (m₁ * 2 ^ k : ℕ) / m₂ * 2 ^ (e₁ - e₂ - k) := by
    rw [zpow_sub₀ two_ne_zero _ (k : ℤ), zpow_natCast]
    push_cast
    field_simp
  have signed : ((ratOf (.fin n₁ m₁ e₁) / ratOf (.fin n₂ m₂ e₂) : ℚ) : ℝ) =
      (if xor n₁ n₂ then -1 else 1) * ((m₁ * 2 ^ k : ℕ) / m₂ * 2 ^ (e₁ - e₂ - k)) := by
    rw [← value, zpow_sub₀ two_ne_zero, Rat.cast_div, ratOf_fin_cast, ratOf_fin_cast]
    cases n₁ <;> cases n₂ <;> simp <;> field_simp
  obtain ⟨sign, magnitude⟩ := signed_magnitude signed (by positivity)
  obtain ⟨low, high, whole⟩ := quotient_between (n := m₁ * 2 ^ k) pos₂
  have long : 2 ^ (f.m + 1) ≤ q := by
    rw [Nat.le_div_iff_mul_le pos₂]
    calc 2 ^ (f.m + 1) * m₂ ≤ 2 ^ (f.m + 1) * 2 ^ (m₂.log2 + 1) := Nat.mul_le_mul_left _ Nat.lt_log2_self.le
      _ ≤ 2 ^ k := by rw [← Nat.pow_add]; exact Nat.pow_le_pow_right Nat.two_pos (by omega)
      _ ≤ m₁ * 2 ^ k := Nat.le_mul_of_pos_left _ (Nat.pos_of_ne_zero h₁)
  rw [fin1_fin]
  refine roundsTo_sticky reg rm sign long ?_ ?_ ?_ <;> rw [magnitude]
  · exact mul_le_mul_of_nonneg_right low unit.le
  · exact mul_lt_mul_of_pos_right high unit
  · rw [mul_left_inj' unit.ne', whole]
    simp

theorem isqrtFrom_eq_sqrt (x : ℕ) : ∀ n r, r * r ≤ x → x < (r + 2 ^ n) * (r + 2 ^ n) → isqrtFrom x n r = Nat.sqrt x
  | 0, r, low, high => Nat.eq_sqrt.mpr ⟨low, high⟩
  | n + 1, r, low, high => by
    rw [Nat.pow_succ, Nat.mul_two, ← Nat.add_assoc] at high
    rw [isqrtFrom]
    split
    · exact isqrtFrom_eq_sqrt x n _ ‹_› high
    · exact isqrtFrom_eq_sqrt x n _ low (Nat.lt_of_not_le ‹_›)

theorem isqrt_eq_sqrt (x : ℕ) : isqrt x = Nat.sqrt x := by
  refine isqrtFrom_eq_sqrt x _ 0 (Nat.zero_le x) ?_
  rw [Nat.zero_add, ← Nat.pow_add]
  exact Nat.lt_log2_self.trans_le (Nat.pow_le_pow_right Nat.two_pos (by omega))

/-- A square root lies between the integer one and the next integer. -/
theorem sqrt_between (x : ℕ) : (Nat.sqrt x : ℝ) ≤ Real.sqrt x ∧ Real.sqrt x < (Nat.sqrt x : ℝ) + 1 ∧
    (Real.sqrt x = (Nat.sqrt x : ℝ) ↔ Nat.sqrt x * Nat.sqrt x = x) := by
  refine ⟨Real.nat_sqrt_le_real_sqrt, Real.real_sqrt_lt_nat_sqrt_succ, ?_⟩
  rw [Real.sqrt_eq_iff_mul_self_eq (Nat.cast_nonneg _) (Nat.cast_nonneg _)]
  norm_cast
  exact eq_comm

/-- What the integer square root of a scaled magnitude tells of the square root. -/
theorem sqrtMag_between (p : ℕ) {m : ℕ} (e : Int) (h : m ≠ 0) : ∃ (k : ℕ) (u : Int) (inexact : Bool),
    sqrtMag p m e = (2 * k + b2n inexact, u - 1) ∧ 2 ^ (p + 2) ≤ k ∧ k * (2 : ℝ) ^ u ≤ Real.sqrt (m * 2 ^ e) ∧
      Real.sqrt (m * 2 ^ e) < (k + 1) * 2 ^ u ∧ (Real.sqrt (m * 2 ^ e) = k * 2 ^ u ↔ inexact = false) := by
  unfold sqrtMag
  extract_lets k x r
  have scale : (m : ℝ) * 2 ^ e = x * (2 ^ ((e - k) / 2)) ^ 2 := by
    have back : (2 : ℝ) ^ e = 2 ^ k * (2 ^ ((e - k) / 2)) ^ 2 := by
      rw [← zpow_natCast, ← zpow_mul, ← zpow_add₀ two_ne_zero]
      congr 1
      push_cast
      omega
    rw [back, Nat.cast_mul, pow2_cast (by omega)]
    ring
  have root : Real.sqrt (m * 2 ^ e) = Real.sqrt x * 2 ^ ((e - k) / 2) := by
    rw [scale, Real.sqrt_mul (Nat.cast_nonneg _), Real.sqrt_sq (by positivity)]
  have unit : (0 : ℝ) < 2 ^ ((e - k) / 2) := by positivity
  have hr : r = Nat.sqrt x := isqrt_eq_sqrt x
  obtain ⟨low, high, whole⟩ := sqrt_between x
  rw [← hr] at low high whole
  refine ⟨r, (e - k) / 2, decide (r * r ≠ x), rfl, ?_, ?_, ?_, ?_⟩
  · rw [hr, Nat.le_sqrt, ← Nat.pow_add]
    calc 2 ^ (p + 2 + (p + 2)) ≤ pow2 k := Nat.pow_le_pow_right Nat.two_pos (by omega)
      _ ≤ m * pow2 k := Nat.le_mul_of_pos_left _ (Nat.pos_of_ne_zero h)
  · rw [root]
    exact mul_le_mul_of_nonneg_right low unit.le
  · rw [root]
    exact mul_lt_mul_of_pos_right high unit
  · rw [root, mul_left_inj' unit.ne', whole]
    simp

theorem fin1_sqrt_rounds {f : Fmt} (reg : f.Regular) (rm : Nat) {m : Nat} (e : Int) (h : m ≠ 0) :
    RoundsTo f rm (Real.sqrt ((ratOf (.fin false m e) : ℚ) : ℝ)) (fin1 f rm (sqrtV f (.fin false m e))).1 (fin1 f rm (sqrtV f (.fin false m e))).2 := by
  obtain ⟨k, u, inexact, result, long, low, high, whole⟩ := sqrtMag_between (f.m + 4) e h
  have value : ((ratOf (.fin false m e) : ℚ) : ℝ) = m * 2 ^ e := by rw [ratOf_fin_cast]; simp
  have nonneg := Real.sqrt_nonneg (m * (2 : ℝ) ^ e)
  simp only [sqrtV, if_neg h, Bool.false_eq_true, if_false, result, fin1_fin, value]
  rw [← abs_of_nonneg nonneg] at low high whole
  exact roundsTo_sticky reg rm (iff_of_false (by decide) (not_lt.mpr nonneg))
    (le_trans (Nat.pow_le_pow_right Nat.two_pos (by omega)) long) low high whole

end Sys2Proof.Machine
end

section
/-! SUPPORT. The order of floating point values, and the comparisons (R98, R99). -/

namespace Sys2Proof.Machine

open Sys2Proof.Safety

/-! ### Comparison (R98, R99) -/

theorem ltV_iff {x y : FVal} (hx : x.isNan = false) (hy : y.isNan = false) : ltV x y = true ↔ placeOf x < placeOf y := by
  match x, y with
  | .inf true, .inf true | .inf true, .inf false | .inf false, .inf true | .inf false, .inf false => simp [ltV, placeOf]
  | .inf true, .fin _ _ _ | .inf false, .fin _ _ _ | .fin _ _ _, .inf true => simp [ltV, placeOf]
  | .fin _ _ _, .inf false => exact iff_of_true rfl (WithBot.coe_lt_coe.mpr (WithTop.coe_lt_top _))
  | .fin n₁ m₁ e₁, .fin n₂ m₂ e₂ =>
    have unit : (0 : ℚ) < 2 ^ min e₁ e₂ := by positivity
    simp only [ltV, placeOf, decide_eq_true_eq, WithBot.coe_lt_coe, WithTop.coe_lt_coe]
    rw [← scaledInt_mul n₁ m₁ (min_le_left e₁ e₂), ← scaledInt_mul n₂ m₂ (min_le_right e₁ e₂), mul_lt_mul_iff_of_pos_right unit, Int.cast_lt]
  | .nan _, _ => exact nomatch hx
  | .inf _, .nan _ | .fin _ _ _, .nan _ => exact nomatch hy

theorem ltV_nan {x y : FVal} (h : (x.isNan || y.isNan) = true) : ltV x y = false := by
  match x, y with
  | .nan _, _ => rfl
  | .inf _, .nan _ | .fin _ _ _, .nan _ => rfl
  | .inf _, .inf _ | .inf _, .fin _ _ _ | .fin _ _ _, .inf _ | .fin _ _ _, .fin _ _ _ => exact nomatch h

theorem eqV_iff {x y : FVal} (hx : x.isNan = false) (hy : y.isNan = false) : eqV x y = true ↔ placeOf x = placeOf y := by
  simp only [eqV, hx, hy, Bool.not_false, Bool.true_and, Bool.and_eq_true, Bool.not_eq_true', Bool.eq_false_iff, ne_eq, ltV_iff hx hy,
    ltV_iff hy hx, not_lt]
  exact ⟨fun h => le_antisymm h.2 h.1, fun h => ⟨h.ge, h.le⟩⟩

theorem eqV_nan {x y : FVal} (h : (x.isNan || y.isNan) = true) : eqV x y = false := by
  simp only [Bool.or_eq_true] at h
  obtain h | h := h <;> simp [eqV, h]

theorem placeOf_isZero {x : FVal} (h : x.isZero = true) : placeOf x = ((0 : ℚ) : WithTop ℚ) := by
  match x with
  | .fin n m e =>
    have : m = 0 := by simpa [FVal.isZero] using h
    simp only [placeOf, ratOf_fin_eq_zero.mpr this]
  | .nan _ => exact nomatch h
  | .inf _ => exact nomatch h

/-- Values of opposite signs in one place are zeros. -/
theorem isZero_of_place_eq {x y : FVal} (hx : x.isNan = false) (hy : y.isNan = false) (eq : placeOf x = placeOf y) (neg : x.isNeg = true)
    (pos : y.isNeg = false) : x.isZero = true ∧ y.isZero = true := by
  match x, y with
  | .inf true, .inf false | .inf true, .fin _ _ _ | .fin _ _ _, .inf false => simp [placeOf] at eq
  | .inf false, _ => exact nomatch neg
  | .inf true, .inf true | .fin _ _ _, .inf true => exact nomatch pos
  | .fin n₁ m₁ e₁, .fin n₂ m₂ e₂ =>
    obtain rfl : n₁ = true := neg
    obtain rfl : n₂ = false := pos
    have eq : ratOf (.fin true m₁ e₁) = ratOf (.fin false m₂ e₂) := by simpa [placeOf] using eq
    have p₁ : (0 : ℚ) ≤ m₁ * 2 ^ e₁ := by positivity
    have p₂ : (0 : ℚ) ≤ m₂ * 2 ^ e₂ := by positivity
    have zero : m₁ = 0 ∧ m₂ = 0 := by
      simp only [← @ratOf_fin_eq_zero true m₁ e₁, ← @ratOf_fin_eq_zero false m₂ e₂]
      simp only [ratOf_fin, if_true, Bool.false_eq_true, if_false] at eq ⊢
      constructor <;> linarith
    simp [FVal.isZero, zero]
  | .nan _, _ => exact nomatch hx
  | .inf true, .nan _ | .fin _ _ _, .nan _ => exact nomatch hy

/-- The order of FMIN and FMAX is that of the places, with −0 below +0. -/
theorem belowV_of_lt {x y : FVal} (hx : x.isNan = false) (hy : y.isNan = false) (lt : placeOf x < placeOf y) :
    belowV x y = true ∧ belowV y x = false := by
  have zeros : (x.isZero && y.isZero) = false := by
    by_contra both
    simp only [Bool.not_eq_false, Bool.and_eq_true] at both
    rw [placeOf_isZero both.1, placeOf_isZero both.2] at lt
    exact lt_irrefl _ lt
  have up := (ltV_iff hx hy).mpr lt
  have down : ltV y x = false := Bool.eq_false_iff.mpr ((ltV_iff hy hx).not.mpr lt.not_gt)
  rw [Bool.and_comm] at zeros
  simp [belowV, up, down, zeros]

theorem belowV_of_zeros {x y : FVal} (hx : x.isNan = false) (hy : y.isNan = false) (eq : placeOf x = placeOf y) (neg : x.isNeg = true)
    (pos : y.isNeg = false) : belowV x y = true ∧ belowV y x = false := by
  obtain ⟨zx, zy⟩ := isZero_of_place_eq hx hy eq neg pos
  have down : ltV y x = false := Bool.eq_false_iff.mpr ((ltV_iff hy hx).not.mpr eq.le.not_gt)
  simp [belowV, zx, zy, neg, pos, down]

section
variable (f : Fmt) {x y : Nat}

/-- FMIN and FMAX take the lower and the higher of two numbers (R98). -/
theorem fminmaxC_of_below (hx : (decodeF f x).isNan = false) (hy : (decodeF f y).isNan = false)
    (h : belowV (decodeF f x) (decodeF f y) = true ∧ belowV (decodeF f y) (decodeF f x) = false) (max : Bool) :
    (fminmaxC f max x y).1 = (if max then y else x) ∧ (fminmaxC f max y x).1 = if max then y else x := by
  obtain ⟨up, down⟩ := h
  cases max <;> simp [fminmaxC, hx, hy, up, down]

theorem fminmaxC_flags (max : Bool) : (fminmaxC f max x y).2 = flagIf ((decodeF f x).isSig || (decodeF f y).isSig) flagNV := by
  unfold fminmaxC
  extract_lets a b w
  split_ifs <;> rfl

theorem fminmaxC_nan (max : Bool) (hx : (decodeF f x).isNan = true) :
    ((decodeF f y).isNan = true → (fminmaxC f max x y).1 = f.nanCode) ∧
    ((decodeF f y).isNan = false → (fminmaxC f max x y).1 = y ∧ (fminmaxC f max y x).1 = y) := by
  refine ⟨fun hy => ?_, fun hy => ⟨?_, ?_⟩⟩ <;> simp [fminmaxC, hx, hy]

theorem fcmpC_nan (h : ((decodeF f x).isNan || (decodeF f y).isNan) = true) {c : Nat} (hc : c < 8) :
    (fcmpC f c x y).1 = true ↔ c = 1 ∨ c = 7 := by
  have h' : ((decodeF f y).isNan || (decodeF f x).isNan) = true := by rwa [Bool.or_comm]
  simp only [fcmpC, ltV_nan h, ltV_nan h', eqV_nan h, h]
  interval_cases c <;> decide

theorem fcmpC_number (hx : (decodeF f x).isNan = false) (hy : (decodeF f y).isNan = false) {c : Nat} (hc : c < 8) :
    let p := placeOf (decodeF f x)
    let q := placeOf (decodeF f y)
    (fcmpC f c x y).1 = true ↔
      (c = 0 ∧ p = q) ∨ (c = 1 ∧ p ≠ q) ∨ (c = 2 ∧ p < q) ∨ (c = 3 ∧ p ≤ q) ∨ (c = 4 ∧ q < p) ∨ (c = 5 ∧ q ≤ p) ∨ c = 6 := by
  intro p q
  have lt : ltV (decodeF f x) (decodeF f y) = true ↔ p < q := ltV_iff hx hy
  have gt : ltV (decodeF f y) (decodeF f x) = true ↔ q < p := ltV_iff hy hx
  have eq : eqV (decodeF f x) (decodeF f y) = true ↔ p = q := eqV_iff hx hy
  have ne : eqV (decodeF f x) (decodeF f y) = false ↔ p ≠ q := by rw [← Bool.not_eq_true, eq]
  have le : p ≤ q ↔ p < q ∨ p = q := le_iff_lt_or_eq
  have ge : q ≤ p ↔ q < p ∨ p = q := le_iff_lt_or_eq'
  interval_cases c <;> simp [fcmpC, hx, hy, lt, gt, eq, ne, le, ge]

end

end Sys2Proof.Machine
end

section
/-! SUPPORT. Scaled numbers, classes and integral values (R100, R101). -/

namespace Sys2Proof.Machine

open Sys2Proof.Safety

/-! ### Scaling (R101) -/

section
variable {f : Fmt} (rm : Nat) (neg : Bool) {mag : ℕ} (hm : mag ≠ 0)
include hm

/-- Far below the unit, every magnitude rounds as any other. -/
theorem roundAt_far_below {exp q : Int} (far : leadExp mag exp + 2 ≤ q) :
    roundAt rm neg mag exp q = (if roundsAway rm neg then 1 else 0, true) := by
  unfold leadExp at far
  have coarse : ¬ q ≤ exp := by omega
  have wide : 4 * 2 ^ mag.log2 ≤ pow2 (q - exp) := by
    rw [show 4 * 2 ^ mag.log2 = 2 ^ (mag.log2 + 2) by rw [Nat.pow_add]; omega]
    exact Nat.pow_le_pow_right Nat.two_pos (by omega)
  have small : 2 * mag < pow2 (q - exp) := by
    have : mag < 2 * 2 ^ mag.log2 := by rw [← Nat.pow_succ']; exact Nat.lt_log2_self
    omega
  rw [roundAt, if_neg coarse]
  dsimp only
  rw [Nat.div_eq_of_lt (by omega), Nat.mod_eq_of_lt (by omega)]
  have up : roundsUp rm neg 0 mag (pow2 (q - exp)) = true ↔ roundsAway rm neg := by
    by_cases near : rm = 0
    · subst near
      simp only [roundsUp, if_true, Bool.or_eq_true, Bool.and_eq_true, decide_eq_true_eq]
      exact iff_of_false (by omega) (fun away => roundsAway_ne_zero away rfl)
    · simp [roundsUp_directed near, Nat.pos_of_ne_zero hm]
  simp [up, hm]

theorem roundF_far_below {exp exp' : Int} (far : leadExp mag exp + 3 ≤ f.emin - f.m) (far' : leadExp mag exp' + 3 ≤ f.emin - f.m) :
    roundF f rm neg mag exp = roundF f rm neg mag exp' := by
  have one {e : Int} (h : leadExp mag e + 3 ≤ f.emin - f.m) : max (leadExp mag e - f.m) (f.emin - f.m) = f.emin - f.m ∧
      leadExp mag e < f.emin ∧ leadExp mag e ≠ f.emin - 1 := by omega
  obtain ⟨q, lt, ne⟩ := one far
  obtain ⟨q', lt', ne'⟩ := one far'
  rw [roundF, if_neg hm, roundF, if_neg hm]
  simp only [q, q', lt, lt', ne, ne', roundAt_far_below rm neg hm (by omega : leadExp mag exp + 2 ≤ f.emin - f.m),
    roundAt_far_below rm neg hm (by omega : leadExp mag exp' + 2 ≤ f.emin - f.m), decide_true, decide_false, Bool.false_and]

/-- Beyond the last binade, too. -/
theorem roundF_far_above {exp exp' : Int} (far : f.emax < leadExp mag exp) (far' : f.emax < leadExp mag exp') :
    roundF f rm neg mag exp = roundF f rm neg mag exp' := by
  have beyond {e : Int} (h : f.emax < leadExp mag e) (r : ℕ) : f.emax < (normSig f r (max (leadExp mag e - f.m) (f.emin - f.m))).2 + f.m := by
    unfold normSig
    split <;> dsimp only <;> omega
  rw [roundF, if_neg hm, roundF, if_neg hm]
  simp only [beyond far, beyond far', if_true]
end

/-! ### Finite codes -/

section
variable {f : Fmt} {x : Nat} (hx : x < 2 ^ f.width) {n : Bool} {m : Nat} {e : Int} (h : decodeF f x = .fin n m e) (reg : f.Regular)
include hx h reg

/-- The range of a finite code's significand and exponent. -/
theorem finite_bounds : m < 2 ^ (f.m + 1) ∧ f.emin - f.m ≤ e ∧ e ≤ f.emax - f.m := by
  have exps := reg.exponents
  have wide := reg.integers
  obtain ⟨ex, mant, he, hm, -, rfl, rfl⟩ := fields_of_finite hx h
  unfold Fmt.emin Fmt.emax
  refine ⟨?_, by omega, by omega⟩
  rw [Nat.pow_succ]
  split <;> omega

theorem finite_leadExp (hm : m ≠ 0) : f.emin - f.m ≤ leadExp m e ∧ leadExp m e ≤ f.emax := by
  obtain ⟨less, low, high⟩ := finite_bounds hx h reg
  have := (Nat.log2_lt hm).mpr less
  unfold leadExp
  omega

/-- A finite number is below the normal ones when its significand lacks the leading bit. -/
theorem finite_subnormal : |ratOf (.fin n m e)| < (2 : ℚ) ^ f.emin ↔ m < 2 ^ f.m := by
  obtain ⟨ex, mant, he, hm, -, hs, hp⟩ := fields_of_finite hx h
  have least : (2 : ℚ) ^ f.emin = (2 ^ f.m : ℕ) * 2 ^ (f.emin - f.m) := by
    rw [Nat.cast_pow, Nat.cast_ofNat, ← zpow_natCast, ← zpow_add₀ two_ne_zero]
    congr 1
    omega
  have unit : (0 : ℚ) < 2 ^ (f.emin - f.m) := by positivity
  rw [abs_ratOf_fin, least]
  by_cases sub : ex = 0
  · have he' : e = f.emin - f.m := by rw [hp, sub, Fmt.emin]; simp
    rw [he', mul_lt_mul_iff_of_pos_right unit, Nat.cast_lt]
  · rw [if_neg sub] at hs
    have low := (finite_bounds hx h reg).2.1
    refine iff_of_false (not_lt.mpr ?_) (by omega)
    gcongr
    · omega
    · norm_num

theorem fscaleC_rounds (rm : Nat) (hm : m ≠ 0) (b : Int) :
    RoundsTo f rm ((ratOf (.fin n m e) * (2 : ℚ) ^ b : ℚ) : ℝ) (fscaleC f rm x b).1 (fscaleC f rm x b).2 := by
  have range := finite_leadExp hx h reg hm
  have scale := reg.scale
  have clipped : roundF f rm n m (e + max (-5000) (min 5000 b)) = roundF f rm n m (e + b) := by
    have lead (k : Int) : leadExp m (e + k) = leadExp m e + k := by unfold leadExp; omega
    obtain inside | below | above : (-5000 ≤ b ∧ b ≤ 5000) ∨ b < -5000 ∨ 5000 < b := by omega
    · rw [min_eq_right inside.2, max_eq_right inside.1]
    · unfold Fmt.emin Fmt.emax at range
      refine roundF_far_below rm n hm ?_ ?_ <;> rw [lead] <;> unfold Fmt.emin <;> omega
    · unfold Fmt.emin Fmt.emax at range
      refine roundF_far_above rm n hm ?_ ?_ <;> rw [lead] <;> unfold Fmt.emax <;> omega
  have value : ratOf (.fin n m (e + b)) = ratOf (.fin n m e) * 2 ^ b := by
    rw [ratOf_fin, ratOf_fin, zpow_add₀ two_ne_zero]
    ring
  have nonzero : ratOf (.fin n m e) * (2 : ℚ) ^ b ≠ 0 := by
    rw [← value]
    exact ratOf_fin_eq_zero.not.mpr hm
  have rounded := (fin1_rounds reg rm value).1 nonzero
  rw [fin1_fin] at rounded
  simp only [fscaleC, h, clipped]
  exact rounded

end

/-! ### Integral values (R101) -/

/-- A magnitude that is a multiple of its unit is rounded to itself. -/
theorem roundF_exact {f : Fmt} (reg : f.Regular) (rm : Nat) (neg : Bool) {mag : ℕ} {exp : Int} (hm : mag ≠ 0)
    (unit : max (leadExp mag exp - f.m) (f.emin - f.m) ≤ exp) (inside : leadExp mag exp < f.emax) : ∃ r : ℚ,
    IsNumber f (roundF f rm neg mag exp).1 r ∧ (roundF f rm neg mag exp).1 / 2 ^ (f.width - 1) = b2n neg ∧ (roundF f rm neg mag exp).2 = 0 ∧
      r = ratOf (.fin neg mag exp) := by
  obtain ⟨low, high⟩ := leadExp_bounds hm exp
  have within : (mag : ℝ) * 2 ^ exp < 2 ^ f.emax := high.trans_le (zpow_le_zpow_right₀ (by norm_num) (by omega))
  obtain ⟨q, hq⟩ : ∃ q, q = max (leadExp mag exp - f.m) (f.emin - f.m) := ⟨_, rfl⟩
  have fits := (overflow_iff low high reg hq (roundAt_spec rm neg (sameCell_refl (q - 1) _) (by omega)).1).not.mpr (not_overflows_of_lt within)
  have multiple : roundAt rm neg mag exp q = (mag * pow2 (exp - q), false) := by rw [roundAt, if_pos (hq ▸ unit)]
  have flags : (roundF f rm neg mag exp).2 = 0 := by
    rw [multiple] at fits
    rw [roundF, if_neg hm]
    simp only [← hq, multiple, if_neg fits, Bool.and_false, flagIf, Bool.false_eq_true, if_false]
    rfl
  have value : ratOf (.fin neg mag exp) ≠ 0 := ratOf_fin_eq_zero.not.mpr hm
  have rounded := (fin1_rounds reg rm rfl).1 value
  rw [fin1_fin] at rounded
  obtain ⟨neg', sign, -, rounded⟩ := rounded
  obtain rfl : neg' = neg := by
    rw [Bool.eq_iff_iff, sign, ratOf_fin_neg (e := exp) hm]
    exact_mod_cast Iff.rfl
  rw [abs_ratOf_fin_cast] at rounded
  obtain ⟨r, number, top, -, -, -, exactly, -⟩ := rounded (not_overflows_of_lt within)
  rw [flags] at exactly
  refine ⟨r, number, top, flags, ?_⟩
  have := not_not.mp (exactly.not.mp (by decide))
  exact_mod_cast this

/-- An integer of at most the significand's range is a number of the format, which rounding leaves. -/
theorem roundF_whole {f : Fmt} (reg : f.Regular) (rm : Nat) (neg : Bool) {j : ℕ} (small : j ≤ 2 ^ f.m) : ∃ r : ℚ,
    IsNumber f (roundF f rm neg j 0).1 r ∧ (roundF f rm neg j 0).1 / 2 ^ (f.width - 1) = b2n neg ∧ (roundF f rm neg j 0).2 = 0 ∧
      r = ratOf (.fin neg j 0) := by
  have exps := reg.exponents
  by_cases zero : j = 0
  · subst zero
    have code : roundF f rm neg 0 0 = (f.pack neg 0 0, 0) := by rw [roundF, if_pos rfl, signBit_eq_pack]
    rw [code]
    exact ⟨_, isNumber_iff.mpr ⟨neg, 0, 0, by omega, Nat.two_pow_pos _, rfl, rfl⟩, pack_div (Nat.two_pow_pos _) (Nat.two_pow_pos _), rfl,
      by rw [ratOf_fin_eq_zero.mpr rfl, ratOf_fin_eq_zero.mpr (by simp)]⟩
  · have lead : j.log2 ≤ f.m := by
      have := (Nat.log2_lt zero).mpr (small.trans_lt (Nat.pow_lt_pow_right Nat.one_lt_two (Nat.lt_succ_self _)))
      omega
    have room := reg.integers
    refine roundF_exact reg rm neg zero ?_ ?_ <;> unfold leadExp
    · unfold Fmt.emin
      omega
    · unfold Fmt.emax
      omega

/-- FRND gives the integer that its rounding takes for the magnitude, with the number's sign. -/
theorem frndC_number {f : Fmt} (reg : f.Regular) (rm : Nat) {x : Nat} (hx : x < 2 ^ f.width) {n : Bool} {m : Nat} {e : Int}
    (h : decodeF f x = .fin n m e) : ∃ j : ℕ, RoundsInt rm n (m * (2 : ℝ) ^ e) j ∧ IsNumber f (frndC f rm x).1 (ratOf (.fin n j 0)) ∧
      (frndC f rm x).1 / 2 ^ (f.width - 1) = b2n n ∧ (frndC f rm x).2 = 0 := by
  have rounds := (roundAt_spec rm n (sameCell_refl (-1) (m * (2 : ℝ) ^ e)) (q := 0) (by omega)).1
  rw [zpow_zero, div_one] at rounds
  refine ⟨_, rounds, ?_⟩
  obtain ⟨less, -, -⟩ := finite_bounds hx h reg
  by_cases whole : 0 ≤ e
  · obtain ⟨ex, mant, he, hm, code, -, -⟩ := fields_of_finite hx h
    have result : frndC f rm x = (x, 0) := by simp only [frndC, h, if_pos whole]
    have same : ratOf (.fin n (roundAt rm n m e 0).1 0) = ratOf (.fin n m e) := by
      rw [roundAt, if_pos whole, ratOf_fin, ratOf_fin, Nat.cast_mul, pow2_cast (by omega), Int.sub_zero, zpow_zero]
      ring
    rw [result, same]
    exact ⟨⟨hx, by rw [h]; rfl, by rw [h]⟩, by rw [code, pack_div (by omega) hm], rfl⟩
  · have result : frndC f rm x = ((roundF f rm n (roundAt rm n m e 0).1 0).1, 0) := by simp only [frndC, h, if_neg whole]
    have small : (m : ℝ) * 2 ^ e ≤ ((2 ^ f.m : ℕ) : ℝ) := by
      have half : (2 : ℝ) ^ e ≤ 2 ^ (-1 : ℤ) := zpow_le_zpow_right₀ (by norm_num) (by omega)
      have top : (m : ℝ) ≤ ((2 ^ (f.m + 1) : ℕ) : ℝ) := by exact_mod_cast less.le
      calc (m : ℝ) * 2 ^ e ≤ ((2 ^ (f.m + 1) : ℕ) : ℝ) * 2 ^ (-1 : ℤ) := by gcongr
        _ = ((2 ^ f.m : ℕ) : ℝ) := by push_cast; rw [pow_succ, zpow_neg_one]; ring
    obtain ⟨r, number, top, -, rfl⟩ := roundF_whole reg rm n (roundsInt_le rounds small)
    rw [result]
    exact ⟨number, top, rfl⟩

/-- A signed magnitude, and the integer that its rounding takes, as R83 has the modes. -/
theorem roundsInt_modes {rm : Nat} {n : Bool} {m j : ℕ} {e : Int} (h : RoundsInt rm n (m * (2 : ℝ) ^ e) j) :
    let k : ℤ := if n then -j else j
    let v := ratOf (.fin n m e)
    ratOf (.fin n j 0) = k ∧ (rm = 0 → |v - k| ≤ 1 / 2 ∧ (|v - k| = 1 / 2 → k % 2 = 0)) ∧ (rm = 1 → k = if n then ⌈v⌉ else ⌊v⌋) ∧
      (rm = 2 → k = ⌈v⌉) ∧ (rm = 3 → k = ⌊v⌋) := by
  intro k v
  obtain ⟨near, away, toward⟩ := h
  have value : (v : ℝ) = if n then -(m * (2 : ℝ) ^ e) else m * (2 : ℝ) ^ e := by
    rw [ratOf_fin_cast]
    cases n <;> simp
  have ck : (k : ℝ) = if n then -(j : ℝ) else j := by
    unfold k
    cases n <;> simp
  generalize (m : ℝ) * 2 ^ e = t at *
  have ceil (low : (v : ℝ) ≤ k) (high : (k : ℝ) < v + 1) : k = ⌈v⌉ :=
    (Int.ceil_eq_iff.mpr ⟨by rw [sub_lt_iff_lt_add]; exact_mod_cast high, by exact_mod_cast low⟩).symm
  have floor (low : (k : ℝ) ≤ v) (high : (v : ℝ) < k + 1) : k = ⌊v⌋ :=
    (Int.floor_eq_iff.mpr ⟨by exact_mod_cast low, by exact_mod_cast high⟩).symm
  refine ⟨?_, fun zero => ?_, ?_, ?_, ?_⟩
  · unfold k
    cases n <;> simp [ratOf_fin]
  · have dist : ((|v - k| : ℚ) : ℝ) = |t - j| := by
      push_cast
      rw [value, ck]
      cases n
      · rfl
      · rw [if_pos rfl, if_pos rfl, ← abs_neg]
        congr 1
        ring
    obtain ⟨close, tie⟩ := near zero
    have half : (1 / 2 : ℝ) = ((1 / 2 : ℚ) : ℝ) := by norm_num
    rw [← dist, half] at close tie
    refine ⟨Rat.cast_le.mp close, fun eq => ?_⟩
    have even := tie (congrArg Rat.cast eq)
    unfold k
    split <;> omega
  · rintro rfl
    obtain ⟨low, high⟩ := toward one_ne_zero (by simp [roundsAway])
    cases n <;> simp only [if_true, Bool.false_eq_true, if_false] at value ck ⊢
    · exact floor (by linarith) (by linarith)
    · exact ceil (by linarith) (by linarith)
  · rintro rfl
    cases n <;> simp only [if_true, Bool.false_eq_true, if_false] at value ck
    · obtain ⟨low, high⟩ := away (by simp [roundsAway])
      exact ceil (by linarith) (by linarith)
    · obtain ⟨low, high⟩ := toward two_ne_zero (by simp [roundsAway])
      exact ceil (by linarith) (by linarith)
  · rintro rfl
    cases n <;> simp only [if_true, Bool.false_eq_true, if_false] at value ck
    · obtain ⟨low, high⟩ := toward three_ne_zero (by simp [roundsAway])
      exact floor (by linarith) (by linarith)
    · obtain ⟨low, high⟩ := away (by simp [roundsAway])
      exact floor (by linarith) (by linarith)

end Sys2Proof.Machine
end

section
/-! SUPPORT. The float functions on NaNs, infinities and zeros, and what they compute (R97 to R102). -/

namespace Sys2Proof.Machine

open Sys2Proof.Safety

/-! ### Operands that are no numbers, and infinities (R97, R102) -/

theorem exists_fin {x : FVal} (h : x.isFin = true) : ∃ n m e, x = .fin n m e := by
  match x with
  | .fin n m e => exact ⟨n, m, e, rfl⟩
  | .nan _ | .inf _ => exact nomatch h

theorem exists_inf {x : FVal} (h : x.isInf = true) : ∃ n, x = .inf n := by
  match x with
  | .inf n => exact ⟨n, rfl⟩
  | .nan _ | .fin _ _ _ => exact nomatch h

theorem exists_nan {x : FVal} (h : x.isNan = true) : ∃ s, x = .nan s := by
  match x with
  | .nan s => exact ⟨s, rfl⟩
  | .inf _ | .fin _ _ _ => exact nomatch h

/-- A value is a NaN, an infinity or a finite number. -/
theorem isFin_of_not {x : FVal} (nan : x.isNan = false) (inf : x.isInf = false) : x.isFin = true := by
  match x with
  | .fin _ _ _ => rfl
  | .nan _ => exact nomatch nan
  | .inf _ => exact nomatch inf

theorem isSig_of_not_nan {x : FVal} (h : x.isNan = false) : x.isSig = false := by
  match x with
  | .inf _ | .fin _ _ _ => rfl
  | .nan _ => exact nomatch h

section
variable {x y : FVal}

/-- A NaN operand gives the canonical NaN, and NV where one signals. -/
theorem arith_nan (f : Fmt) (rm : Nat) (h : (x.isNan || y.isNan) = true) :
    addV rm x y = (.nan false, flagIf (x.isSig || y.isSig) flagNV) ∧ mulV x y = (.nan false, flagIf (x.isSig || y.isSig) flagNV) ∧
      divV f x y = (.nan false, flagIf (x.isSig || y.isSig) flagNV) := by
  match x, y with
  | .nan _, _ => exact ⟨rfl, rfl, rfl⟩
  | .inf _, .nan s | .fin _ _ _, .nan s => cases s <;> exact ⟨rfl, rfl, rfl⟩
  | .inf _, .inf _ | .inf _, .fin _ _ _ | .fin _ _ _, .inf _ | .fin _ _ _, .fin _ _ _ => exact nomatch h

/-- An infinity in a sum (R97). -/
theorem addV_inf (rm : Nat) (hx : x.isInf = true) (hy : y.isNan = false) :
    addV rm x y = if y.isInf && (x.isNeg != y.isNeg) then (.nan false, flagNV) else (.inf x.isNeg, 0) := by
  obtain ⟨n, rfl⟩ := exists_inf hx
  match y with
  | .inf b => cases n <;> cases b <;> rfl
  | .fin _ _ _ => rfl
  | .nan _ => exact nomatch hy

theorem addV_inf_right (rm : Nat) (hx : x.isFin = true) (hy : y.isInf = true) : addV rm x y = (.inf y.isNeg, 0) := by
  obtain ⟨n, m, e, rfl⟩ := exists_fin hx
  obtain ⟨b, rfl⟩ := exists_inf hy
  rfl

/-- Zero times an infinity. -/
def invalidProduct (x y : FVal) : Bool := x.isInf && y.isZero || x.isZero && y.isInf

theorem mulV_invalid (h : invalidProduct x y = true) : mulV x y = (.nan false, flagNV) := by
  match x, y with
  | .inf _, .fin _ m _ => simp_all [invalidProduct, mulV, FVal.isZero, FVal.isInf]
  | .fin _ m _, .inf _ => simp_all [invalidProduct, mulV, FVal.isZero, FVal.isInf]
  | .nan _, .nan _ | .nan _, .inf _ | .nan _, .fin _ _ _ | .inf _, .nan _ | .fin _ _ _, .nan _ => simp [invalidProduct, FVal.isZero, FVal.isInf] at h
  | .inf _, .inf _ | .fin _ _ _, .fin _ _ _ => simp [invalidProduct, FVal.isZero, FVal.isInf] at h

theorem mulV_inf (nan : (x.isNan || y.isNan) = false) (h : invalidProduct x y = false) (inf : x.isInf = true ∨ y.isInf = true) :
    mulV x y = (.inf (xor x.isNeg y.isNeg), 0) := by
  match x, y with
  | .inf _, .inf _ => rfl
  | .inf _, .fin _ m _ => simp_all [invalidProduct, mulV, FVal.isZero, FVal.isInf, FVal.isNeg]
  | .fin _ m _, .inf _ => simp_all [invalidProduct, mulV, FVal.isZero, FVal.isInf, FVal.isNeg]
  | .fin _ _ _, .fin _ _ _ => simp [FVal.isInf] at inf
  | .nan _, _ | .inf _, .nan _ | .fin _ _ _, .nan _ => simp [FVal.isNan] at nan

theorem flagIf_or (a b : Bool) (w : Word) : flagIf a w ||| flagIf b w = flagIf (a || b) w := by
  cases a <;> cases b <;> simp [flagIf]

/-- What a product is where it is no number, and the flags of any product. -/
theorem mulV_flags (x y : FVal) : (mulV x y).1.isNan = (x.isNan || y.isNan || invalidProduct x y) ∧ (mulV x y).1.isSig = false ∧
    (mulV x y).2 = flagIf (x.isSig || y.isSig || (!(x.isNan || y.isNan) && invalidProduct x y)) flagNV := by
  by_cases nan : (x.isNan || y.isNan) = true
  · rw [(arith_nan fp32 0 nan).2.1, nan]
    exact ⟨rfl, rfl, by simp⟩
  · rw [Bool.not_eq_true] at nan
    have quiet : x.isSig = false ∧ y.isSig = false := by
      simp only [Bool.or_eq_false_iff] at nan
      exact ⟨isSig_of_not_nan nan.1, isSig_of_not_nan nan.2⟩
    by_cases bad : invalidProduct x y = true
    · rw [mulV_invalid bad, nan, bad]
      simp [FVal.isNan, FVal.isSig, flagIf]
    · rw [Bool.not_eq_true] at bad
      by_cases inf : x.isInf = true ∨ y.isInf = true
      · rw [mulV_inf nan bad inf, nan, bad, quiet.1, quiet.2]
        exact ⟨rfl, rfl, rfl⟩
      · simp only [not_or, Bool.not_eq_true, Bool.or_eq_false_iff] at inf nan
        obtain ⟨n₁, m₁, e₁, rfl⟩ := exists_fin (isFin_of_not nan.1 inf.1)
        obtain ⟨n₂, m₂, e₂, rfl⟩ := exists_fin (isFin_of_not nan.2 inf.2)
        rw [(mulV_fin _ _ _ _ _ _).1, bad]
        exact ⟨rfl, rfl, rfl⟩

theorem divV_inf (f : Fmt) (hx : x.isInf = true) (hy : y.isFin = true) : divV f x y = (.inf (xor x.isNeg y.isNeg), 0) := by
  obtain ⟨n, rfl⟩ := exists_inf hx
  obtain ⟨b, m, e, rfl⟩ := exists_fin hy
  rfl

theorem divV_inf_right (f : Fmt) (hx : x.isFin = true) (hy : y.isInf = true) : divV f x y = (.fin (xor x.isNeg y.isNeg) 0 0, 0) := by
  obtain ⟨n, m, e, rfl⟩ := exists_fin hx
  obtain ⟨b, rfl⟩ := exists_inf hy
  rfl

theorem divV_zero (f : Fmt) (hx : x.isFin = true) (nonzero : x.isZero = false) (hy : y.isZero = true) :
    divV f x y = (.inf (xor x.isNeg y.isNeg), flagDZ) := by
  obtain ⟨n, m, e, rfl⟩ := exists_fin hx
  match y with
  | .fin b m' e' => simp_all [divV, FVal.isZero, FVal.isNeg]
  | .nan _ | .inf _ => exact nomatch hy

theorem divV_of_zero (f : Fmt) (hx : x.isZero = true) (hy : y.isFin = true) (nonzero : y.isZero = false) :
    ∃ e, divV f x y = (.fin (xor x.isNeg y.isNeg) 0 e, 0) := by
  obtain ⟨b, m', e', rfl⟩ := exists_fin hy
  match x with
  | .fin n m e => simp_all [divV, FVal.isZero, FVal.isNeg, b2n]
  | .nan _ | .inf _ => exact nomatch hx

theorem divV_invalid (f : Fmt) (h : (x.isInf && y.isInf || x.isZero && y.isZero) = true) : divV f x y = (.nan false, flagNV) := by
  match x, y with
  | .inf _, .inf _ => rfl
  | .fin _ m _, .fin _ m' _ => simp_all [divV, FVal.isZero, FVal.isInf]
  | .inf _, .fin _ _ _ | .fin _ _ _, .inf _ => simp [FVal.isZero, FVal.isInf] at h
  | .nan _, .nan _ | .nan _, .inf _ | .nan _, .fin _ _ _ | .inf _, .nan _ | .fin _ _ _, .nan _ => simp [FVal.isZero, FVal.isInf] at h

end

/-! ### Codes of special values -/

section
variable {f : Fmt} {x : Nat} (hx : x < 2 ^ f.width)
include hx

theorem decodeF_flip : decodeF f (x ^^^ 2 ^ (f.width - 1)) = (decodeF f x).negate := by
  obtain ⟨n, e, m, he, hm, rfl⟩ := exists_pack hx
  rw [pack_flip he hm, decodeF_pack he hm, decodeF_pack he hm]
  split
  · split <;> rfl
  · split <;> rfl

/-- An infinity has one code of each sign. -/
theorem eq_infCode {n : Bool} (h : decodeF f x = .inf n) : x = f.infCode n := by
  obtain ⟨n', e, m, he, hm, rfl⟩ := exists_pack hx
  rw [decodeF_pack he hm] at h
  split at h
  · rename_i top
    split at h
    · rename_i none
      obtain rfl := FVal.inf.inj h
      rw [infCode_eq_pack, top, none]
    · exact nomatch h
  · split at h <;> exact nomatch h

/-- So has zero. -/
theorem eq_signBit {n : Bool} {e : Int} (h : decodeF f x = .fin n 0 e) : x = f.signBit n := by
  obtain ⟨ex, m, -, -, rfl, sig, -⟩ := fields_of_finite hx h
  have pos := Nat.two_pow_pos f.m
  split at sig
  · rename_i zero
    rw [signBit_eq_pack, zero, ← sig]
  · omega

end

/-! ### The operations on codes (R97 to R102) -/

section
variable {f : Fmt} (reg : f.Regular) (rm : Nat) {x y : Nat}

include reg

/-- Finite operands of a sum: one rounding, or a zero with the sign of R97. -/
theorem fin1_addV_fin {a b : FVal} (ha : a.isFin = true) (hb : b.isFin = true) :
    (ratOf a + ratOf b ≠ 0 → RoundsTo f rm ((ratOf a + ratOf b : ℚ) : ℝ) (fin1 f rm (addV rm a b)).1 (fin1 f rm (addV rm a b)).2) ∧
    (ratOf a + ratOf b = 0 → fin1 f rm (addV rm a b) = (f.signBit (if a.isNeg = b.isNeg then a.isNeg else rm == 3), 0)) := by
  obtain ⟨n₁, m₁, e₁, rfl⟩ := exists_fin ha
  obtain ⟨n₂, m₂, e₂, rfl⟩ := exists_fin hb
  obtain ⟨n, m, e, result, value, sign⟩ := addV_fin rm n₁ n₂ m₁ m₂ e₁ e₂
  rw [result, ← value]
  obtain ⟨rounds, zero⟩ := fin1_rounds reg rm (rfl : ratOf (.fin n m e) = _)
  exact ⟨rounds, fun none => by rw [zero none, sign (ratOf_fin_eq_zero.mp none)]; rfl⟩

theorem fmulC_fin (hx : (decodeF f x).isFin = true) (hy : (decodeF f y).isFin = true) :
    let v := ratOf (decodeF f x) * ratOf (decodeF f y)
    (v ≠ 0 → RoundsTo f rm (v : ℝ) (fmulC f rm x y).1 (fmulC f rm x y).2) ∧
    (v = 0 → fmulC f rm x y = (f.signBit (xor (decodeF f x).isNeg (decodeF f y).isNeg), 0)) := by
  obtain ⟨n₁, m₁, e₁, hX⟩ := exists_fin hx
  obtain ⟨n₂, m₂, e₂, hY⟩ := exists_fin hy
  obtain ⟨result, value⟩ := mulV_fin n₁ n₂ m₁ m₂ e₁ e₂
  simp only [fmulC, hX, hY, result, ← value]
  exact fin1_rounds reg rm rfl

omit reg in
/-- A product without flags enters the sum of a fused operation exactly. -/
theorem ffmaC_of_mulV {z : Nat} {p : FVal} (h : mulV (decodeF f x) (decodeF f y) = (p, 0)) :
    ffmaC f rm x y z = fin1 f rm (addV rm p (decodeF f z)) := by
  simp only [ffmaC, h]
  exact congrArg (fin1 f rm) (Prod.ext rfl BitVec.zero_or)

omit reg in
/-- A fused operation that is invalid, or has a NaN operand (R97). -/
theorem ffmaC_nan {z : Nat} (h : ((decodeF f x).isNan || (decodeF f y).isNan || invalidProduct (decodeF f x) (decodeF f y)) = true ∨
    (decodeF f z).isNan = true) : ffmaC f rm x y z = (f.nanCode, flagIf ((decodeF f x).isSig || (decodeF f y).isSig || (decodeF f z).isSig ||
      (!((decodeF f x).isNan || (decodeF f y).isNan) && invalidProduct (decodeF f x) (decodeF f y))) flagNV) := by
  obtain ⟨isNan, quiet, flags⟩ := mulV_flags (decodeF f x) (decodeF f y)
  rw [← isNan] at h
  have sum := (arith_nan f rm (Bool.or_eq_true_iff.mpr h)).1
  simp only [ffmaC, sum, quiet, flags, fin1_nan, flagIf_or, Bool.false_or]
  rw [Bool.or_right_comm]

theorem fdivC_fin (hx : (decodeF f x).isFin = true) (hy : (decodeF f y).isFin = true) (nx : (decodeF f x).isZero = false)
    (ny : (decodeF f y).isZero = false) :
    RoundsTo f rm ((ratOf (decodeF f x) / ratOf (decodeF f y) : ℚ) : ℝ) (fdivC f rm x y).1 (fdivC f rm x y).2 := by
  obtain ⟨n₁, m₁, e₁, hX⟩ := exists_fin hx
  obtain ⟨n₂, m₂, e₂, hY⟩ := exists_fin hy
  rw [hX] at nx
  rw [hY] at ny
  simp only [fdivC, hX, hY]
  exact fin1_div_rounds reg rm (by simpa [FVal.isZero] using nx) (by simpa [FVal.isZero] using ny)

theorem fsqrtC_fin (hx : (decodeF f x).isFin = true) (nx : (decodeF f x).isZero = false) (pos : (decodeF f x).isNeg = false) :
    RoundsTo f rm (Real.sqrt ((ratOf (decodeF f x) : ℚ) : ℝ)) (fsqrtC f rm x).1 (fsqrtC f rm x).2 := by
  obtain ⟨n, m, e, hX⟩ := exists_fin hx
  rw [hX] at nx pos
  obtain rfl : n = false := pos
  simp only [fsqrtC, hX]
  exact fin1_sqrt_rounds reg rm e (by simpa [FVal.isZero] using nx)

omit reg in
theorem fsqrtC_invalid (nan : (decodeF f x).isNan = false) (nx : (decodeF f x).isZero = false) (neg : (decodeF f x).isNeg = true) :
    fsqrtC f rm x = (f.nanCode, flagNV) := by
  have result : sqrtV f (decodeF f x) = (.nan false, flagNV) := by
    match h : decodeF f x with
    | .inf n => rw [h] at neg; obtain rfl : n = true := neg; rfl
    | .fin n m e =>
      rw [h] at neg nx
      obtain rfl : n = true := neg
      have : m ≠ 0 := by simpa [FVal.isZero] using nx
      simp [sqrtV, this]
    | .nan _ => rw [h] at nan; exact nomatch nan
  rw [fsqrtC, result, fin1_nan]

omit reg in
theorem unary_nan (h : (decodeF f x).isNan = true) : fsqrtC f rm x = (f.nanCode, flagIf (decodeF f x).isSig flagNV) ∧
    frndC f rm x = (f.nanCode, flagIf (decodeF f x).isSig flagNV) ∧ ∀ b, fscaleC f rm x b = (f.nanCode, flagIf (decodeF f x).isSig flagNV) := by
  obtain ⟨s, hX⟩ := exists_nan h
  simp [fsqrtC, frndC, fscaleC, hX, sqrtV, fin1_nan, FVal.isSig]

omit reg in
theorem roundAt_zero (n : Bool) (e q : Int) : (roundAt rm n 0 e q).1 = 0 := by
  have rounds := (roundAt_spec rm n (sameCell_refl (q - 1) ((0 : ℕ) * (2 : ℝ) ^ e)) (by omega : q - 1 + 1 ≤ q)).1
  exact Nat.le_zero.mp (roundsInt_le rounds (by simp))

omit reg in
/-- Zeros and infinities are their own integral values, and scale to themselves (R101). -/
theorem unary_self (hx : x < 2 ^ f.width) (h : (decodeF f x).isInf = true ∨ (decodeF f x).isZero = true) :
    frndC f rm x = (x, 0) ∧ ∀ b, fscaleC f rm x b = (x, 0) := by
  obtain inf | zero := h
  · obtain ⟨n, hX⟩ := exists_inf inf
    simp [frndC, fscaleC, hX, ← eq_infCode hx hX]
  · match hX : decodeF f x with
    | .fin n m e =>
      obtain rfl : m = 0 := by rw [hX] at zero; simpa [FVal.isZero] using zero
      have zero (e : Int) : roundF f rm n 0 e = (x, 0) := by rw [roundF, if_pos rfl, ← eq_signBit hx hX]
      simp [frndC, fscaleC, hX, roundAt_zero, zero]
    | .nan _ | .inf _ => rw [hX] at zero; exact nomatch zero

omit reg in
theorem fsqrtC_self (hx : x < 2 ^ f.width) (h : (decodeF f x).isZero = true ∨ decodeF f x = .inf false) : fsqrtC f rm x = (x, 0) := by
  obtain zero | hX := h
  · match hX : decodeF f x with
    | .fin n m e =>
      obtain rfl : m = 0 := by rw [hX] at zero; simpa [FVal.isZero] using zero
      have root : sqrtV f (.fin n 0 e) = (.fin n 0 e, 0) := rfl
      rw [fsqrtC, hX, root, fin1_zero, ← eq_signBit hx hX]
    | .nan _ | .inf _ => rw [hX] at zero; exact nomatch zero
  · simp [fsqrtC, sqrtV, hX, fin1_inf, ← eq_infCode hx hX]

theorem fclassC_eq (hx : x < 2 ^ f.width) : let X := decodeF f x
    fclassC f x = 2 ^ (if X.isNan then (if X.isSig then 8 else 9) else if X.isInf then (if X.isNeg then 0 else 7)
      else if X.isZero then (if X.isNeg then 3 else 4) else if |ratOf X| < (2 : ℚ) ^ f.emin then (if X.isNeg then 2 else 5)
      else if X.isNeg then 1 else 6) := by
  intro X
  match hX : decodeF f x with
  | .nan s => cases s <;> simp [fclassC, X, hX, FVal.isNan, FVal.isSig]
  | .inf n => cases n <;> simp [fclassC, X, hX, FVal.isNan, FVal.isInf, FVal.isNeg]
  | .fin n m e =>
    have sub := finite_subnormal hx hX reg
    by_cases zero : m = 0
    · cases n <;> simp [fclassC, X, hX, zero, FVal.isNan, FVal.isInf, FVal.isZero, FVal.isNeg]
    · by_cases small : m < 2 ^ f.m
      · cases n <;> simp [fclassC, X, hX, zero, sub, small, FVal.isNan, FVal.isInf, FVal.isZero, FVal.isNeg]
      · cases n <;> simp [fclassC, X, hX, zero, sub, small, FVal.isNan, FVal.isInf, FVal.isZero, FVal.isNeg]

end

/-- Settles O17: NaNs, infinities and zeros by the operations on values; every other result is one rounding of the exact number. -/
theorem floatFunctions : Obligations.FloatFunctions := by
  intro fm rm x y z hfm hrm hx hy hz X Y Z nv nan2 invalid side
  have reg := regular_of_vectorFmt hfm
  have nans {a b : FVal} (h : (a.isNan || b.isNan) = false) : a.isNan = false ∧ b.isNan = false := by simpa using h
  refine ⟨fun nan => ?_, fun nan inf => ?_, fun nan fin inf => ?_, fun fX fY => fin1_addV_fin reg rm fX fY, ?_, fun nan bad => ?_, fun nan ok inf => ?_,
    fmulC_fin reg rm, fun bad => ?_, fun nan nanZ ok inf => ?_, fun fX fY => ⟨fun inf => ?_, fun fZ => ?_⟩, fun nan bad => ?_, fun nan infX infY => ?_,
    fun nan infX infY => ?_, fun fX nzX zY => ?_, fun fX fY nzY => ⟨fun nzX => ?_, fun zX => ?_⟩, fun nan => ?_, fun nan nz neg => ?_, fun h => ?_,
    fun fX nz pos => ?_, fun h => ?_, fun fX nz b => ?_, fun fX => ?_, fun c => rfl, fun nan c hc => fcmpC_nan fm nan hc,
    fun nan c hc => fcmpC_number fm (nans nan).1 (nans nan).2 hc, ?_,
    fun m => ⟨fminmaxC_flags fm m, fun nX => (fminmaxC_nan fm m nX).1, fun nX => (fminmaxC_nan fm m nX).2, fun nan lt => ?_, fun nan eq neg pos => ?_⟩⟩
  · obtain ⟨sum, product, quotient⟩ := arith_nan fm rm nan
    exact ⟨(congrArg (fin1 fm rm) sum).trans (fin1_nan _ _ _), (congrArg (fin1 fm rm) product).trans (fin1_nan _ _ _),
      (congrArg (fin1 fm rm) quotient).trans (fin1_nan _ _ _)⟩
  · rw [faddC, addV_inf rm inf (nans nan).2, apply_ite (fin1 fm rm), fin1_nan, fin1_inf]
  · exact (congrArg (fin1 fm rm) (addV_inf_right rm (isFin_of_not (nans nan).1 fin) inf)).trans (fin1_inf _ _ _)
  · rw [fsubC, faddC, decodeF_flip hy]
  · exact (congrArg (fin1 fm rm) (mulV_invalid bad)).trans (fin1_nan _ _ _)
  · exact (congrArg (fin1 fm rm) (mulV_inf nan ok inf)).trans (fin1_inf _ _ _)
  · refine ffmaC_nan rm ?_
    rw [Bool.or_eq_true, or_assoc, or_comm (b := Z.isNan = true)]
    exact bad
  · rw [ffmaC_of_mulV rm (mulV_inf nan ok inf), addV_inf rm rfl nanZ, apply_ite (fin1 fm rm), fin1_nan, fin1_inf]
    rfl
  · obtain ⟨n₁, m₁, e₁, hX⟩ := exists_fin fX
    obtain ⟨n₂, m₂, e₂, hY⟩ := exists_fin fY
    have product : mulV X Y = (.fin (xor n₁ n₂) (m₁ * m₂) (e₁ + e₂), 0) := by rw [hX, hY]; rfl
    rw [ffmaC_of_mulV rm product, addV_inf_right rm rfl inf, fin1_inf]
  · obtain ⟨n₁, m₁, e₁, hX⟩ := exists_fin fX
    obtain ⟨n₂, m₂, e₂, hY⟩ := exists_fin fY
    obtain ⟨product, value⟩ := mulV_fin n₁ n₂ m₁ m₂ e₁ e₂
    rw [← hX, ← hY] at product value
    rw [ffmaC_of_mulV rm product, ← value, hX, hY]
    obtain ⟨rounds, zero⟩ := fin1_addV_fin reg rm (a := .fin (xor n₁ n₂) (m₁ * m₂) (e₁ + e₂)) rfl fZ
    exact ⟨rounds, fun none => (zero none).trans (congrArg (fun n => (fm.signBit n, (0 : Word))) (ite_congr rfl id fun _ => rfl))⟩
  · exact (congrArg (fin1 fm rm) (divV_invalid fm bad)).trans (fin1_nan _ _ _)
  · exact (congrArg (fin1 fm rm) (divV_inf fm infX (isFin_of_not (nans nan).2 infY))).trans (fin1_inf _ _ _)
  · exact (congrArg (fin1 fm rm) (divV_inf_right fm (isFin_of_not (nans nan).1 infX) infY)).trans (fin1_zero _ _ _)
  · exact (congrArg (fin1 fm rm) (divV_zero fm fX nzX zY)).trans (fin1_inf _ _ _)
  · exact fdivC_fin reg rm fX fY nzX nzY
  · obtain ⟨e, zero⟩ := divV_of_zero fm zX fY nzY
    exact (congrArg (fin1 fm rm) zero).trans (fin1_zero _ _ _)
  · exact unary_nan rm nan
  · exact fsqrtC_invalid rm nan nz neg
  · exact fsqrtC_self rm hx h
  · exact fsqrtC_fin reg rm fX nz pos
  · exact unary_self rm hx h
  · obtain ⟨n, m, e, hX⟩ := exists_fin fX
    rw [hX] at nz ⊢
    exact fscaleC_rounds hx hX reg rm (by simpa [FVal.isZero] using nz) b
  · obtain ⟨n, m, e, hX⟩ := exists_fin fX
    obtain ⟨j, rounds, number, top, flags⟩ := frndC_number reg rm hx hX
    obtain ⟨value, modes⟩ := roundsInt_modes rounds
    rw [hX]
    exact ⟨_, value ▸ number, top, flags, modes⟩
  · exact fclassC_eq reg hx
  · exact fminmaxC_of_below fm (nans nan).1 (nans nan).2 (belowV_of_lt (nans nan).1 (nans nan).2 lt) m
  · exact fminmaxC_of_below fm (nans nan).1 (nans nan).2 (belowV_of_zeros (nans nan).1 (nans nan).2 eq neg pos) m

end Sys2Proof.Machine
end

section
/-! SUPPORT. Shifts, bit fields, counts, comparison, selection, addresses and wide constants (R87, R90 to R95). -/

namespace Sys2Proof.Machine

open Sys2Proof.Safety

/-! ### Values -/

/-- The top bit of a number of n bits says whether it is in the upper half. -/
theorem bitN_top {m x : Nat} (hx : x < 2 ^ (m + 1)) : bitN x m = decide (2 ^ m ≤ x) := by
  rw [bitN, Nat.testBit_eq_decide_div_mod_eq, decide_eq_decide]
  have top : x / 2 ^ m < 2 := by
    rw [Nat.div_lt_iff_lt_mul (Nat.two_pow_pos m), ← Nat.pow_succ']
    exact hx
  rw [Nat.mod_eq_of_lt top, ← Nat.one_le_div_iff (Nat.two_pow_pos m)]
  omega

/-- A number of n bits divided by 2^n or more leaves its sign alone. -/
theorem signedN_div_of_lt {m k x : Nat} (hx : x < 2 ^ (m + 1)) (far : m < k) :
    signedN (m + 1) x / ((2 ^ k : Nat) : Int) = if 2 ^ m ≤ x then -1 else 0 := by
  have wide : 2 ^ m * 2 ≤ 2 ^ k := Nat.pow_succ .. ▸ Nat.pow_le_pow_right Nat.two_pos far
  rw [signedN, Nat.mod_eq_of_lt hx]
  rw [Nat.pow_succ] at hx ⊢
  generalize 2 ^ m = p at *
  generalize 2 ^ k = q at *
  split_ifs
  · omega
  · exact Int.ediv_eq_zero_of_lt (by omega) (by omega)
  · rw [Int.ediv_eq_iff_of_pos (by omega)]
    omega
  · omega

theorem wrapN_neg_one (n : Nat) : wrapN n (-1) = 2 ^ n - 1 := by
  have pos := Nat.two_pow_pos n
  rw [wrapN, ← Int.add_emod_right, Int.emod_eq_of_lt (by omega) (by omega)]
  omega

/-- A shift by the width or more leaves the sign in each bit (R91). -/
theorem sarN_eq {n x : Nat} (hn : 0 < n) (hx : x < 2 ^ n) (k : Nat) :
    sarN n x k = ((signedN n x / ((2 ^ k : Nat) : Int)) % ((2 ^ n : Nat) : Int)).toNat := by
  unfold sarN
  split
  next far =>
    obtain ⟨m, rfl⟩ := Nat.exists_eq_succ_of_ne_zero hn.ne'
    rw [Nat.succ_sub_one, bitN_top hx, signedN_div_of_lt hx far]
    simp only [decide_eq_true_eq]
    split
    · exact (wrapN_neg_one _).symm
    · simp
  next => rfl

/-- The number of 1 bits is that of the positions that hold one (R92). -/
theorem popN_eq (n x : Nat) : popN n x = ((List.range n).filter (fun k => bitN x k)).length := by
  induction n generalizing x with
  | zero => rfl
  | succ n ih =>
    have rest : (fun k => bitN x k) ∘ Nat.succ = fun k => bitN (x / 2) k := funext fun k => Nat.testBit_succ x k
    rw [popN, ih, List.range_succ_eq_map, List.filter_cons, List.filter_map, rest, bitN, Nat.testBit_zero]
    rcases Nat.mod_two_eq_zero_or_one x with h | h <;> simp [h, Nat.add_comm]

theorem shiftIn_eq (d : Nat) (c : Bool) : shiftIn d c = (2 * d + b2n c) % 2 ^ 32 := by
  rw [shiftIn, Nat.mul_comm]

theorem wN_pos (f : FArgs) : 0 < wN f := by
  unfold wN nW
  split <;> omega

/-- Settles O11, row by row: what each computes in a lane is the value of its row. -/
theorem shiftFieldResults : Obligations.ShiftFieldResults := by
  intro s a f
  exact ⟨fun r q => gives_of_alu r q rfl fun _ => rfl, fun r q => gives_of_alu r q rfl fun _ => rfl,
    fun r q => gives_of_alu r q rfl fun l => sarN_eq (wN_pos f) (aW_lt a f l) _,
    fun r q => gives_of_alu r q rfl fun _ => rfl, fun r q => gives_of_alu r q rfl fun _ => rfl,
    fun r q => gives_of_alu r q rfl fun _ => rfl, fun r q => gives_of_alu r q rfl fun _ => popN_eq _ _,
    fun r q => gives_of_alu r q rfl fun _ => rfl, fun r q => gives_of_alu r q rfl fun _ => rfl,
    fun r q => gives_of_alu r q rfl fun _ => rfl, fun r q => gives_of_alu r q rfl fun _ => shiftIn_eq _ _,
    fun r q => gives_of_alu r q rfl fun _ => rfl, fun r q => gives_of_alu r q rfl fun _ => rfl,
    fun _ r q => gives_of_alu r q rfl fun _ => rfl⟩

end Sys2Proof.Machine
end

section
/-! SUPPORT. The integer quotient and remainder, and the result with which a long-latency instruction starts (R39, R89). -/

namespace Sys2Proof.Machine

open Sys2Proof.Safety

/-! ### The entry of a long-latency arithmetic instruction -/

theorem getD_map_range {α : Type} (f : Nat → α) (d : α) {n l : Nat} (h : l < n) : ((List.range n).map f).getD l d = f l := by
  simp [List.getD, h]

theorem value_of_map {e : LAEntry} {f : Nat → Nat} {n l : Nat} (plain : e.sext = 0) (values : e.values = (List.range n).map f)
    (within : l < n) : e.value l = f l := by
  have listed : (e.values[l]?).getD 0 = f l := values ▸ getD_map_range f 0 within
  simp only [LAEntry.value, plain, listed, if_pos]

/-- A long-latency arithmetic instruction starts with its values and flags outstanding. -/
theorem longResult_of_aluLong {s : State} {a : Agent} {i : Instr} {d : Reg} {n : Nat} {srcs : List Reg}
    {g : Agent → Nat → Nat × Word} {x : Nat → Nat × Word} (r : Ready s a i) (hx : exec i s = aluLong i s d n srcs g)
    (hg : ∀ l, g a l = x l) : LongResult i s a d n x := by
  obtain rfl : g a = x := funext hg
  refine ⟨_, hx.trans (issue_ready r _), rfl, rfl, rfl, rfl, rfl, rfl, rfl, fun l within acts => ⟨?_, ?_⟩⟩
  · exact (value_of_map (f := fun l => if actsIn a i l then (g a l).1 else 0) rfl rfl within).trans (if_pos acts)
  · exact (getD_map_range _ _ within).trans (if_pos acts)

/-! ### Two's complement -/

theorem signedN_eq {m x : Nat} (hx : x < 2 ^ (m + 1)) :
    signedN (m + 1) x = if x < 2 ^ m then (x : Int) else (x : Int) - 2 * ((2 ^ m : Nat) : Int) := by
  rw [signedN, Nat.mod_eq_of_lt hx, Nat.pow_succ]
  generalize 2 ^ m = p
  split_ifs <;> omega

theorem signedN_bounds {m x : Nat} (hx : x < 2 ^ (m + 1)) :
    -((2 ^ m : Nat) : Int) ≤ signedN (m + 1) x ∧ signedN (m + 1) x < ((2 ^ m : Nat) : Int) := by
  rw [signedN_eq hx]
  rw [Nat.pow_succ] at hx
  generalize 2 ^ m = p at *
  split_ifs <;> omega

/-- Whatever fits n bits is read back from them. -/
theorem signedN_wrapN {m : Nat} {z : Int} (low : -((2 ^ m : Nat) : Int) ≤ z) (high : z < ((2 ^ m : Nat) : Int)) :
    signedN (m + 1) (wrapN (m + 1) z) = z := by
  have mod : z % ((2 ^ (m + 1) : Nat) : Int) = if 0 ≤ z then z else z + 2 * ((2 ^ m : Nat) : Int) := by
    rw [Nat.pow_succ]
    generalize 2 ^ m = p at *
    split_ifs
    · exact Int.emod_eq_of_lt (by omega) (by omega)
    · rw [← Int.add_emod_right, Int.emod_eq_of_lt (by omega) (by omega)]
      omega
  rw [signedN_eq (wrapN_lt _ _), wrapN, mod]
  generalize 2 ^ m = p at *
  split_ifs <;> omega

/-! ### Quotient and remainder -/

/-- A quotient of two numbers of N bits fits N bits, but that of the least one by −1. -/
theorem tdiv_bounds {p : Nat} {a b : Int} (low : -(p : Int) ≤ a) (high : a < p) (corner : ¬ (a = -p ∧ b = -1)) :
    -(p : Int) ≤ Int.tdiv a b ∧ Int.tdiv a b < p := by
  have size : (Int.tdiv a b).natAbs = a.natAbs / b.natAbs := Int.natAbs_tdiv a b
  have less : a.natAbs / b.natAbs ≤ a.natAbs := Nat.div_le_self _ _
  by_cases one : b.natAbs = 1
  · obtain rfl | rfl := Int.natAbs_eq_iff.mp one
    · rw [Nat.cast_one, Int.tdiv_one]
      exact ⟨low, high⟩
    · rw [Nat.cast_one, Int.tdiv_neg, Int.tdiv_one]
      omega
  · by_cases zero : a.natAbs = 0
    · omega
    · have smaller : a.natAbs / b.natAbs < a.natAbs := by
        rcases Nat.eq_zero_or_pos b.natAbs with h | h
        · rw [h, Nat.div_zero]
          omega
        · exact Nat.div_lt_self (by omega) (by omega)
      omega

theorem tmod_bounds {p : Nat} {a b : Int} (low : -(p : Int) ≤ b) (high : b < p) (nonzero : b ≠ 0) :
    -(p : Int) ≤ Int.tmod a b ∧ Int.tmod a b < p := by
  have size : (Int.tmod a b).natAbs = a.natAbs % b.natAbs := Int.natAbs_tmod a b
  have less : a.natAbs % b.natAbs < b.natAbs := Nat.mod_lt _ (by omega)
  omega

theorem divN_zero {u : Bool} {n x : Nat} (hx : x < 2 ^ n) : divN u n x 0 = (2 ^ n - 1, x, flagDZ) := by
  have zero : intOf u n 0 = 0 := by
    unfold intOf signedN
    split
    · simp
    · simp
  rw [divN, if_pos zero, Nat.mod_eq_of_lt hx]

theorem divN_unsigned {n x y : Nat} (hx : x < 2 ^ n) (hy : y < 2 ^ n) (nonzero : y ≠ 0) :
    divN true n x y = (x / y, x % y, 0) := by
  have wrap {z : Nat} (h : z < 2 ^ n) : wrapN n (z : Int) = z := by
    rw [wrapN, ← Int.natCast_emod, Int.toNat_natCast, Nat.mod_eq_of_lt h]
  have rest : (x : Int) - Int.tdiv x y * y = ((x % y : Nat) : Int) := by
    rw [Int.mul_comm, ← Int.tmod_def, Int.ofNat_tmod]
  have quotient : Int.tdiv (x : Int) y = ((x / y : Nat) : Int) := (Int.ofNat_tdiv x y).symm
  simp only [divN, intOf, if_true, Nat.mod_eq_of_lt hx, Nat.mod_eq_of_lt hy]
  rw [if_neg (by omega), rest, quotient, wrap ((Nat.div_le_self x y).trans_lt hx), wrap ((Nat.mod_le x y).trans_lt hx)]

theorem divN_signed {n x y : Nat} (nonzero : signedN n y ≠ 0) : divN false n x y =
    (wrapN n (Int.tdiv (signedN n x) (signedN n y)), wrapN n (Int.tmod (signedN n x) (signedN n y)), 0) := by
  simp only [divN, intOf, Bool.false_eq_true, if_false]
  rw [if_neg nonzero, Int.mul_comm, ← Int.tmod_def]

theorem divN_flag {u : Bool} {n x y : Nat} (nonzero : intOf u n y ≠ 0) : (divN u n x y).2.2 = 0 := by
  rw [divN, if_neg nonzero]

theorem intOf_ne_zero (u : Bool) {n y : Nat} (hy : y < 2 ^ n) (nonzero : y ≠ 0) : intOf u n y ≠ 0 := by
  unfold intOf signedN
  rw [Nat.mod_eq_of_lt hy]
  split
  · omega
  · dsimp only
    split_ifs <;> omega

/-- Division as R89 has it, for numbers of any width. -/
theorem divN_spec (u : Bool) {m x y : Nat} (hx : x < 2 ^ (m + 1)) (hy : y < 2 ^ (m + 1)) :
    (y = 0 → divN u (m + 1) x y = (2 ^ (m + 1) - 1, x, flagDZ)) ∧
    (y ≠ 0 → (divN u (m + 1) x y).2.2 = 0 ∧
      (u = true → divN u (m + 1) x y = (x / y, x % y, 0)) ∧
      (u = false → x = 2 ^ m → y = 2 ^ (m + 1) - 1 → divN u (m + 1) x y = (x, 0, 0)) ∧
      (u = false → ¬ (x = 2 ^ m ∧ y = 2 ^ (m + 1) - 1) →
        signedN (m + 1) (divN u (m + 1) x y).1 = Int.tdiv (signedN (m + 1) x) (signedN (m + 1) y) ∧
        signedN (m + 1) (divN u (m + 1) x y).2.1 = Int.tmod (signedN (m + 1) x) (signedN (m + 1) y))) := by
  have pos := Nat.two_pow_pos m
  have double : 2 ^ (m + 1) = 2 ^ m * 2 := Nat.pow_succ ..
  refine ⟨fun h => h ▸ divN_zero hx, fun nonzero => ⟨divN_flag (intOf_ne_zero u hy nonzero), ?_, ?_, ?_⟩⟩
  · rintro rfl
    exact divN_unsigned hx hy nonzero
  · rintro rfl rfl rfl
    have least : signedN (m + 1) (2 ^ m) = -((2 ^ m : Nat) : Int) := by
      rw [signedN_eq hx, if_neg (lt_irrefl _)]
      omega
    have minusOne : signedN (m + 1) (2 ^ (m + 1) - 1) = -1 := by
      rw [signedN_eq hy, if_neg (by omega)]
      omega
    have wraps : wrapN (m + 1) ((2 ^ m : Nat) : Int) = 2 ^ m := by
      rw [wrapN, Int.emod_eq_of_lt (by omega) (by omega), Int.toNat_natCast]
    have quotient : Int.tdiv (-((2 ^ m : Nat) : Int)) (-1) = ((2 ^ m : Nat) : Int) := by rw [Int.neg_tdiv_neg, Int.tdiv_one]
    have rest : Int.tmod (-((2 ^ m : Nat) : Int)) (-1) = 0 := by rw [Int.tmod_neg, Int.tmod_one]
    rw [divN_signed (by rw [minusOne]; decide), least, minusOne, quotient, rest, wraps]
    rfl
  · rintro rfl corner
    have nonzero' : signedN (m + 1) y ≠ 0 := intOf_ne_zero false hy nonzero
    have apart : ¬ (signedN (m + 1) x = -((2 ^ m : Nat) : Int) ∧ signedN (m + 1) y = -1) := by
      rintro ⟨least, minusOne⟩
      rw [signedN_eq hx] at least
      rw [signedN_eq hy] at minusOne
      generalize 2 ^ m = p at *
      split_ifs at least minusOne <;> omega
    obtain ⟨xLow, xHigh⟩ := signedN_bounds hx
    obtain ⟨yLow, yHigh⟩ := signedN_bounds hy
    obtain ⟨qLow, qHigh⟩ := tdiv_bounds xLow xHigh apart
    obtain ⟨rLow, rHigh⟩ := tmod_bounds (a := signedN (m + 1) x) yLow yHigh nonzero'
    rw [divN_signed nonzero']
    exact ⟨signedN_wrapN qLow qHigh, signedN_wrapN rLow rHigh⟩

/-- Settles O13: the entry holds quotient or remainder, which are those of the integers. -/
theorem division : Obligations.Division := by
  intro s a f
  refine ⟨fun r => longResult_of_aluLong r rfl fun _ => rfl, fun r => longResult_of_aluLong r rfl fun _ => rfl, ?_⟩
  rintro u n x y (rfl | rfl) hx hy
  · exact divN_spec u hx hy
  · exact divN_spec u hx hy

end Sys2Proof.Machine
end

section
/-! SUPPORT. The float instructions of the vector core, element by element (R83, R85, R96, R98, R99). -/

namespace Sys2Proof.Machine

open Sys2Proof.Safety

/-! ### Signs -/

theorem fA_lt (a : Agent) (f : FArgs) (l : Nat) : fA a f l < 2 ^ (32 * nT f) := rdN_lt _ _ _ _

theorem fT_cases (m : BitVec 6) : fT m = 0 ∨ fT m = 1 ∨ fT m = 2 ∨ fT m = 3 := by
  have : fT m < 4 := Nat.mod_lt _ (by decide)
  omega

/-- The sign bits of a packed value are cleared by clearing that of each half. -/
theorem halves_and (x : Nat) :
    fieldN x 0 16 % 2 ^ 15 + 2 ^ 16 * (fieldN x 16 16 % 2 ^ 15) = x &&& (2 ^ 32 - 1 - 0x80008000) := by
  have low : (x &&& (2 ^ 32 - 1 - 0x80008000)) % 2 ^ 16 = x % 2 ^ 15 := by
    rw [Nat.and_mod_two_pow, ← Nat.and_two_pow_sub_one_eq_mod x 15, ← Nat.and_two_pow_sub_one_eq_mod x 16, Nat.and_assoc]
    rfl
  have high : (x &&& (2 ^ 32 - 1 - 0x80008000)) / 2 ^ 16 = x / 2 ^ 16 % 2 ^ 15 := by
    rw [Nat.and_div_two_pow, ← Nat.and_two_pow_sub_one_eq_mod (x / 2 ^ 16) 15]
    rfl
  rw [← Nat.mod_add_div (x &&& (2 ^ 32 - 1 - 0x80008000)) (2 ^ 16), low, high, fieldN, fieldN, Nat.shiftRight_zero,
    Nat.shiftRight_eq_div_pow]
  omega

/-- The sign bits of a packed value are inverted by inverting that of each half. -/
theorem halves_xor {x : Nat} (hx : x < 2 ^ 32) :
    (fieldN x 0 16 ^^^ 2 ^ 15) + 2 ^ 16 * (fieldN x 16 16 ^^^ 2 ^ 15) = x ^^^ 0x80008000 := by
  have low : (x ^^^ 0x80008000) % 2 ^ 16 = x % 2 ^ 16 ^^^ 2 ^ 15 := Nat.xor_mod_two_pow
  have high : (x ^^^ 0x80008000) / 2 ^ 16 = x / 2 ^ 16 ^^^ 2 ^ 15 := Nat.xor_div_two_pow
  rw [← Nat.mod_add_div (x ^^^ 0x80008000) (2 ^ 16), low, high, fieldN, fieldN, Nat.shiftRight_zero, Nat.shiftRight_eq_div_pow,
    Nat.mod_eq_of_lt (show x / 2 ^ 16 < 2 ^ 16 by omega)]

theorem and_below_top {n x : Nat} : x &&& (2 ^ (n + 1) - 1 - 2 ^ n) = x % 2 ^ n := by
  rw [show 2 ^ (n + 1) - 1 - 2 ^ n = 2 ^ n - 1 by rw [Nat.pow_succ]; omega, Nat.and_two_pow_sub_one_eq_mod]

/-- FABS clears the sign bits of its type (R98). -/
theorem fabs_lane (a : Agent) (f : FArgs) (l : Nat) :
    float1 f (fun fm _ x => (x % 2 ^ (fm.width - 1), 0)) a l = (fA a f l &&& (2 ^ (32 * nT f) - 1 - signBits f), 0) := by
  unfold float1 perElem elemOf signBits nT
  generalize fA a f l = x
  rcases fT_cases f.mod with t | t | t | t <;> simp only [t]
  · exact Prod.ext (and_below_top (n := 31)).symm rfl
  · exact Prod.ext (and_below_top (n := 63)).symm rfl
  · exact Prod.ext (halves_and x) rfl
  · exact Prod.ext (halves_and x) rfl

/-- FNEG inverts the sign bits of its type (R98). -/
theorem fneg_lane (a : Agent) (f : FArgs) (l : Nat) :
    float1 f (fun fm _ x => (x ^^^ 2 ^ (fm.width - 1), 0)) a l = (fA a f l ^^^ signBits f, 0) := by
  have small := fA_lt a f l
  unfold float1 perElem elemOf signBits nT at *
  generalize fA a f l = x at *
  rcases fT_cases f.mod with t | t | t | t <;> simp only [t] at small ⊢
  · exact Prod.ext rfl rfl
  · exact Prod.ext rfl rfl
  · exact Prod.ext (halves_xor small) rfl
  · exact Prod.ext (halves_xor small) rfl

/-! ### Instructions that write a value and flags computed per lane -/

section
variable {s : State} {a : Agent} {i : Instr} {d : Reg} {n : Nat} (r : Ready s a i) (q : Quiet s a i)
include r q

theorem givesFlags_of_aluFlags {g : Agent → Nat → Nat × Word} {x : Nat → Nat × Word} (hx : exec i s = aluFlags i s d n g)
    (hg : ∀ l, g a l = x l) : GivesFlags i s a d n x := by
  obtain rfl : g a = x := funext hg
  obtain ⟨t, b, ht, -, hpc, -, holds, -, flags⟩ := issues_wrFlags r q hx
  exact ⟨t, b, ht, hpc, holds, flags⟩

/-- The same of an instruction whose lanes set no flag. -/
theorem keepsFlags_of_aluFlags {g : Agent → Nat → Nat × Word} {x : Nat → Nat} (hx : exec i s = aluFlags i s d n g)
    (hg : ∀ l, g a l = (x l, 0)) :
    ∃ t b, Issues i s t b ∧ b.pc = nextPc a i ∧ b.fstat = a.fstat ∧ Holds a b d n (actsIn a i) x := by
  obtain ⟨t, b, ht, hpc, holds, flags⟩ := givesFlags_of_aluFlags r q hx hg
  exact ⟨t, b, ht, hpc, by rw [flags, orLanes_zero]; exact BitVec.or_zero, holds⟩

end

/-- Settles O16, instruction by instruction. -/
theorem floatResults : Obligations.FloatResults := by
  intro s a f
  refine ⟨fun r q => givesFlags_of_aluFlags r q rfl fun _ => rfl, fun r q => givesFlags_of_aluFlags r q rfl fun _ => rfl,
    fun r q => givesFlags_of_aluFlags r q rfl fun _ => rfl, fun r q => givesFlags_of_aluFlags r q rfl fun _ => rfl, ?_,
    fun r q => givesFlags_of_aluFlags r q rfl fun _ => Prod.ext (shiftIn_eq _ _) rfl,
    fun r q => givesFlags_of_aluFlags r q rfl fun _ => rfl, fun r q => givesFlags_of_aluFlags r q rfl fun _ => rfl,
    fun r q => givesFlags_of_aluFlags r q rfl fun _ => rfl, fun r q => keepsFlags_of_aluFlags r q rfl (fabs_lane a f),
    fun r q => keepsFlags_of_aluFlags r q rfl (fneg_lane a f)⟩
  rintro i m (⟨rfl, rfl⟩ | ⟨rfl, rfl⟩) r q
  · exact givesFlags_of_aluFlags r q rfl fun _ => rfl
  · exact givesFlags_of_aluFlags r q rfl fun _ => rfl

end Sys2Proof.Machine
end

section
/-! SUPPORT. The cross-lane instructions: what each active lane, or the one s destination, gets (R108 to R113). -/

namespace Sys2Proof.Machine

open Sys2Proof.Safety

theorem isS_of_lt {d : Reg} (h : d.toNat < 192) : isS d = false := decide_eq_false (by omega)

theorem isS_of_le {d : Reg} (h : 192 ≤ d.toNat) : isS d = true := decide_eq_true h

/-- A v destination gets its value in the active lanes. -/
theorem holds_wrCross_v (a : Agent) (i : Instr) {d : Reg} (n : Nat) (x : Nat → Nat) (v : d.toNat < 192) :
    Holds a (wrCross a i d n x) d n (crossActive a i) x := by
  intro j l hj hl hv
  rw [wrCross, if_neg (Bool.eq_false_iff.mp (isS_of_lt v)), regGet_wrN n a d.toNat j l _ hj hl hv]
  by_cases fixed : fixedReg (d.toNat + j)
  · simp [fixed]
  · by_cases active : crossActive a i l <;> simp [fixed, active]

/-- An s destination gets the value of the first active lane. -/
theorem holds_wrCross_s {a : Agent} {i : Instr} {d : Reg} {l : Nat} {ls : List Nat} (n : Nat) (x : Nat → Nat) (sreg : 192 ≤ d.toNat)
    (first : crossLanes a i = l :: ls) : Holds a (wrCross a i d n x) d n (fun _ => true) (fun _ => x l) := by
  intro j k hj hk hv
  rw [wrCross, if_pos (isS_of_le sreg), first]
  dsimp only
  rw [regGet_wrN n a d.toNat j k _ hj hk hv]
  by_cases fixed : fixedReg (d.toNat + j) <;> simp [fixed]

theorem holds_congr {a b c : Agent} {d : Reg} {n : Nat} {acts : Nat → Bool} {x : Nat → Nat} (h : Holds a b d n acts x)
    (hv : c.vregs = b.vregs) (hs : c.sregs = b.sregs) : Holds a c d n acts x :=
  fun j l hj hl hv' => (regGet_congr hv hs (d.toNat + j) l).trans (h j l hj hl hv')

section
variable {s : State} {a : Agent} {i : Instr} (r : Ready s a i) (q : Quiet s a i)
include r q

/-- An instruction that writes a cross-lane result and sets flags. -/
theorem crosses_onAgent {d : Reg} {n : Nat} {x : Nat → Nat × Word} {w : Word} {f : Agent → Agent} (hx : exec i s = issue i s (onAgent f))
    (hf : f a = { wrCross a i d n (fun l => (x l).1) with fstat := (wrCross a i d n (fun l => (x l).1)).fstat ||| w }) :
    Crosses i s a d n x w := by
  have only := wrCross_only a i d n (fun l => (x l).1)
  have windows : (f a).lahead = a.lahead := by rw [hf]; exact (congrArg Agent.lahead only :)
  have flags : (f a).fstat = a.fstat ||| w := by rw [hf]; exact (congrArg (fun y : Agent => y.fstat ||| w) only :)
  obtain ⟨t, b, ht, hb, frame, hpc, hv, hs, hfl, -⟩ := issue_onAgent r q f windows
  have written : b.vregs = (wrCross a i d n (fun l => (x l).1)).vregs ∧ b.sregs = (wrCross a i d n (fun l => (x l).1)).sregs := by
    rw [hv, hs, hf]
    exact ⟨rfl, rfl⟩
  obtain ⟨vs, ss⟩ := written
  have kept := regsKept_congr (regsKept_wrCross a i d n (fun l => (x l).1)) vs ss
  refine ⟨t, b, ⟨hx.trans ht, hb⟩, frame, hpc, hfl.trans flags, fun v => ⟨?_, ?_⟩, fun sreg => ⟨fun l ls first => ?_, ?_⟩⟩
  · exact holds_congr (holds_wrCross_v a i n _ v) vs ss
  · simp only [isS_of_lt v, Bool.false_eq_true, if_false] at kept
    exact kept
  · exact holds_congr (holds_wrCross_s n (fun l => (x l).1) sreg first) vs ss
  · simp only [isS_of_le sreg, if_true] at kept
    exact kept

/-- The same of an instruction that sets no flag. -/
theorem crosses_plain {d : Reg} {n : Nat} {x : Nat → Nat} {f : Agent → Agent} (hx : exec i s = issue i s (onAgent f))
    (hf : f a = wrCross a i d n x) : Crosses i s a d n (fun l => (x l, 0)) 0 := by
  refine crosses_onAgent r q hx (hf.trans ?_)
  rw [show (wrCross a i d n x).fstat ||| 0 = (wrCross a i d n x).fstat from BitVec.or_zero]

/-- The same of one that gives a mask of lanes to registers that may hold it (R111). -/
theorem crosses_mask {d : Reg} {x : Agent → Nat → Nat} (whole : maskBad a d = false)
    (hx : exec i s = issue i s (fun s b => if maskBad b d then .trap .reservedField 0 else .go (s.setMe (wrCross b i d (maskRegs b) (x b))))) :
    Crosses i s a d (maskRegs a) (fun l => (x a l, 0)) 0 := by
  refine crosses_plain r q (f := fun b => wrCross b i d (maskRegs b) (x b)) (hx.trans ?_) rfl
  simp [issue_ready r, onAgent, whole]

end

theorem lane_sub_strandBase (a : Agent) (l : Nat) : l - strandBase a l = l % a.strand := by
  rw [strandBase, Nat.mul_comm, ← Nat.mod_eq_sub_mul_div]

/-- A mask of 64 lanes has no place in an odd register, or at the end of the allotment (R111). -/
theorem traps_mask {s : State} {a : Agent} {i : Instr} {d : Reg} {x : Agent → Nat → Nat} (r : Ready s a i) (bad : maskBad a d = true)
    (hx : exec i s = issue i s (fun s b => if maskBad b d then .trap .reservedField 0 else .go (s.setMe (wrCross b i d (maskRegs b) (x b))))) :
    Traps i s .reservedField 0 := traps_of_body r hx (if_pos bad)

/-- Settles O18, instruction by instruction. -/
theorem crossLaneResults : Obligations.CrossLaneResults := by
  intro s a f _
  refine ⟨fun r q => crosses_plain r q rfl ?_, fun r q => crosses_plain r q rfl rfl, fun r q whole => crosses_mask r q whole rfl,
    fun r q whole => crosses_mask r q whole rfl, ?_, fun r q => crosses_plain r q rfl ?_,
    fun r q => crosses_onAgent r q rfl rfl, fun r q => crosses_onAgent r q rfl rfl⟩
  · simp only [lane_sub_strandBase]
  · rintro i (rfl | rfl) r bad
    · exact traps_mask r bad rfl
    · exact traps_mask r bad rfl
  · simp only [shiftIn_eq]
    rfl

end Sys2Proof.Machine
end

section
/-! SUPPORT. Reads and writes of system registers by instructions (R85, R330, R353). -/

namespace Sys2Proof.Machine

open Sys2Proof.Safety

/-- An instruction starts with a result outstanding that sets no flag. -/
theorem longFrom_of_body {i : Instr} {s t : State} {a : Agent} {body : State → Agent → Act} {d : Reg} {n : Nat}
    {x : Nat → Nat} (r : Ready s a i) (runs : exec i s = issue i s body)
    (act : body s a = .long t (mkEntry a i d n false false [] x)) : LongFrom i s a t d n (fun l => (x l, 0)) := by
  have starts : Starts i s a t (mkEntry a i d n false false [] x) := by rw [Starts, runs, issue_ready r, act]
  refine ⟨_, starts, rfl, rfl, rfl, rfl, rfl, rfl, rfl, fun l within acts => ⟨?_, rfl⟩⟩
  exact (value_of_map (f := fun l => if actsIn a i l then x l else 0) rfl rfl within).trans (if_pos acts)

theorem gone_of_body {i : Instr} {s t : State} {a : Agent} {body : State → Agent → Act} (r : Ready s a i)
    (runs : exec i s = issue i s body) (act : body s a = .gone t) : exec i s = .next t.marked := by rw [runs, issue_ready r, act]

section
variable {s : State} {a : Agent} {f : FArgs} {reg : SysReg} (named : SysReg.ofNum f.b.toNat = some reg)
include named

/-! ### RDSYS -/

theorem rdsys_starts (r : Ready s a (.rdsys f)) (on : guardOn a (.rdsys f) = true)
    (small : mb f.mod 0 = true → reg ≠ .routePair → rd1 a f.a 0 ≤ 511) (due : reg = .fstat → flagsDue s a = false) :
    LongFrom (.rdsys f) s a (if reg = .reftime then s.setMe { a with lastRef := refSeen s a } else s) f.d (if mb f.mod 1 then 2 else 1)
      (fun _ => (sysRead s a (mb f.mod 0) (rd1 a f.a 0) reg, 0)) := by
  have inRange : (mb f.mod 0 && reg != .routePair && decide (511 < rd1 a f.a 0)) = false := by
    rw [Bool.and_eq_false_imp, Bool.and_eq_true, bne_iff_ne]
    rintro ⟨rm, other⟩
    exact decide_eq_false (Nat.not_lt.mpr (small rm other))
  have settled : (reg == .fstat && flagsDue s a) = false := by
    rw [Bool.and_eq_false_imp, beq_iff_eq]
    exact due
  refine longFrom_of_body r (by rfl) ?_
  simp [named, on, inRange, settled]

theorem rdsys_traps (r : Ready s a (.rdsys f)) (on : guardOn a (.rdsys f) = true) (rm : mb f.mod 0 = true) (other : reg ≠ .routePair)
    (far : 511 < rd1 a f.a 0) : Traps (.rdsys f) s .reservedField 0 := by
  refine traps_of_body r (by rfl) ?_
  simp [named, on, rm, other, far]

theorem rdsys_off (r : Ready s a (.rdsys f)) (off : guardOn a (.rdsys f) = false) :
    LongFrom (.rdsys f) s a s f.d (if mb f.mod 1 then 2 else 1) (fun _ => (0, 0)) := by
  refine longFrom_of_body r (by rfl) ?_
  simp only [named, off, Bool.not_false, if_true]

/-! ### WRSYS -/

/-- What WRSYS writes to its register: both words, or the low one (R330). -/
def sysWritten (s : State) (a : Agent) (f : FArgs) (reg : SysReg) : Nat :=
  if mb f.mod 1 then rdN a f.a.toNat 2 0
  else if reg.is64 then sysRead s a false 0 reg / 2 ^ 32 * 2 ^ 32 + rd1 a f.a 0 else rd1 a f.a 0

/-- The state once WRSYS has written. -/
def afterWrsys (s : State) (a : Agent) (f : FArgs) (reg : SysReg) : State :=
  sysWrite s (mb f.mod 0) (rd1 a f.d 0) (sysWritten s a f reg) reg

theorem wrsys_goesOn (r : Ready s a (.wrsys f)) (on : guardOn a (.wrsys f) = true)
    (there : (Tab.find (afterWrsys s a f reg).agents s.cur).isSome = true) : GoesOn (.wrsys f) s a (afterWrsys s a f reg) := by
  refine goesOn_of_body r (by rfl) ?_
  simp only [named, on, Bool.not_true, Bool.false_eq_true, if_false]
  have present : ¬ (Tab.find (afterWrsys s a f reg).agents s.cur).isNone = true := by
    rwa [Option.isNone_iff_eq_none, ← ne_eq, ← Option.isSome_iff_ne_none]
  exact if_neg present

/-- WRSYS that does away with its own agent. -/
theorem wrsys_gone (r : Ready s a (.wrsys f)) (on : guardOn a (.wrsys f) = true)
    (gone : Tab.find (afterWrsys s a f reg).agents s.cur = none) : exec (.wrsys f) s = .next (afterWrsys s a f reg).marked := by
  refine gone_of_body r (by rfl) ?_
  simp only [named, on, Bool.not_true, Bool.false_eq_true, if_false]
  exact if_pos (Option.isNone_iff_eq_none.mpr gone)

theorem wrsys_off (r : Ready s a (.wrsys f)) (off : guardOn a (.wrsys f) = false) : GoesOn (.wrsys f) s a s := by
  refine goesOn_of_body r (by rfl) ?_
  simp only [named, off, Bool.not_false, if_true]

end

/-- Settles O47: RDSYS with its guard true, out of range and with its guard false, then WRSYS that goes on, that ends its agent, and
with its guard false. -/
theorem systemRegisterAccess : Obligations.SystemRegisterAccess := by
  intro s a f reg named
  refine ⟨rdsys_starts named, rdsys_traps named, rdsys_off named, fun v t r on hv ht => ?_, wrsys_off named⟩
  obtain rfl : v = sysWritten s a f reg := hv
  obtain rfl : t = afterWrsys s a f reg := ht
  exact ⟨wrsys_goesOn named r on, wrsys_gone named r on⟩

end Sys2Proof.Machine
end

section
/-! SUPPORT. The end of a team, and its child grids (R117 to R120, R301). -/

namespace Sys2Proof.Machine

open Sys2Proof.Safety

/-! ### EXIT -/

/-- A close that completes at once is followed by what comes after it (R232). -/
theorem beforeClose_releases {s w : State} {sc : Nat} (next : State → Act) (h : Releases s w sc) :
    beforeClose s sc (fun s => if !closeNowFree s s.cur then .wait s
      else if closesPending (closeNow s s.cur sc) (closeNow s s.cur sc).cur then .wait (closeNow s s.cur sc)
      else next (closeNow s s.cur sc)) = next w := by
  obtain ⟨placeable, free, rfl, complete⟩ := h
  have nothing : (if 2 ≤ sc then unplaceable (beginClose s) (beginClose s).cur else none) = none := by
    split
    · exact placeable ‹_›
    · rfl
  have idle : closesPending (beginClose s) (beginClose s).cur = false ∧ openBundle (beginClose s) (beginClose s).cur = none := by
    simp only [closeNowFree, Bool.and_eq_true, Bool.not_eq_true', Option.isNone_iff_eq_none] at free
    obtain ⟨⟨⟨pending, -⟩, -⟩, bundle⟩ := free
    exact ⟨pending, bundle⟩
  obtain ⟨pending, bundle⟩ := idle
  simp only [beforeClose, nothing, pending, bundle, Option.isSome_none, Bool.or_self, free, complete, Bool.not_true, Bool.false_eq_true,
    if_false]

theorem exit_gone {s w : State} {a : Agent} {f : FArgs} (r : Ready s a (.exit f)) (on : guardOn a (.exit f) = true) (queue : a.mxq = [])
    (errors : a.mxErrors = []) (finished : a.lahead.all (·.done) = true)
    (tiles : (s.core a.core).tileQueue.any (fun x => x.agent == s.cur) = false) (release : Releases (joinMx s s.cur (fun _ => true)) w 1) :
    exec (.exit f) s = .next (dropAgent w w.cur).marked := by
  have ended : a.lahead.any (fun e => !e.done) = false := by
    rw [← List.not_all_eq_any_not, finished]
    rfl
  refine gone_of_body r (by rfl) ?_
  simp only [on, queue, errors, ended, tiles, List.isEmpty_nil, Bool.not_true, Bool.or_self, Bool.false_eq_true, if_false]
  exact beforeClose_releases (fun w => .gone (dropAgent w w.cur)) release

/-! ### LAUNCH -/

theorem launch_none {s : State} {a : Agent} {f : FArgs} (r : Ready s a (.launch f))
    (nothing : actLanes a (.launch f) = [] ∨ a.mask = 0) : GoesOn (.launch f) s a s := by
  refine goesOn_of_body r (by rfl) ?_
  obtain noLane | noMask := nothing
  · simp only [noLane]
  · split
    · rfl
    · exact if_pos noMask

/-- LAUNCH with a lane to act in comes to the address of the first. -/
theorem exec_launch {s : State} {a : Agent} {f : FArgs} {l : Nat} {ls : List Nat} (r : Ready s a (.launch f))
    (lanes : actLanes a (.launch f) = l :: ls) (masked : a.mask ≠ 0) :
    exec (.launch f) s = issue (.launch f) s (fun s a => launchAt f s a (rdN a f.a.toNat 2 l)) := by
  change execLaunch f s = _
  rw [execLaunch, issue_ready r, issue_ready r]
  simp only [lanes, masked, if_false]

/-! ### What a read at issue leaves as it is -/

section
variable {s u : State} {a b : Agent} {x : Except ReadFail (List Byte × List Nat)} {bs : List Byte} (reads : ReadsNow s a x bs u b)
include reads

/-- A read at issue takes free values and changes nothing else of the state (R123). -/
theorem readsNow_state : { u with freeCtr := s.freeCtr } = s := by
  obtain ⟨locs, -, -, rfl, -⟩ := reads
  unfold readUsed
  split <;> rfl

theorem readsNow_grids : u.grids = s.grids := (congrArg State.grids (readsNow_state reads) :)

theorem readsNow_cur : u.cur = s.cur := (congrArg State.cur (readsNow_state reads) :)

theorem readsNow_recordOk (rec : List Byte) (child : Bool) : recordOk u rec child = recordOk s rec child :=
  (congrArg (recordOk · rec child) (readsNow_state reads) :)

theorem readsNow_childHandle : childHandle u = childHandle s := (congrArg childHandle (readsNow_state reads) :)

end

/-! ### The child grid -/

/-- The live child grids, which LAUNCH counts (R301). -/
abbrev liveChildren (s : State) : Nat := (s.grids.filter (fun e => e.2.parent.isSome && !e.2.done)).length

/-- The state, and the agent, once LAUNCH has taken the handle `h` for a child (R119). -/
abbrev numbered (u : State) (h : Nat) : State := { u with nextChild := h + 1 }
abbrev named (b : Agent) (f : FArgs) (h : Nat) : Agent := wrN b f.d.toNat 1 (fun _ => some h)

theorem named_refused (b : Agent) (f : FArgs) (h : Nat) : (named b f h).refused = b.refused :=
  (congrArg Agent.refused (wrN_only 1 b f.d.toNat (fun _ => some h)) :)

/-- The parent of the child `h` has what it posted performed (R119). -/
def parentPosted (u : State) (b : Agent) (f : FArgs) (h : Nat) : State := drainAll ((numbered u h).setMe (named b f h)) u.cur

/-- The fork of a child: then what the device has closed goes home (R225). -/
def forked (u : State) (a b : Agent) (f : FArgs) (h : Nat) : State :=
  pushAll (parentPosted u b f h) (parentPosted u b f h).cur a.asid

theorem parentPosted_cur (u : State) (b : Agent) (f : FArgs) (h : Nat) : (parentPosted u b f h).cur = u.cur :=
  (kept_drainPosted ((numbered u h).setMe (named b f h)) u.cur (fun _ => true)).1

theorem forked_cur (u : State) (a b : Agent) (f : FArgs) (h : Nat) : (forked u a b f h).cur = u.cur :=
  (kept_pushAll (g := lanesOf) _ _ _).1.trans (parentPosted_cur u b f h)

/-- The child `h` that LAUNCH of the agent `a` makes at its fork `v` (R301). -/
def withChild (a : Agent) (v : State) (rec : List Byte) (h : Nat) : State :=
  addGrid v v.nextOrder rec a.asid h (a.depth + 1) (max (recPrio rec) a.prio) (some (v.cur, a.wg, a.grid)) none
    (liveProducer v a.asid rec) (privateView v v.me)

/-- The child is in the distributor, and nothing else differs from its fork (R301). -/
theorem withChild_forked {u : State} {k h : Nat} (a b : Agent) (f : FArgs) (rec : List Byte) (cur : u.cur = k) :
    let v := pushAll (drainAll ((numbered u h).setMe (named b f h)) k) k a.asid
    let t := withChild a (forked u a b f h) rec h
    { t with grids := v.grids, nextOrder := v.nextOrder } = v ∧
      ∃ g, Tab.find t.grids v.nextOrder = some g ∧ g.record = rec ∧ g.gridId = BitVec.ofNat 32 h ∧ g.asid = a.asid ∧ g.depth = a.depth + 1 ∧
        g.prio = max (recPrio rec) a.prio ∧ g.parent = some (k, a.wg, a.grid) ∧ g.view = privateView v v.me := by
  subst cur
  have same : forked u a b f h = pushAll (drainAll ((numbered u h).setMe (named b f h)) u.cur) u.cur a.asid := by
    rw [forked, parentPosted_cur, parentPosted]
  have parent := forked_cur u a b f h
  rw [← same]
  generalize forked u a b f h = v at parent ⊢
  exact ⟨rfl, _, Tab.find_put_same .., rfl, rfl, rfl, rfl, rfl, parent ▸ rfl, rfl⟩

/-- What LAUNCH at a level above the last does, with room for a child. -/
theorem launch_taken {s u : State} {a b : Agent} {f : FArgs} {l : Nat} {rec : List Byte} (aligned : rdN a f.a.toNat 2 l % 256 = 0)
    (reads : ReadsNow s a (readAtIssue s a (rdN a f.a.toNat 2 l) 256) rec u b) (shallow : a.depth ≠ 10)
    (room : liveChildren s < 4096) :
    launchAt f s a (rdN a f.a.toNat 2 l) =
    if recordOk s rec true then .go (withChild a (forked u a b f (childHandle s)) rec (childHandle s))
    else .go ((numbered u (childHandle s)).setMe { named b f (childHandle s) with refused := b.refused + 1 }) := by
  have notFull : ¬ 4096 ≤ liveChildren u := by
    rw [liveChildren, readsNow_grids reads]
    exact Nat.not_le.mpr room
  rw [launchAt, if_neg (not_not_intro aligned), withRead_readsNow reads, ← readsNow_recordOk reads, ← readsNow_childHandle reads,
    ← named_refused b f]
  exact (if_neg shallow).trans (if_neg notFull)

section
variable {s u : State} {a b : Agent} {f : FArgs} {l : Nat} {ls : List Nat} {rec : List Byte} (r : Ready s a (.launch f))
  (lanes : actLanes a (.launch f) = l :: ls) (masked : a.mask ≠ 0)
include r lanes masked

theorem launch_misaligned (crooked : rdN a f.a.toNat 2 l % 256 ≠ 0) : Traps (.launch f) s .misaligned (rdN a f.a.toNat 2 l) :=
  traps_of_body r (exec_launch r lanes masked) (if_pos crooked)

section
variable (aligned : rdN a f.a.toNat 2 l % 256 = 0) (reads : ReadsNow s a (readAtIssue s a (rdN a f.a.toNat 2 l) 256) rec u b)
include aligned reads

theorem launch_deep (deep : a.depth = 10) : Traps (.launch f) s .nestDepth 0 := by
  refine traps_of_body r (exec_launch r lanes masked) ?_
  rw [launchAt, if_neg (not_not_intro aligned), withRead_readsNow reads]
  exact if_pos deep

theorem launch_full (shallow : a.depth ≠ 10) (full : 4096 ≤ liveChildren s) : exec (.launch f) s = .next (u.setMe u.me.heldBack) := by
  have act : launchAt f s a (rdN a f.a.toNat 2 l) = .wait u := by
    rw [launchAt, if_neg (not_not_intro aligned), withRead_readsNow reads]
    have full' : 4096 ≤ liveChildren u := by rwa [liveChildren, readsNow_grids reads]
    exact (if_neg shallow).trans (if_pos full')
  rw [exec_launch r lanes masked, issue_ready r, act]
  rfl

theorem launch_refused (shallow : a.depth ≠ 10) (room : liveChildren s < 4096) (bad : recordOk s rec true = false) :
    GoesOn (.launch f) s a ((numbered u (childHandle s)).setMe { named b f (childHandle s) with refused := b.refused + 1 }) :=
  goesOn_of_body r (exec_launch r lanes masked)
    ((launch_taken aligned reads shallow room).trans (if_neg (Bool.eq_false_iff.mp bad)))

theorem launch_made (shallow : a.depth ≠ 10) (room : liveChildren s < 4096) (good : recordOk s rec true = true) :
    GoesOn (.launch f) s a (withChild a (forked u a b f (childHandle s)) rec (childHandle s)) :=
  goesOn_of_body r (exec_launch r lanes masked) ((launch_taken aligned reads shallow room).trans (if_pos good))

end
end

/-! ### CWAIT -/

theorem cwait_joins {s : State} {a : Agent} {f : FArgs} (r : Ready s a (.cwait f)) (on : guardOn a (.cwait f) = true)
    (childless : childrenOf s s.cur a = []) : GoesOn (.cwait f) s a
      (openJoin (s.setMe { wrN a f.d.toNat 1 (fun _ => some a.refused) with refused := 0 }) s.cur) := by
  refine goesOn_of_body r (by rfl) ?_
  simp only [on, childless, List.isEmpty_nil, Bool.not_true, Bool.false_eq_true, if_false]

theorem cwait_waits {s : State} {a : Agent} {f : FArgs} (r : Ready s a (.cwait f)) (on : guardOn a (.cwait f) = true)
    (children : childrenOf s s.cur a ≠ []) : (a.counted = false → Stays (.cwait f) s s) ∧
      (a.counted = true → exec (.cwait f) s = .next (s.setMe a.unchosen)) := by
  have runs : exec (.cwait f) s = issue (.cwait f) s (fun s a => if !guardOn a (.cwait f) then .go s
    else if !(childrenOf s s.cur a).isEmpty then holdOnce a s
    else .go (openJoin (s.setMe { wrN a f.d.toNat 1 (fun _ => some a.refused) with refused := 0 }) s.cur)) := rfl
  have nonempty : (childrenOf s s.cur a).isEmpty = false := List.isEmpty_eq_false_iff.mpr children
  have me : s.me = a := agent_of_find r.1
  refine ⟨fun first => stays_of_body r runs ?_, fun again => ?_⟩
  · simp [on, nonempty, holdOnce, first]
  · rw [runs, issue_ready r]
    simp only [on, nonempty, holdOnce, again, Bool.not_true, Bool.not_false, Bool.false_eq_true, if_false, if_true, me]
    rfl

/-- Settles O23: EXIT, then LAUNCH by what it finds, then CWAIT. -/
theorem childGridResults : Obligations.ChildGridResults := by
  intro s a f
  refine ⟨fun w r on queue errors ended tiles release => exit_gone r on queue errors ended tiles release, fun r off => ?_,
    fun r nothing => launch_none r nothing, fun l ls rec u b r lanes masked aligned reads => ⟨launch_deep r lanes masked aligned reads,
      launch_full r lanes masked aligned reads, fun shallow room => ⟨fun good => ⟨_, launch_made r lanes masked aligned reads shallow room good,
        withChild_forked a b f rec (readsNow_cur reads)⟩, launch_refused r lanes masked aligned reads shallow room⟩⟩,
    fun l ls r lanes masked crooked => launch_misaligned r lanes masked crooked, fun r on childless => cwait_joins r on childless,
    fun r on children => cwait_waits r on children, fun r off => ?_⟩
  · refine goesOn_of_body r (by rfl) ?_
    simp only [off, Bool.not_false, if_true]
  · refine goesOn_of_body r (by rfl) ?_
    simp only [off, Bool.not_false, if_true]

end Sys2Proof.Machine
end

section
/-! SUPPORT. Accumulator tiles and the accesses of the teams to them: the elements that a list of writes leaves, what a read holds for
each lane, and the course of an access at its array (R143, R144, R148, R171 to R174). -/

namespace Sys2Proof.Machine

open Sys2Proof.Safety

/-! ### Cores -/

@[simp] theorem setCore_core_same (s : State) (c : Nat) (x : Core) : (s.setCore c x).core c = x := by
  simp [State.core, State.setCore]

theorem setCore_core_other (s : State) {c d : Nat} (x : Core) (h : d ≠ c) : (s.setCore c x).core d = s.core d := by
  simp [State.core, State.setCore, Tab.get_put_other _ _ _ h]

@[simp] theorem setMe_core (s : State) (a : Agent) (c : Nat) : (s.setMe a).core c = s.core c := rfl

/-! ### Elements of a tile (R143) -/

section
variable {c : Core} {t i j : Nat}

@[simp] theorem tile_setTile_same (c : Core) (t i j : Nat) (x : Word) : (c.setTile t i j x).tile t i j = x := by
  simp [Core.tile, Core.setTile]

/-- Rows are 128 words apart, so that two elements of a tile never share a place. -/
theorem tile_setTile_other {i' j' : Nat} (x : Word) (hj : j < 128) (hj' : j' < 128) (h : ¬ (i' = i ∧ j' = j)) :
    (c.setTile t i j x).tile t i' j' = c.tile t i' j' :=
  Tab.get_put_other _ _ _ (by unfold tileKey; omega)

/-- Writes elsewhere in a tile leave an element. -/
theorem tile_setTiles_other {es : List (Nat × Nat × Word)} (hj : j < 128) (inside : ∀ e ∈ es, e.2.1 < 128)
    (h : ∀ e ∈ es, ¬ (i = e.1 ∧ j = e.2.1)) : (setTiles c t es).tile t i j = c.tile t i j := by
  induction es generalizing c with
  | nil => rfl
  | cons e es ih =>
    rw [List.forall_mem_cons] at inside h
    exact (ih inside.2 h.2).trans (tile_setTile_other _ inside.1 hj h.1)

/-- An element that is written reads what is written there, where all writes of it agree. -/
theorem tile_setTiles_mem {es : List (Nat × Nat × Word)} {x : Word} (inside : ∀ e ∈ es, e.2.1 < 128) (written : (i, j, x) ∈ es)
    (agree : ∀ e ∈ es, e.1 = i → e.2.1 = j → e.2.2 = x) : (setTiles c t es).tile t i j = x := by
  have hj : j < 128 := inside _ written
  induction es generalizing c with
  | nil => exact nomatch written
  | cons e es ih =>
    rw [List.forall_mem_cons] at inside agree
    by_cases again : ∃ e' ∈ es, e'.1 = i ∧ e'.2.1 = j
    · obtain ⟨⟨i', j', x'⟩, mem, rfl, rfl⟩ := again
      obtain rfl : x' = x := agree.2 _ mem rfl rfl
      exact ih inside.2 mem agree.2
    · have here : (i, j, x) = e := (List.mem_cons.mp written).resolve_right fun mem => again ⟨_, mem, rfl, rfl⟩
      subst here
      exact (tile_setTiles_other hj inside.2 fun e' mem same => again ⟨e', mem, same.1.symm, same.2.symm⟩).trans
        (tile_setTile_same ..)
end

/-! ### The entry of a read (R171) -/

section
variable {e : LAEntry} {vals : List (Nat × Nat × Word)}

theorem readEntry_flags_zero (h : ∀ v ∈ vals, v.2.2 = 0) : ∀ w ∈ (readEntry e vals).flags, w = 0 := by
  intro w hw
  obtain ⟨l, -, rfl⟩ := List.mem_map.mp hw
  cases found : vals.find? (fun v => v.1 == l) with
  | none => simp [found]
  | some v => simpa [found] using h v (List.mem_of_find?_eq_some found)

/-- The row of a lane among the rows of all lanes. -/
theorem find?_lane {α : Type} {lanes : List Nat} {l : Nat} (x : Nat → α) (mem : l ∈ lanes) :
    (lanes.map (fun k => (k, x k))).find? (fun v => v.1 == l) = some (l, x l) := by
  cases found : lanes.find? (fun k => k == l) with
  | none => exact absurd (beq_self_eq_true l) (List.find?_eq_none.mp found l mem)
  | some k =>
    obtain rfl : k = l := by simpa using List.find?_some found
    rw [List.find?_map]
    exact congrArg (Option.map _) found

/-- A read holds for each of its lanes the lane's value and flags. -/
theorem readEntry_lane {lanes : List Nat} {l : Nat} (x : Nat → Nat × Word) (plain : e.sext = 0) (mem : l ∈ lanes)
    (within : l < e.values.length) : ((readEntry e (lanes.map (fun k => (k, x k)))).value l,
      (readEntry e (lanes.map (fun k => (k, x k)))).flags.getD l 0) = x l := by
  have row := find?_lane x mem
  have value : (readEntry e (lanes.map (fun k => (k, x k)))).value l = (x l).1 := by
    refine (value_of_map (e := readEntry e _) plain rfl within).trans ?_
    simp [row]
  have flags : (readEntry e (lanes.map (fun k => (k, x k)))).flags.getD l 0 = (x l).2 := by
    refine (getD_map_range _ _ within).trans ?_
    simp [row]
  rw [value, flags]
end

/-- Words packed low word first are read back one by one. -/
theorem word_of_packed (d : Nat → Nat) (small : ∀ k, d k < 2 ^ 32) (n : Nat) :
    (List.range n).foldl (fun v k => v + 2 ^ (32 * k) * d k) 0 < 2 ^ (32 * n) ∧
    ∀ k, k < n → (List.range n).foldl (fun v k => v + 2 ^ (32 * k) * d k) 0 / 2 ^ (32 * k) % 2 ^ 32 = d k := by
  induction n with
  | zero => exact ⟨Nat.one_pos, fun k hk => absurd hk (Nat.not_lt_zero k)⟩
  | succ n ih =>
    obtain ⟨low, words⟩ := ih
    rw [List.range_succ, List.foldl_append]
    simp only [List.foldl_cons, List.foldl_nil]
    generalize (List.range n).foldl (fun v k => v + 2 ^ (32 * k) * d k) 0 = v at low words ⊢
    have hn := small n
    refine ⟨?_, fun k hk => ?_⟩
    · rw [Nat.mul_succ, Nat.pow_add]
      nlinarith
    · obtain hk | rfl := Nat.lt_succ_iff_lt_or_eq.mp hk
      · obtain ⟨m, rfl⟩ : ∃ m, n = k + 1 + m := Nat.exists_eq_add_of_le hk
        have split : 2 ^ (32 * (k + 1 + m)) * d (k + 1 + m) = 2 ^ (32 * k) * (2 ^ 32 * (2 ^ (32 * m) * d (k + 1 + m))) := by
          rw [show 32 * (k + 1 + m) = 32 * k + (32 + 32 * m) by omega, Nat.pow_add, Nat.pow_add]
          ring
        rw [split, Nat.add_mul_div_left _ _ (Nat.two_pow_pos _), Nat.add_mul_mod_self_left, words k hk]
      · rw [Nat.add_mul_div_left _ _ (Nat.two_pow_pos _), Nat.div_eq_of_lt low, Nat.zero_add, Nat.mod_eq_of_lt hn]

/-- Lanes in which an instruction with an operand in v registers acts. -/
theorem mem_actLanes {a : Agent} {i : Instr} {l : Nat} (vector : uniformOf i = false) (hl : l < a.nlanes) (acts : actsIn a i l = true) :
    l ∈ actLanes a i := by
  rw [actLanes, if_neg (Bool.eq_false_iff.mp vector)]
  exact List.mem_filter.mpr ⟨List.mem_range.mpr hl, acts⟩

theorem isS_of_isV {d : Reg} (h : isV d = true) : isS d = false := by
  simp only [isV, isS, decide_eq_true_eq, decide_eq_false_iff_not] at *
  omega

/-- With a destination in v registers, a read acts lane by lane. -/
theorem uniformOf_accrd {f : FArgs} (h : isV f.d = true) : uniformOf (.accrd f) = false := by
  have operands : uniformOf (.accrd f) = (isS f.d && (isS f.a && true)) := rfl
  rw [operands, isS_of_isV h, Bool.false_and]

theorem uniformOf_rowst {f : FArgs} (h : isV f.d = true) : uniformOf (.rowst f) = false := by
  have operands : uniformOf (.rowst f) = (isS f.d && (isS f.a && true)) := rfl
  rw [operands, isS_of_isV h, Bool.false_and]

/-! ### The words that ACCWR writes (R172) -/

section
variable {a : Agent} {f : FArgs} {l : Nat}

/-- The elements that a lane of ACCWR writes. -/
def accwrCells (a : Agent) (f : FArgs) (l : Nat) : List (Nat × Nat × Word) :=
  (List.range (accN f)).map (fun k => (accRow (rd1 a f.a l), accCol (rd1 a f.a l) + k, regGet a (f.b.toNat + k) l))

theorem tileEffect_accwr (c : Core) (k token seq : Nat) : tileEffect c ⟨k, token, .accwr f, tileRows a (.accwr f) f, seq⟩ =
    ((actLanes a (.accwr f)).foldl (fun c l => setTiles c (f.mod.toNat % 8) (accwrCells a f l)) c, [], 0) := by
  have cells (l : Nat) : (((List.range (accN f)).map (fun k => regGet a (f.b.toNat + k) l)).zipIdx.map
      (fun e => (accRow (rd1 a f.a l), accCol (rd1 a f.a l) + e.2, e.1))) = accwrCells a f l :=
    List.ext_getElem (by simp [accwrCells]) (by simp [accwrCells])
  simp only [tileEffect, tileRows, accTile, List.foldl_map, cells]

theorem accN_dvd (f : FArgs) : accN f ∣ 128 := by
  have : f.mod.toNat / 8 % 4 ≤ 7 := by omega
  exact Nat.pow_dvd_pow 2 this

theorem colBad_false {i : Instr} (h : colBad a i f = false) (mem : l ∈ actLanes a i) : accN f ∣ accCol (rd1 a f.a l) := by
  have := List.any_eq_false.mp h l mem
  exact Nat.dvd_of_mod_eq_zero (by simpa using this)

/-- A column that is a multiple of the element count leaves room for all elements in its row. -/
theorem accCol_room {k : Nat} (aligned : accN f ∣ accCol (rd1 a f.a l)) (hk : k < accN f) : accCol (rd1 a f.a l) + k < 128 := by
  have small : accCol (rd1 a f.a l) < 128 := Nat.mod_lt _ (by decide)
  obtain ⟨m, hm⟩ := aligned
  obtain ⟨q, hq⟩ := accN_dvd f
  rw [hm] at small ⊢
  have : m < q := by
    by_contra far
    have := Nat.mul_le_mul_left (accN f) (Nat.not_lt.mp far)
    omega
  have := Nat.mul_le_mul_left (accN f) this
  rw [Nat.mul_succ] at this
  omega

theorem accwrCells_inside (aligned : accN f ∣ accCol (rd1 a f.a l)) : ∀ e ∈ accwrCells a f l, e.2.1 < 128 := by
  intro e he
  obtain ⟨k, hk, rfl⟩ := List.mem_map.mp he
  exact accCol_room aligned (List.mem_range.mp hk)

theorem tile_accwrCells_same {c : Core} {t k : Nat} (aligned : accN f ∣ accCol (rd1 a f.a l)) (hk : k < accN f) :
    (setTiles c t (accwrCells a f l)).tile t (accRow (rd1 a f.a l)) (accCol (rd1 a f.a l) + k) = regGet a (f.b.toNat + k) l := by
  refine tile_setTiles_mem (accwrCells_inside aligned) (List.mem_map.mpr ⟨k, List.mem_range.mpr hk, rfl⟩) fun e he _ col => ?_
  obtain ⟨k', -, rfl⟩ := List.mem_map.mp he
  obtain rfl : k' = k := Nat.add_left_cancel col
  rfl

/-- Lanes of ACCWR that write elsewhere leave an element. -/
theorem tile_accwr_other {c : Core} {t i j : Nat} (hj : j < 128) (lanes : List Nat)
    (aligned : ∀ l ∈ lanes, accN f ∣ accCol (rd1 a f.a l))
    (apart : ∀ l ∈ lanes, ∀ k, k < accN f → ¬ (i = accRow (rd1 a f.a l) ∧ j = accCol (rd1 a f.a l) + k)) :
    (lanes.foldl (fun c l => setTiles c t (accwrCells a f l)) c).tile t i j = c.tile t i j := by
  induction lanes generalizing c with
  | nil => rfl
  | cons l ls ih =>
    rw [List.forall_mem_cons] at aligned apart
    refine (ih aligned.2 apart.2).trans (tile_setTiles_other hj (accwrCells_inside aligned.1) fun e he => ?_)
    obtain ⟨k, hk, rfl⟩ := List.mem_map.mp he
    exact apart.1 k (List.mem_range.mp hk)

theorem position_eq (x : Nat) : fieldN x 0 14 = 128 * accRow x + accCol x := by
  simp only [fieldN, accRow, accCol, Nat.shiftRight_eq_div_pow]
  omega

/-- Lanes with different positions write no element in common. -/
theorem accwr_apart {l m k k' : Nat} (hl : accN f ∣ accCol (rd1 a f.a l)) (hm : accN f ∣ accCol (rd1 a f.a m)) (hk : k < accN f)
    (hk' : k' < accN f) (other : fieldN (rd1 a f.a m) 0 14 ≠ fieldN (rd1 a f.a l) 0 14) :
    ¬ (accRow (rd1 a f.a l) = accRow (rd1 a f.a m) ∧ accCol (rd1 a f.a l) + k = accCol (rd1 a f.a m) + k') := by
  rintro ⟨row, col⟩
  obtain ⟨x, hx⟩ := hl
  obtain ⟨y, hy⟩ := hm
  have same : x = y := by
    rw [hx, hy] at col
    have := congrArg (· / accN f) col
    simpa [Nat.mul_add_div (Nat.zero_lt_of_lt hk), Nat.div_eq_of_lt hk, Nat.div_eq_of_lt hk'] using this
  exact other (by rw [position_eq, position_eq, row, hx, hy, same])

/-- What ACCWR leaves at an element: the word of the last lane that names it. -/
theorem tile_accwr_last {c : Core} {t l k : Nat} {pre post : List Nat} (good : colBad a (.accwr f) f = false)
    (lanes : actLanes a (.accwr f) = pre ++ l :: post) (hk : k < accN f)
    (later : ∀ m ∈ post, fieldN (rd1 a f.a m) 0 14 ≠ fieldN (rd1 a f.a l) 0 14) :
    ((actLanes a (.accwr f)).foldl (fun c l => setTiles c t (accwrCells a f l)) c).tile t (accRow (rd1 a f.a l))
      (accCol (rd1 a f.a l) + k) = regGet a (f.b.toNat + k) l := by
  have aligned (m : Nat) (hm : m ∈ l :: post) : accN f ∣ accCol (rd1 a f.a m) :=
    colBad_false good (lanes ▸ List.mem_append_right pre hm)
  rw [List.forall_mem_cons] at aligned
  rw [lanes, List.foldl_append, List.foldl_cons, tile_accwr_other (accCol_room aligned.1 hk) post aligned.2
    fun m hm k' hk' => accwr_apart aligned.1 (aligned.2 m hm) hk hk' (later m hm)]
  exact tile_accwrCells_same aligned.1 hk
end

/-! ### The course of an access (R144, R148, R171) -/

section
variable {i : Instr} {f : FArgs} {s : State} {a : Agent} {reads : Option LAEntry} {e : LAEntry} {bad : Bool}

/-- The access that an instruction of the current agent makes. -/
def accessOf (s : State) (a : Agent) (i : Instr) (f : FArgs) (token : Nat) : TileAccess := ⟨s.cur, token, i, tileRows a i f, s.tileSeq⟩

/-- The state once an access waits at its array. -/
def accessQueued (s : State) (a : Agent) (x : TileAccess) : State :=
  { s.setCore a.core { (s.core a.core) with tileQueue := (s.core a.core).tileQueue ++ [x] } with tileSeq := s.tileSeq + 1 }

theorem tileIssue_unbound (h : arrayBound s a = false) : tileIssue i f s a bad reads = .trap .privilege 0 := by simp [tileIssue, h]

variable (bound : arrayBound s a = true)
include bound

theorem tileIssue_misplaced : tileIssue i f s a true reads = .trap .misaligned 0 := by simp [tileIssue, bound]

theorem tileIssue_postWaits (busy : tileBusy s a.core (accTile i) = true) :
    tileIssue i f s a false none = .go (accessQueued s a (accessOf s a i f 65536)) := by
  simp [tileIssue, bound, busy, accessQueued, accessOf]

theorem tileIssue_readWaits (busy : tileBusy s a.core (accTile i) = true) :
    tileIssue i f s a false (some e) = .long (accessQueued s a (accessOf s a i f e.token)) e := by
  simp [tileIssue, bound, busy, accessQueued, accessOf]

theorem tileIssue_posts (idle : tileBusy s a.core (accTile i) = false) :
    tileIssue i f s a false none = .go ((s.setCore a.core (tileEffect (s.core a.core) (accessOf s a i f 65536)).1).setMe
      { a with fstat := a.fstat ||| (tileEffect (s.core a.core) (accessOf s a i f 65536)).2.2 }) := by
  simp [tileIssue, bound, idle, accessOf]

/-- A read of a free tile leaves the tiles, and its entry holds the value `x` for each lane. -/
theorem tileIssue_reads (idle : tileBusy s a.core (accTile i) = false) {x : Nat → Nat × Word}
    (effect : tileEffect (s.core a.core) (accessOf s a i f e.token) = (s.core a.core, (actLanes a i).map (fun l => (l, x l)), 0)) :
    tileIssue i f s a false (some e) =
      .long (s.setCore a.core (s.core a.core)) (readEntry e ((actLanes a i).map (fun l => (l, x l)))) := by
  rw [accessOf] at effect
  simp [tileIssue, bound, idle, effect]
end

theorem starts_of_body {i : Instr} {s t : State} {a : Agent} {body : State → Agent → Act} {e : LAEntry} (r : Ready s a i)
    (runs : exec i s = issue i s body) (act : body s a = .long t e) : Starts i s a t e := by rw [Starts, runs, issue_ready r, act]

/-! ### Reads (R172, R173) -/

/-- What a lane of ACCRD reads of a core's tile, and what a lane of ROWST makes of its row. -/
def accrdLane (c : Core) (a : Agent) (f : FArgs) (l : Nat) : Nat × Word :=
  ((List.range (accN f)).foldl (fun v k => v + 2 ^ (32 * k) *
    (c.tile (f.mod.toNat % 8) (accRow (rd1 a f.a l)) (accCol (rd1 a f.a l) + k)).toNat) 0, 0)
def rowstLane (c : Core) (a : Agent) (f : FArgs) (l : Nat) : Nat × Word :=
  rowStat (f.mod.toNat / 8) c (f.mod.toNat % 8) (rowOfA (rd1 a f.a l)) (ncOfA (rd1 a f.a l))

theorem tileEffect_accrd (s : State) (a : Agent) (f : FArgs) (c : Core) (token : Nat) :
    tileEffect c (accessOf s a (.accrd f) f token) = (c, (actLanes a (.accrd f)).map (fun l => (l, accrdLane c a f l)), 0) := by
  simp [tileEffect, accessOf, tileRows, accTile, accrdLane, Function.comp_def]

theorem tileEffect_rowst (s : State) (a : Agent) (f : FArgs) (c : Core) (token : Nat) :
    tileEffect c (accessOf s a (.rowst f) f token) = (c, (actLanes a (.rowst f)).map (fun l => (l, rowstLane c a f l)), 0) := by
  simp [tileEffect, accessOf, tileRows, accTile, rowstLane, Function.comp_def]

/-- A read of the tile array starts with the values of its lanes outstanding (R171). -/
theorem starts_of_tileRead {i : Instr} {f : FArgs} {s : State} {a : Agent} {n : Nat} {x : Nat → Nat × Word} (r : Ready s a i)
    {bad : Agent → Bool} (runs : exec i s = issue i s (fun s a => tileIssue i f s a (bad a)
      (some (mkEntry a i f.d n false false [] (fun _ => 0))))) (good : bad a = false)
    (effect : ∀ token, tileEffect (s.core a.core) (accessOf s a i f token) = (s.core a.core, (actLanes a i).map (fun l => (l, x l)), 0))
    (bound : arrayBound s a = true) (idle : tileBusy s a.core (accTile i) = false) (vector : isV f.d = true → uniformOf i = false) :
    ∃ e, Starts i s a (s.setCore a.core (s.core a.core)) e ∧ e.dest = f.d ∧ e.lanes = lanesMask (actLanes a i) ∧
      ((∀ l, (x l).2 = 0) → ∀ w ∈ e.flags, w = 0) ∧
      ∀ l, isV f.d = true → l < a.nlanes → actsIn a i l = true → (e.value l, e.flags.getD l 0) = x l := by
  refine ⟨_, starts_of_body r runs (good ▸ tileIssue_reads bound idle (effect _)), rfl, rfl, fun silent => ?_, fun l vec hl acts => ?_⟩
  · refine readEntry_flags_zero fun v hv => ?_
    obtain ⟨l, -, rfl⟩ := List.mem_map.mp hv
    exact silent l
  · have within : l < (mkEntry a i f.d n false false [] (fun _ => 0)).values.length := by
      simpa [mkEntry, isS_of_isV vec] using hl
    exact readEntry_lane x rfl (mem_actLanes (vector vec) hl acts) within

/-- A read of a taken tile waits at the array with its entry outstanding (R144). -/
theorem tileRead_waits {i : Instr} {f : FArgs} {s : State} {a : Agent} {e : Agent → LAEntry} (r : Ready s a i) {bad : Agent → Bool}
    (runs : exec i s = issue i s (fun s a => tileIssue i f s a (bad a) (some (e a)))) (dest : (e a).dest = f.d)
    (good : bad a = false) (bound : arrayBound s a = true) (busy : tileBusy s a.core (accTile i) = true) :
    ∃ x e, Starts i s a (accessQueued s a x) e ∧ x.op = i ∧ x.agent = s.cur ∧ x.rows = tileRows a i f ∧ x.token = e.token ∧ e.dest = f.d :=
  ⟨accessOf s a i f (e a).token, e a, starts_of_body r runs (good ▸ tileIssue_readWaits bound busy), rfl, rfl, rfl, rfl, dest⟩

theorem accrdLane_word {c : Core} {a : Agent} {f : FArgs} {l k : Nat} (hk : k < accN f) : (accrdLane c a f l).1 / 2 ^ (32 * k) % 2 ^ 32 =
    (c.tile (f.mod.toNat % 8) (accRow (rd1 a f.a l)) (accCol (rd1 a f.a l) + k)).toNat :=
  (word_of_packed _ (fun _ => BitVec.isLt _) _).2 k hk

/-! ### Writes (R172) -/

section
variable {s : State} {a : Agent} {f : FArgs}

/-- The core of the agent, and the state, once ACCWR has written its words there. -/
def accwrCore (s : State) (a : Agent) (f : FArgs) : Core :=
  (actLanes a (.accwr f)).foldl (fun c l => setTiles c (f.mod.toNat % 8) (accwrCells a f l)) (s.core a.core)
def accwrDone (s : State) (a : Agent) (f : FArgs) : State := (s.setCore a.core (accwrCore s a f)).setMe a

theorem accwr_writes (r : Ready s a (.accwr f)) (good : colBad a (.accwr f) f = false) (bound : arrayBound s a = true)
    (idle : tileBusy s a.core (f.mod.toNat % 8) = false) : GoesOn (.accwr f) s a (accwrDone s a f) := by
  refine goesOn_of_body r (by rfl) ?_
  rw [good, tileIssue_posts (i := .accwr f) bound idle, accessOf, tileEffect_accwr]
  simp [accwrDone, accwrCore]

theorem accwrDone_core : (accwrDone s a f).core a.core = accwrCore s a f := setCore_core_same ..

/-- An element of a row outside the columns that lanes write there keeps its word. -/
theorem accwrCore_other {i j : Nat} (good : colBad a (.accwr f) f = false) (hj : j < 128)
    (outside : ∀ l ∈ actLanes a (.accwr f), accRow (rd1 a f.a l) = i → j < accCol (rd1 a f.a l) ∨ accCol (rd1 a f.a l) + accN f ≤ j) :
    (accwrCore s a f).tile (f.mod.toNat % 8) i j = (s.core a.core).tile (f.mod.toNat % 8) i j := by
  refine tile_accwr_other hj _ (fun l hl => colBad_false good hl) fun l hl k hk same => ?_
  have := outside l hl same.1.symm
  omega
end

/-- Settles O39: reads, writes, reductions and scalings of a free tile, then the traps, the accesses that wait, and a waiting one that
is performed. -/
theorem accumulatorResults : Obligations.AccumulatorResults := by
  refine ⟨fun s a f bound => ?_, fun s a f => ⟨fun i form r unbound => ?_, fun i form r bound bad => ?_, fun i form r bound busy => ?_,
    fun i form r bound busy => ?_, fun c x xs ready runs => ?_⟩⟩
  · intro c t idle
    refine ⟨fun r good => ?_, fun r good => ?_, fun r => ?_, fun r => ?_⟩
    · obtain ⟨e, starts, dest, lanes, flags, values⟩ := starts_of_tileRead (bad := fun a => colBad a (.accrd f) f) r (by rfl) good
        (tileEffect_accrd s a f _) bound idle uniformOf_accrd
      refine ⟨e, starts, dest, lanes, flags fun _ => rfl, fun l k vec hl acts hk => ?_⟩
      have value : e.value l = (accrdLane (s.core a.core) a f l).1 := congrArg Prod.fst (values l vec hl acts)
      rw [value]
      exact accrdLane_word hk
    · exact ⟨_, accwr_writes r good bound idle, by simp [accwrDone], by simp [accwrDone], by simp [accwrDone], rfl,
        fun pre l post k lanes hk later => accwrDone_core.symm ▸ tile_accwr_last good lanes hk later,
        fun i j _ hj outside => accwrDone_core.symm ▸ accwrCore_other good hj outside⟩
    · obtain ⟨e, starts, dest, lanes, -, values⟩ := starts_of_tileRead (bad := fun _ => false) r (by rfl) rfl (tileEffect_rowst s a f _)
        bound idle uniformOf_rowst
      exact ⟨e, starts, dest, lanes, values⟩
    · exact ⟨_, rfl, goesOn_of_body r (by rfl) (tileIssue_posts (i := .accsc f) bound idle)⟩
  · obtain rfl | rfl | rfl | rfl := form
    all_goals
      refine traps_of_body r (by rfl) ?_
      exact tileIssue_unbound unbound
  · obtain rfl | rfl := form
    all_goals
      refine traps_of_body r (by rfl) ?_
      rw [bad]
      exact tileIssue_misplaced bound
  · obtain ⟨rfl, good⟩ | rfl := form
    · refine ⟨accessOf s a (.accwr f) f 65536, goesOn_of_body r (by rfl) ?_, rfl, rfl, rfl⟩
      rw [good]
      exact tileIssue_postWaits (i := .accwr f) bound busy
    · exact ⟨accessOf s a (.accsc f) f 65536, goesOn_of_body r (by rfl) (tileIssue_postWaits (i := .accsc f) bound busy), rfl, rfl, rfl⟩
  · obtain ⟨rfl, good⟩ | rfl := form
    · exact tileRead_waits (bad := fun a => colBad a (.accrd f) f)
        (e := fun a => mkEntry a (.accrd f) f.d (accN f) false false [] (fun _ => 0)) r (by rfl) rfl good bound busy
    · exact tileRead_waits (bad := fun _ => false)
        (e := fun a => mkEntry a (.rowst f) f.d (if f.mod.toNat / 8 = 2 then 2 else 1) false false [] (fun _ => 0)) r (by rfl) rfl rfl bound busy
  · show execTileAccessPerformed c s = _
    simp only [execTileAccessPerformed, ready, runs, Bool.false_eq_true, if_false]

end Sys2Proof.Machine
end

section
/-! SUPPORT. The issue of macro-operations: the ticket and the queue that reads at issue leave as they are, the checks in their order, and
the entry that is made (R154, R155, R160, R161). -/

namespace Sys2Proof.Machine

open Sys2Proof.Safety

/-! ### What a context's queue is, and what leaves it -/

/-- The ticket counter, the queue and QCTR of a context (R130, R154). -/
def queueOf (a : Agent) : Word × List MxEntry × Word := (a.ticket, a.mxq, a.qctr)

theorem queueOf_watchBundle (a : Agent) (e : WatchEntry) : queueOf (watchBundle a e) = queueOf a := by
  unfold watchBundle
  split
  · rfl
  · split
    · rfl
    · split <;> rfl

theorem queueOf_noteReads (s : State) (a : Agent) (locs : List Nat) : queueOf (noteReads s a locs) = queueOf a := by
  have watched (es : List WatchEntry) (b : Agent) : queueOf (es.foldl watchBundle b) = queueOf b :=
    List.foldlRecOn (motive := fun c => queueOf c = queueOf b) _ _ rfl fun c h e _ => (queueOf_watchBundle c e).trans h
  have observed (lines : List Nat) : queueOf (observeLines s a lines) = queueOf a := by
    unfold observeLines
    extract_lets ids stale b
    split
    · rfl
    · exact watched _ a
  exact observed _

theorem queueOf_sPut (a : Agent) (n : Nat) (x : Word) : queueOf (sPut a n x) = queueOf a := by
  unfold sPut
  split
  · rfl
  · split <;> rfl

/-- A read at issue leaves the queue (R123). -/
theorem readsNow_queueOf {s u : State} {a b : Agent} {x : Except ReadFail (List Byte × List Nat)} {bs : List Byte}
    (reads : ReadsNow s a x bs u b) : queueOf b = queueOf a := by
  obtain ⟨locs, -, -, -, rfl⟩ := reads
  exact queueOf_noteReads _ _ _

/-- What is posted to scratchpads is no agent's, and no agent changes as it is performed (R175). -/
theorem drainScratch_agents (s : State) (k : Nat) : (drainScratch s k).agents = s.agents ∧ (drainScratch s k).cur = s.cur := by
  refine List.foldlRecOn (motive := fun t : State => t.agents = s.agents ∧ t.cur = s.cur) _ _ ⟨rfl, rfl⟩ fun t same p mem => ?_
  obtain ⟨e, p⟩ := p
  have scratch := (Bool.and_eq_true_iff.mp (List.mem_filter.mp mem).2).2
  cases job : p.job with
  | scratch port cells =>
    simp only [performPosted, job]
    exact same
  | red ctrl ord loc va data => simp [job] at scratch

theorem drainScratch_me (s : State) (a : Agent) : (drainScratch (s.setMe a) s.cur).me = a := by
  obtain ⟨agents, cur⟩ := drainScratch_agents (s.setMe a) s.cur
  rw [State.me, State.agent, agents, cur]
  exact setMe_me s a

/-! ### The entry (R154) -/

/-- An entry stands at the end of its context's queue with the next ticket, which the destination reads. -/
theorem enqueue_entry (u : State) (b : Agent) (i : Instr) (d : Reg) (ops : List Word) (cmask : Nat) (table : List Byte) (count : Bool) :
    ∃ t e, enqueue u b i d ops cmask table count = .go t ∧ t.me.ticket = b.ticket + 1 ∧ t.me.mxq = b.mxq ++ [e] ∧ e.ticket = b.ticket + 1 ∧
      e.op = i ∧ e.cmask = cmask ∧ e.running = false ∧ e.next = 0 ∧ t.me.qctr = (if count then b.qctr + 1 else b.qctr) ∧
      (192 ≤ d.toNat → ¬ fixedReg d.toNat → regGet t.me d.toNat 0 = b.ticket + 1) := by
  unfold enqueue
  extract_lets v a ticket e c
  rw [← (drainScratch_me u b : a = b)]
  obtain ⟨-, hmxq, hqctr⟩ : c.ticket = a.ticket ∧ c.mxq = a.mxq ∧ c.qctr = a.qctr := by
    simpa [queueOf] using queueOf_sPut a (d.toNat - 192) ticket
  have value (free : ¬ fixedReg d.toNat) (hd : 192 ≤ d.toNat) : sGet c (d.toNat - 192) = ticket :=
    sGet_sPut_same a _ _ (by unfold fixedReg at free; omega)
  clear_value c
  refine ⟨_, e, rfl, ?_⟩
  rw [setMe_me]
  refine ⟨rfl, congrArg (· ++ [e]) hmxq, rfl, rfl, rfl, rfl, rfl, congrArg (fun q => if count then q + 1 else q) hqctr, fun hd free => ?_⟩
  rw [regGet, if_neg (Nat.not_lt.mpr hd)]
  exact value free hd

section
variable {i : Instr} {s t : State} {a : Agent} {body : State → Agent → Act} (r : Ready s a i) (runs : exec i s = issue i s body)
include r runs

/-- An instruction that waits is held back, but for those that may be saved as they wait (R334). -/
theorem heldBack_of_body (plain : Agent.waitAt i = Agent.heldBack) (act : body s a = .wait t) : exec i s = .next (t.setMe t.me.heldBack) := by
  rw [runs, issue_ready r, act, plain]

/-- What enters a context's queue, by whichever reads at issue it comes there, is the next ticket's entry. -/
theorem enqueues_of_body {u : State} {b : Agent} {d : Reg} {ops : List Word} {cmask : Nat} {table : List Byte} {count : Bool}
    (queue : queueOf b = queueOf a) (act : body s a = enqueue u b i d ops cmask table count) : Enqueues i s a d cmask count := by
  obtain ⟨hticket, hmxq, hqctr⟩ : b.ticket = a.ticket ∧ b.mxq = a.mxq ∧ b.qctr = a.qctr := by simpa [queueOf] using queue
  obtain ⟨t, e, go, rest⟩ := enqueue_entry u b i d ops cmask table count
  rw [hticket, hmxq, hqctr] at rest
  exact ⟨t, e, goesOn_of_body r runs (act.trans go), rest⟩
end

/-! ### The checks that all of them share (R155) -/

/-- The guard, the room in the queue and the core mask, before what is an operation's own. -/
def queueCourse (i : Instr) (m : Nat) (s : State) (a : Agent) (rest : Act) : Act :=
  if !guardOn a i then .go s
  else if queueFull a then .wait s
  else match maskTrap a m with
    | some c => .trap c 0
    | none => rest

section
variable {i : Instr} {m : Nat} {s : State} {a : Agent} {rest : Act}

theorem mmaIssue_course (i : Instr) (l : LArgs) (s : State) (a : Agent) : ∃ rest, mmaIssue i l s a = queueCourse i (xMask l) s a rest :=
  ⟨_, rfl⟩

theorem accIssue_course (i : Instr) (l : LArgs) (st : Bool) (s : State) (a : Agent) :
    ∃ rest, accIssue i l st s a = queueCourse i (xMask l) s a rest := ⟨_, rfl⟩

theorem tileOpIssue_course (i : Instr) (f : FArgs) (s : State) (a : Agent) : tileOpIssue i f s a =
    queueCourse i (rd1 a f.a 0 % 256) s a
      (enqueue s a i f.d [regGet a f.a.toNat 0, regGet a f.b.toNat 0] (rd1 a f.a 0 % 256) [] false) := rfl

theorem queueCourse_passed (on : guardOn a i = true) (room : queueFull a = false) (mask : maskTrap a m = none) :
    queueCourse i m s a rest = rest := by simp [queueCourse, on, room, mask]

theorem queueCourse_results {body : State → Agent → Act} (r : Ready s a i) (runs : exec i s = issue i s body)
    (plain : Agent.waitAt i = Agent.heldBack) (course : body s a = queueCourse i m s a rest) :
    (guardOn a i = false → GoesOn i s a s) ∧
    (guardOn a i = true → queueFull a = true → exec i s = .next (s.setMe s.me.heldBack)) ∧
    (guardOn a i = true → queueFull a = false → ∀ c, maskTrap a m = some c → Traps i s c 0) := by
  refine ⟨fun off => goesOn_of_body r runs (course.trans ?_), fun on full => heldBack_of_body r runs plain (course.trans ?_),
    fun on room c mask => traps_of_body r runs (course.trans ?_)⟩
  · simp [queueCourse, off]
  · simp [queueCourse, on, full]
  · simp [queueCourse, on, room, mask]
end

/-! ### Reads of codebooks and group tables (R123, R142) -/

section
variable {s u : State} {a b : Agent}

theorem withBook_reads {slot : Nat} (reads : BookReads s a slot u b) (go : State → Agent → List Byte → Act) :
    ∃ bs, withBook s a slot go = go u b bs := by
  obtain ⟨bs, now⟩ := reads
  exact ⟨_, withRead_readsNow now _⟩

theorem bookReads_queueOf {slot : Nat} (reads : BookReads s a slot u b) : queueOf b = queueOf a := readsNow_queueOf reads.choose_spec

theorem withTable_reads {addr e per groups rows j : Nat} (reads : TableReads addr e per groups rows j s a u b) (acc : List Byte)
    (go : State → Agent → List Byte → Act) : ∃ bs, withTable addr e per groups rows j s a acc go = go u b bs := by
  induction rows generalizing j s a acc with
  | zero =>
    obtain ⟨rfl, rfl⟩ := reads
    exact ⟨acc, rfl⟩
  | succ rows ih =>
    obtain ⟨bs, v, c, now, rest⟩ := reads
    rw [withTable, withRead_readsNow now]
    exact ih rest _

theorem tableReads_queueOf {addr e per groups rows j : Nat} (reads : TableReads addr e per groups rows j s a u b) :
    queueOf b = queueOf a := by
  induction rows generalizing j s a with
  | zero => rw [reads.2]
  | succ rows ih =>
    obtain ⟨bs, v, c, now, rest⟩ := reads
    exact (ih rest).trans (readsNow_queueOf now)
end

/-! ### The multiply family (R161) -/

section
variable {i : Instr} {l : LArgs} {s u v : State} {a b c : Agent}

/-- MX.MMA, MX.SMMA and MX.QMMA. -/
abbrev MmaForm (i : Instr) (l : LArgs) : Prop := i = .mxMma l ∨ i = .mxSmma l ∨ i = .mxQmma l

theorem exec_mma (form : MmaForm i l) (s : State) : exec i s = issue i s (mmaIssue i l) ∧ Agent.waitAt i = Agent.heldBack := by
  obtain rfl | rfl | rfl := form <;> exact ⟨rfl, rfl⟩

/-- The images of the operands A and B, and the first byte of them that the agent may not use (R150 to R152). -/
abbrev imageA (s : State) (a : Agent) (i : Instr) (l : LArgs) : Image := aImage s a.grid i (rdN a l.a.toNat 2 0)
abbrev imageB (s : State) (a : Agent) (i : Instr) (l : LArgs) : Image := bImage s a.grid i (rdN a l.b.toNat 2 0)
abbrev mmaBank (s : State) (a : Agent) (i : Instr) (l : LArgs) : Option Nat :=
  [imageA s a i l, imageB s a i l].findSome? (fun m => tileImageFault s a (xMask l) (imageTrl i m) m)

variable (on : guardOn a i = true) (room : queueFull a = false) (mask : maskTrap a (xMask l) = none)
include on room mask

theorem mmaIssue_badFields (bad : mmaFields i (imageA s a i l) (imageB s a i l) = false) :
    mmaIssue i l s a = .trap .reservedField 0 := by
  simp [mmaIssue, on, room, mask, bad]

variable (fields : mmaFields i (imageA s a i l) (imageB s a i l) = true)
include fields

theorem mmaIssue_badSlots (bad : mmaSlots i (imageA s a i l).slot (imageB s a i l).slot = false) :
    mmaIssue i l s a = .trap .formatSlot 0 := by
  simp [mmaIssue, on, room, mask, fields, bad]

variable (slots : mmaSlots i (imageA s a i l).slot (imageB s a i l).slot = true)
include slots

theorem mmaIssue_badBank {x : Nat} (bad : mmaBank s a i l = some x) : mmaIssue i l s a = .trap .bankMode x := by
  simp only [mmaIssue, on, room, mask, fields, slots, bad, Bool.not_true, Bool.false_eq_true, if_false]

/-- With its reads made at issue, an operation enters the queue. -/
theorem mmaIssue_enqueues (form : MmaForm i l) (bank : mmaBank s a i l = none) (bookA : BookReads s a (imageA s a i l).slot u b)
    (bookB : BookReads u b (imageB s a i l).slot v c)
    (tables : i = .mxQmma l → ∃ w d, TableReads (slotAddr (imageB s a i l).slot) (rd1 c l.e 0) (rd1 c (l.e + 1) 0)
      (32 * xKg l / groupLen (imageB s a i l).slot) (dRows (rdN a l.b.toNat 2 0)) 0 v c w d) :
    ∃ w d ops table, mmaIssue i l s a = enqueue w d i l.d ops (xMask l) table false ∧ queueOf d = queueOf a := by
  have queue : queueOf c = queueOf a := (bookReads_queueOf bookB).trans (bookReads_queueOf bookA)
  simp only [mmaIssue, on, room, mask, fields, slots, bank, Bool.not_true, Bool.false_eq_true, if_false]
  obtain ⟨ca, first⟩ := withBook_reads bookA _
  rw [first]
  obtain ⟨cb, second⟩ := withBook_reads bookB _
  rw [second]
  obtain rfl | rfl | rfl := form
  · exact ⟨_, _, _, _, rfl, queue⟩
  · exact ⟨_, _, _, _, rfl, queue⟩
  · obtain ⟨w, d, reads⟩ := tables rfl
    obtain ⟨t, third⟩ := withTable_reads reads [] _
    exact ⟨w, d, _, _, third, (tableReads_queueOf reads).trans queue⟩
end

/-! ### MX.LDACC and MX.STACC (R165, R166) -/

section
variable {i : Instr} {l : LArgs} {st : Bool} {s u : State} {a b : Agent}

/-- MX.LDACC, and MX.STACC, which stores. -/
abbrev AccForm (i : Instr) (l : LArgs) (st : Bool) : Prop := i = .mxLdacc l ∧ st = false ∨ i = .mxStacc l ∧ st = true

theorem exec_acc (form : AccForm i l st) (s : State) : exec i s = issue i s (accIssue i l st) ∧ Agent.waitAt i = Agent.heldBack := by
  obtain ⟨rfl, rfl⟩ | ⟨rfl, rfl⟩ := form <;> exact ⟨rfl, rfl⟩

/-- The macro-operations of an L frame are those two families. -/
theorem mmaForm_or_accForm (h : i = .mxMma l ∨ i = .mxSmma l ∨ i = .mxQmma l ∨ i = .mxLdacc l ∨ i = .mxStacc l) :
    MmaForm i l ∨ ∃ st, AccForm i l st := by
  obtain h | h | h | h | h := h
  exacts [.inl (.inl h), .inl (.inr (.inl h)), .inl (.inr (.inr h)), .inr ⟨false, .inl ⟨h, rfl⟩⟩, .inr ⟨true, .inr ⟨h, rfl⟩⟩]

/-- The first byte of the image that the agent may not use. -/
abbrev accBank (s : State) (a : Agent) (i : Instr) (l : LArgs) : Option Nat :=
  tileImageFault s a (xMask l) (imageTrl i (imageA s a i l)) (imageA s a i l)

variable (on : guardOn a i = true) (room : queueFull a = false) (mask : maskTrap a (xMask l) = none)
include on room mask

theorem accIssue_badFields (bad : accFields l st (imageA s a i l) = false) : accIssue i l st s a = .trap .reservedField 0 := by
  simp [accIssue, on, room, mask, bad]

variable (fields : accFields l st (imageA s a i l) = true)
include fields

theorem accIssue_badSlots (bad : accSlots l st (imageA s a i l).slot = false) : accIssue i l st s a = .trap .formatSlot 0 := by
  simp [accIssue, on, room, mask, fields, bad]

variable (slots : accSlots l st (imageA s a i l).slot = true)
include slots

theorem accIssue_badBank {x : Nat} (bad : accBank s a i l = some x) : accIssue i l st s a = .trap .bankMode x := by
  simp only [accIssue, on, room, mask, fields, slots, bad, Bool.not_true, Bool.false_eq_true, if_false]

variable (bank : accBank s a i l = none)
include bank

theorem accIssue_raw (raw : xRaw l = true) : accIssue i l st s a = enqueue s a i l.d (mxOps a l) (xMask l) [] false := by
  simp only [accIssue, on, room, mask, fields, slots, bank, raw, Bool.not_true, Bool.false_eq_true, if_false, if_true]

theorem accIssue_book (coded : xRaw l = false) (book : BookReads s a (imageA s a i l).slot u b) : ∃ table, accIssue i l st s a =
    enqueue u b i l.d (mxOps b l) (xMask l) table (st && slotRnd (imageA s a i l).slot == 2) := by
  simp only [accIssue, on, room, mask, fields, slots, bank, coded, Bool.not_true, Bool.false_eq_true, if_false]
  exact withBook_reads book _
end

/-- Settles O40: what all share, then MX.ZERO and MX.SCALE, the multiply family, and MX.LDACC and MX.STACC. -/
theorem macroOperationIssue : Obligations.MacroOperationIssue := by
  intro s a i r
  refine ⟨fun f form => ?_, fun l form => ?_, fun l form on room mask => ?_, fun l st form on room mask => ?_⟩
  · obtain ⟨runs, plain⟩ : exec i s = issue i s (tileOpIssue i f) ∧ Agent.waitAt i = Agent.heldBack := by
      obtain rfl | rfl := form <;> exact ⟨rfl, rfl⟩
    obtain ⟨off, full, trap⟩ := queueCourse_results r runs plain (tileOpIssue_course i f s a)
    exact ⟨off, full, fun on room => ⟨trap on room, fun mask =>
      enqueues_of_body r runs rfl ((tileOpIssue_course i f s a).trans (queueCourse_passed on room mask))⟩⟩
  · obtain form | ⟨st, form⟩ := mmaForm_or_accForm form
    · obtain ⟨runs, plain⟩ := exec_mma form s
      exact queueCourse_results r runs plain (mmaIssue_course i l s a).choose_spec
    · obtain ⟨runs, plain⟩ := exec_acc form s
      exact queueCourse_results r runs plain (accIssue_course i l st s a).choose_spec
  · have runs := (exec_mma form s).1
    exact ⟨fun bad => traps_of_body r runs (mmaIssue_badFields on room mask bad),
      fun fields bad => traps_of_body r runs (mmaIssue_badSlots on room mask fields bad),
      fun x fields slots bad => traps_of_body r runs (mmaIssue_badBank on room mask fields slots bad),
      fun u b v c fields slots bank bookA bookB tables =>
        let ⟨_, _, _, _, act, queue⟩ := mmaIssue_enqueues on room mask fields slots form bank bookA bookB tables
        enqueues_of_body r runs queue act⟩
  · have runs := (exec_acc form s).1
    exact ⟨fun bad => traps_of_body r runs (accIssue_badFields on room mask bad),
      fun fields bad => traps_of_body r runs (accIssue_badSlots on room mask fields bad),
      fun x fields slots bad => traps_of_body r runs (accIssue_badBank on room mask fields slots bad),
      fun fields slots bank raw => enqueues_of_body r runs rfl (accIssue_raw on room mask fields slots bank raw),
      fun u b fields slots bank coded book =>
        let ⟨_, act⟩ := accIssue_book on room mask fields slots bank coded book
        enqueues_of_body r runs (bookReads_queueOf book) act⟩

end Sys2Proof.Machine
end

section
/-! SUPPORT. The steps of macro-operations: what a run over the arrays of an operation leaves on each of them, and the events that
dispatch an entry, make its steps and end it (R155, R156, R159, R167). -/

namespace Sys2Proof.Machine

open Sys2Proof.Safety

/-! ### Runs over the arrays of an operation (R155) -/

theorem mem_coresOf {m c : Nat} : c ∈ coresOf m ↔ c < 8 ∧ bitN m c = true := by simp [coresOf]

/-- What a step leaves on its own array, and the others leave there, stands after all of them. -/
theorem foldl_core {P : Core → Prop} {step : State → Nat → State} {core c : Nat} {cs : List Nat}
    (hits : ∀ s, P ((step s c).core core)) (leaves : ∀ s d, d ≠ c → (step s d).core core = s.core core) (mem : c ∈ cs) (s : State) :
    P ((cs.foldl step s).core core) := by
  induction cs generalizing s with
  | nil => exact nomatch mem
  | cons d ds ih =>
    by_cases later : c ∈ ds
    · exact ih later _
    · obtain rfl : c = d := (List.mem_cons.mp mem).resolve_right later
      rw [List.foldl_cons]
      refine List.foldlRecOn (motive := fun t : State => P (t.core core)) _ _ (hits s) fun t ht e _ => ?_
      by_cases same : e = c
      · exact same ▸ hits t
      · exact (leaves t e same).symm ▸ ht

/-! ### MX.ZERO (R167) -/

theorem mem_cells2 {m n i j : Nat} : (i, j) ∈ cells2 m n ↔ i < m ∧ j < n := by simp [cells2]

/-- A tile with all its elements at +0. -/
def zeroTile (n : Nat) (c : Core) : Core := setTiles c n ((cells2 128 128).map (fun ij => (ij.1, ij.2, 0)))

theorem tile_zeroTile (c : Core) {n i j : Nat} (hi : i < 128) (hj : j < 128) : (zeroTile n c).tile n i j = 0 := by
  refine tile_setTiles_mem (fun e he => ?_) (List.mem_map.mpr ⟨(i, j), mem_cells2.mpr ⟨hi, hj⟩, rfl⟩) fun e he _ _ => ?_
  all_goals obtain ⟨⟨i', j'⟩, mem, rfl⟩ := List.mem_map.mp he
  · exact (mem_cells2.mp mem).2
  · rfl

theorem mxEffect_mxZero {s : State} {a : Agent} {e : MxEntry} {f : FArgs} {n : Nat} (op : e.op = .mxZero f)
    (step : (mxTiles (.mxZero f))[e.next]? = some n) : mxEffect s a e =
      (coresOf e.cmask).foldl (fun s c => s.setCore (8 * a.grove + c) (zeroTile n (s.core (8 * a.grove + c)))) s := by
  have tile : (mxTiles (.mxZero f)).getD e.next 0 = n := by rw [List.getD, step, Option.getD_some]
  simp only [mxEffect, op, tile]
  rfl

/-- A step of MX.ZERO leaves its tile at +0 on every array of its core mask. -/
theorem mxZero_step {s : State} {a : Agent} {e : MxEntry} {f : FArgs} {n c i j : Nat} (op : e.op = .mxZero f)
    (step : (mxTiles (.mxZero f))[e.next]? = some n) (hc : c < 8) (on : bitN e.cmask c = true) (hi : i < 128) (hj : j < 128) :
    ((mxEffect s a e).core (8 * a.grove + c)).tile n i j = 0 := by
  rw [mxEffect_mxZero op step]
  refine foldl_core (P := fun x => x.tile n i j = 0) (fun s => ?_) (fun s d other => ?_) (mem_coresOf.mpr ⟨hc, on⟩) s
  · rw [setCore_core_same]
    exact tile_zeroTile _ hi hj
  · exact setCore_core_other _ _ (by omega)

/-! ### The events (R155, R159) -/

section
variable {s : State} {k : Nat} {t : Word} {e : MxEntry} (found : findMx (s.agent k) t = some e) (there : (s.agent k).state ≠ .saved)
  (runs : dieStopped s (s.agent k).die = false)
include found there runs

theorem mxDispatch_arrives (waiting : e.running = false) (ready : mxReady (s.agent k) e = true) :
    let u := (coresOf e.cmask).foldl (fun u c => drainTiles u (8 * (s.agent k).grove + c)) s
    exec (.mxDispatch k t) s = .next (u.setAgent k (putMx (u.agent k) { e with running := true })) := by
  show execMxDispatch k t s = _
  simp [execMxDispatch, found, there, runs, waiting, ready]

variable (running : e.running = true)
include running

theorem mxStep_fails {x : Nat} (more : 0 < mxSteps e.op) (first : e.next = 0) (bad : crcFailure s (s.agent k) e = some x) :
    exec (.mxStep k t) s = .next (s.setAgent k
      { dropMx (s.agent k) t with mxErrors := (s.agent k).mxErrors ++ [(t, .tileIntegrity, x)] }) := by
  show execMxStep k t s = _
  simp [execMxStep, found, there, runs, running, first, bad, more.ne']

theorem mxStep_steps (more : e.next < mxSteps e.op) (good : e.next = 0 → crcFailure s (s.agent k) e = none)
    (clean : poisonedArrays s (s.agent k) e = []) :
    let u := loosenRaced (mxEffect s (s.agent k) e) (s.agent k) e (coresOf e.cmask)
    exec (.mxStep k t) s = .next (u.setAgent k (putMx (u.agent k) { e with next := e.next + 1 })) := by
  have passed : (if e.next = 0 then crcFailure s (s.agent k) e else none) = none := by
    split
    · exact good ‹_›
    · rfl
  show execMxStep k t s = _
  simp [execMxStep, found, there, runs, running, more, passed, clean]

theorem mxEntryComplete_leaves (last : mxSteps e.op ≤ e.next) :
    exec (.mxEntryComplete k t) s = .next (s.setAgent k (dropMx (s.agent k) t)) := by
  show execMxEntryComplete k t s = _
  simp [execMxEntryComplete, found, there, runs, running, last]
end

/-- Settles O41: dispatch, a step, the failed check, the end, and what a step of MX.ZERO leaves. -/
theorem macroOperationSteps : Obligations.MacroOperationSteps := by
  rintro s k t _ e rfl found there runs
  exact ⟨fun waiting ready => ⟨_, rfl, mxDispatch_arrives found there runs waiting ready⟩,
    fun running more good clean => ⟨_, rfl, mxStep_steps found there runs running more good clean⟩,
    fun x running more first bad => ⟨_, rfl, mxStep_fails found there runs running more first bad⟩,
    fun running last => mxEntryComplete_leaves found there runs running last,
    fun f n op step c hc on i j hi hj => mxZero_step op step hc on hi hj⟩

end Sys2Proof.Machine
end

section
/-! SUPPORT. Waiting for, querying, cancelling and binding macro-operations: the bits of a core mask taken from another, the arrays that
waiting accesses leave alone, and tiles that are bound anew (R147, R168 to R170). -/

namespace Sys2Proof.Machine

open Sys2Proof.Safety

/-! ### Core masks -/

theorem and_odd (m n : Nat) : (m &&& n) % 2 = 1 ↔ m % 2 = 1 ∧ n % 2 = 1 := by
  have low := Nat.testBit_and m n 0
  simpa only [Nat.testBit_zero, ← Bool.decide_and, decide_eq_decide] using low

/-- Taking from a mask the bits that it shares with another leaves those that are its own. -/
theorem bitN_sub_and (k m n : Nat) : bitN (m - (m &&& n)) k = (bitN m k && !bitN n k) := by
  unfold bitN
  have odd := and_odd m n
  have le : m &&& n ≤ m := Nat.and_le_left
  induction k generalizing m n with
  | zero =>
    have bit : (m - (m &&& n)) % 2 = 1 ↔ m % 2 = 1 ∧ ¬ n % 2 = 1 := by omega
    simp only [Nat.testBit_zero, bit, Bool.decide_and, decide_not]
  | succ k ih =>
    have half : (m - (m &&& n)) / 2 = m / 2 - (m / 2 &&& n / 2) := by
      rw [← Nat.and_div_two]
      omega
    rw [Nat.testBit_succ, Nat.testBit_succ, Nat.testBit_succ, half, ih _ _ (and_odd _ _) Nat.and_le_left]

/-! ### Waiting accesses that take effect (R144) -/

theorem modAgent_core (s : State) (k : Nat) (f : Agent → Agent) (c : Nat) : (s.modAgent k f).core c = s.core c := by
  unfold State.modAgent
  split <;> rfl

/-- What takes effect at one array leaves the others. -/
theorem performTile_core_other (s : State) {c d : Nat} (x : TileAccess) (h : d ≠ c) : (performTile s c x).core d = s.core d := by
  unfold performTile
  extract_lets k r ended t
  have ht : t.core d = s.core d := setCore_core_other _ _ h
  split
  · exact (modAgent_core ..).trans ht
  · exact ht
  · exact (modAgent_core ..).trans ht

theorem drainTiles_core_other (s : State) {c d : Nat} (h : d ≠ c) : (drainTiles s c).core d = s.core d :=
  List.foldlRecOn (motive := fun t : State => t.core d = s.core d) _ _ rfl fun t ht x _ => (performTile_core_other t x h).trans ht

/-! ### Binding (R147) -/

/-- Arrays bound anew hold tiles at +0. -/
theorem bindArrays_zero (s : State) (g : Nat) {fresh c : Nat} (hc : c < 8) (on : bitN fresh c = true) (n i j : Nat) :
    ((bindArrays s g fresh).core (8 * g + c)).tile n i j = 0 := by
  refine foldl_core (P := fun x => x.tile n i j = 0) (fun s => ?_) (fun s d other => ?_) (mem_coresOf.mpr ⟨hc, on⟩) s
  · rw [setCore_core_same]
    rfl
  · have apart : 8 * g + c ≠ 8 * g + d := by omega
    exact (setCore_core_other _ _ apart).trans (drainTiles_core_other s apart)

/-! ### The instructions (R168 to R170) -/

section
variable {s : State} {a : Agent} {f : FArgs}

theorem mxWait_joins (r : Ready s a (.mxWait f)) (on : guardOn a (.mxWait f) = true)
    (ended : ∀ e ∈ a.mxq, upTo (regGet a f.a.toNat 0) e.ticket = false) (good : ∀ e ∈ a.mxErrors, upTo (regGet a f.a.toNat 0) e.1 = false) :
    GoesOn (.mxWait f) s a (openJoin (joinMx s s.cur (fun e => upTo (regGet a f.a.toNat 0) e.ticket)) s.cur) := by
  refine goesOn_of_body r (by rfl) ?_
  have none_waits : a.mxq.any (fun e => upTo (regGet a f.a.toNat 0) e.ticket) = false := List.any_eq_false.mpr (by simpa using ended)
  have none_failed : a.mxErrors.find? (fun e => upTo (regGet a f.a.toNat 0) e.1) = none := List.find?_eq_none.mpr (by simpa using good)
  simp only [on, none_waits, none_failed, Bool.not_true, Bool.false_eq_true, if_false]

theorem mxWait_reports (r : Ready s a (.mxWait f)) (on : guardOn a (.mxWait f) = true)
    (ended : ∀ e ∈ a.mxq, upTo (regGet a f.a.toNat 0) e.ticket = false) {e : Word × Cause × Nat}
    (failed : a.mxErrors.find? (fun e => upTo (regGet a f.a.toNat 0) e.1) = some e) :
    exec (.mxWait f) s = .next (takeTrap (s.setMe { a with mxErrors := a.mxErrors.filter (· != e) }) s.cur e.2.1 e.2.2) := by
  refine trapsIn_of_body r (by rfl) ?_
  have none_waits : a.mxq.any (fun e => upTo (regGet a f.a.toNat 0) e.ticket) = false := List.any_eq_false.mpr (by simpa using ended)
  simp only [on, none_waits, failed, Bool.not_true, Bool.false_eq_true, if_false]

theorem mxWait_waits (r : Ready s a (.mxWait f)) (on : guardOn a (.mxWait f) = true)
    (waiting : ∃ e ∈ a.mxq, upTo (regGet a f.a.toNat 0) e.ticket = true) : exec (.mxWait f) s = .next (s.setMe s.me.heldBack) := by
  refine heldBack_of_body r (by rfl) rfl ?_
  have waits : a.mxq.any (fun e => upTo (regGet a f.a.toNat 0) e.ticket) = true := List.any_eq_true.mpr waiting
  simp only [on, waits, Bool.not_true, Bool.false_eq_true, if_false, if_true]

/-- The arrays that MX.BIND binds: those asked for that the other context does not bind (R147). -/
def boundBy (s : State) (a : Agent) (f : FArgs) : Nat :=
  rd1 a f.a 0 % 256 - (rd1 a f.a 0 % 256 &&& otherBound s s.cur a.grove)

/-- The state in which MX.BIND has bound its arrays: those given up drain first. -/
def arraysBound (s : State) (a : Agent) (f : FArgs) : State :=
  bindArrays ((coresOf (a.bound - (a.bound &&& boundBy s a f))).foldl (fun s c => drainTiles s (8 * a.grove + c)) s) a.grove
    (boundBy s a f - (boundBy s a f &&& a.bound))

theorem mxBind_binds (r : Ready s a (.mxBind f)) (on : guardOn a (.mxBind f) = true) (idle : a.mxq = []) :
    GoesOn (.mxBind f) s a ((arraysBound s a f).setMe
      { wrN (arraysBound s a f).me f.d.toNat 1 (fun _ => some (boundBy s a f)) with bound := boundBy s a f }) := by
  refine goesOn_of_body r (by rfl) ?_
  simp only [on, idle, List.isEmpty_nil, Bool.not_true, Bool.false_eq_true, if_false]
  rfl

theorem mxBind_waits (r : Ready s a (.mxBind f)) (on : guardOn a (.mxBind f) = true) (busy : a.mxq ≠ []) :
    exec (.mxBind f) s = .next (s.setMe s.me.heldBack) := by
  refine heldBack_of_body r (by rfl) rfl ?_
  have nonempty : a.mxq.isEmpty = false := List.isEmpty_eq_false_iff.mpr busy
  simp only [on, nonempty, Bool.not_true, Bool.not_false, Bool.false_eq_true, if_false, if_true]
end

/-- Settles O42: MX.WAIT with its entries ended and with one that waits, MX.Q, MX.CANCEL, MX.BIND, and each with its guard false. -/
theorem macroOperationControl : Obligations.MacroOperationControl := by
  intro s a f x
  refine ⟨fun r on ended => ⟨mxWait_joins r on ended, fun e failed => mxWait_reports r on ended failed⟩, fun r on => mxWait_waits r on,
    fun r on => ?_, fun r on => ?_, fun r on idle => ⟨_, mxBind_binds r on idle, ?_⟩, fun r on => mxBind_waits r on, fun i form r off => ?_⟩
  · refine goesOn_of_body r (by rfl) ?_
    simp only [on, Bool.not_true, Bool.false_eq_true, if_false]
  · refine goesOn_of_body r (by rfl) ?_
    simp only [on, Bool.not_true, Bool.false_eq_true, if_false]
    rfl
  · rw [setMe_me]
    refine ⟨rfl, fun c hc bound fresh n i j => bindArrays_zero _ _ hc ?_ n i j⟩
    have asked : bitN (boundBy s a f) c = true := bound
    rw [bitN_sub_and, asked, fresh]
    rfl
  · obtain rfl | rfl | rfl | rfl := form
    all_goals
      refine goesOn_of_body r (by rfl) ?_
      simp only [off, Bool.not_false, if_true]

end Sys2Proof.Machine
end

section
/-! SUPPORT. The interposer's pairs: what a flit that arrives leaves of what its pair has received, holds and counts as failed, and the
events of colours, drains and retrains (R341 to R350). -/

namespace Sys2Proof.Machine

open Sys2Proof.Safety

/-! ### Flits (R341, R342, R346) -/

/-- From the next flit on, those held without a gap follow it. -/
theorem pastEarly_spec (early : List Nat) (cls fuel n : Nat) :
    n ≤ pastEarly early cls fuel n ∧ ∀ m, n ≤ m → m < pastEarly early cls fuel n → 4 * m + cls ∈ early := by
  induction fuel generalizing n with
  | zero => exact ⟨Nat.le_refl n, fun m low high => absurd high (Nat.not_lt.mpr low)⟩
  | succ fuel ih =>
    unfold pastEarly
    split
    · rename_i held
      obtain ⟨past, follow⟩ := ih (n + 1)
      refine ⟨Nat.le_of_succ_le past, fun m low high => ?_⟩
      obtain rfl | low := Nat.eq_or_lt_of_le low
      · exact List.contains_iff_mem.mp held
      · exact follow m low high
    · exact ⟨Nat.le_refl n, fun m low high => absurd high (Nat.not_lt.mpr low)⟩

section
variable {p : Pair} {f : Flit} {ok : Bool}

/-- The number under which a pair keeps a flit. -/
abbrev flitKey (f : Flit) : Nat := 4 * f.seq + f.cls

/-- The number of the next flit of a class that a pair waits for. -/
abbrev Pair.awaits (p : Pair) (cls : Nat) : Nat := Tab.get p.recvSeq cls 0

/-- A flit changes neither the colours nor the routing of its pair. -/
theorem flit_routing (p : Pair) (f : Flit) (ok : Bool) :
    (p.flit f ok).alost = p.alost ∧ (p.flit f ok).blost = p.blost ∧ (p.flit f ok).active = p.active := by
  have arrived : (p.arrived f).alost = p.alost ∧ (p.arrived f).blost = p.blost ∧ (p.arrived f).active = p.active := by
    unfold Pair.arrived
    extract_lets key next q n
    split <;> exact ⟨rfl, rfl, rfl⟩
  unfold Pair.flit
  extract_lets key
  split
  · exact ⟨rfl, rfl, rfl⟩
  · split
    · exact arrived
    · split <;> exact ⟨rfl, rfl, rfl⟩

theorem flit_discarded (h : f.seq < p.awaits f.cls ∨ flitKey f ∈ p.early) : p.flit f ok = p := by
  have known : (decide (f.seq < p.awaits f.cls) || p.early.contains (flitKey f)) = true := by simpa using h
  exact if_pos (by simpa using known)

variable (new : p.awaits f.cls ≤ f.seq) (unheld : flitKey f ∉ p.early)
include new unheld

theorem flit_good : p.flit f true = p.arrived f := by
  simp [Pair.flit, Nat.not_lt.mpr new, unheld]

theorem flit_failed : (p.flit f false).recvSeq = p.recvSeq ∧ Tab.find (p.flit f false).failed (flitKey f) = some f.colour ∧
    (Tab.find p.failed (flitKey f) ≠ none →
      Tab.get (p.flit f false).tries (2 * flitKey f + f.colour) 0 = Tab.get p.tries (2 * flitKey f + f.colour) 0 + 1) ∧
    (Tab.find p.failed (flitKey f) = none → (p.flit f false).tries = p.tries) := by
  cases before : Tab.find p.failed (flitKey f) with
  | none => simp [Pair.flit, Nat.not_lt.mpr new, unheld, before]
  | some colour => simp [Pair.flit, Nat.not_lt.mpr new, unheld, before]
end

section
variable {p : Pair} {f : Flit}

/-- A good flit has failed no more. -/
theorem arrived_forgets (p : Pair) (f : Flit) : Tab.find (p.arrived f).failed (flitKey f) = none ∧ flitKey f ∉ (p.arrived f).marked := by
  unfold Pair.arrived
  extract_lets key next q n
  have failed : Tab.find q.failed (flitKey f) = none := Tab.find_erase_same _ _
  have marked : flitKey f ∉ q.marked := by simp [q, key]
  split
  · exact ⟨failed, marked⟩
  · exact ⟨failed, marked⟩

/-- In its turn a flit is delivered, and with it those held without a gap behind it (R342). -/
theorem arrived_inTurn (turn : f.seq = p.awaits f.cls) : f.seq < (p.arrived f).awaits f.cls ∧
    ∀ m, f.seq < m → m < (p.arrived f).awaits f.cls → 4 * m + f.cls ∈ p.early := by
  have next : (p.arrived f).awaits f.cls = pastEarly p.early f.cls p.early.length (p.awaits f.cls + 1) := by
    simp [Pair.arrived, Pair.awaits, turn]
  rw [next, ← turn]
  exact pastEarly_spec ..

/-- Ahead of its turn a flit is held (R342). -/
theorem arrived_early (ahead : p.awaits f.cls < f.seq) :
    (p.arrived f).recvSeq = p.recvSeq ∧ (p.arrived f).early = p.early ++ [flitKey f] := by
  simp [Pair.arrived, ahead.ne']
end

theorem exec_flitReceived {s : State} {sel : Nat} {f : Flit} (ok : Bool) (pair : pairOf sel = true) (hcls : f.cls ≤ 3)
    (hcolour : f.colour ≤ 1) : exec (.flitReceived sel f ok) s =
      if (s.pair sel).active = 4 then .next s else .next (s.setPair sel ((s.pair sel).flit f ok)) := by
  show execFlitReceived sel f ok s = _
  simp [execFlitReceived, pair, Nat.not_lt.mpr hcls, Nat.not_lt.mpr hcolour]

/-! ### Colours (R345, R346) -/

/-- A pair that has lost a colour. -/
def Pair.losing (p : Pair) (colour : Nat) : Pair :=
  { p with alost := p.alost || colour == 0, blost := p.blost || colour == 1, losts := min 255 (p.losts + 1), bgated := false
           tries := p.tries.filter (fun e => e.1 % 2 != colour) }

/-- The replays of a lost colour are counted anew (R346). -/
theorem replaysFailed_losing (p : Pair) (colour : Nat) : replaysFailed (p.losing colour) colour = false := by
  refine List.any_eq_false.mpr fun e mem => ?_
  have other : e.1 % 2 ≠ colour := by simpa using (List.mem_filter.mp mem).2
  simp [other]

section
variable {s : State} {sel : Nat} (pair : pairOf sel = true)
include pair

theorem colourLost_loses {colour cause : Nat} (hcolour : colour ≤ 1) (hcause : cause ≤ 3)
    (present : (if colour = 0 then (s.pair sel).alost else (s.pair sel).blost) = false)
    (replays : cause = 3 → replaysFailed (s.pair sel) colour = true) :
    exec (.colourLost sel colour cause) s = .next (reroute (logEvent (s.setPair sel ((s.pair sel).losing colour)) 0x10 sel 0
      (toBytes 1 colour ++ toBytes 1 cause ++ toBytes 1 (min 255 ((s.pair sel).losts + 1))))) := by
  have counted : (cause == 3 && !replaysFailed (s.pair sel) colour) = false := by
    rw [Bool.and_eq_false_imp, beq_iff_eq]
    exact fun three => by rw [replays three, Bool.not_true]
  show execColourLost sel colour cause s = _
  simp only [execColourLost, pair, present, counted, Nat.not_lt.mpr hcolour, Nat.not_lt.mpr hcause, decide_false, Bool.not_true, Bool.or_self,
    Bool.false_eq_true, if_false]
  rfl

theorem colourBGateOff_gates (gating : s.record.gating = true) (a : (s.pair sel).alost = false) (b : (s.pair sel).blost = false) :
    exec (.colourBGateOff sel) s = .next (s.setPair sel { s.pair sel with bgated := true }) := by
  show execColourBGateOff sel s = _
  simp [execColourBGateOff, pair, gating, a, b]

/-! ### Routing, drains and retrains (R347 to R350) -/

theorem routePairWrite_writes (v : Word) : exec (.routePairWrite sel v) s = .next (reroute (s.setPair sel { s.pair sel with
    relayk := fieldN v.toNat 16 5, mode := if fieldN v.toNat 8 2 ≤ 1 then fieldN v.toNat 8 2 else (s.pair sel).mode })) := by
  show Host.Outcome.next (writeRoutePair s sel v.toNat) = _
  rw [writeRoutePair, pair]
  rfl

theorem routePairRetrain_starts (lost : (s.pair sel).alost = true ∨ (s.pair sel).blost = true) : exec (.routePairRetrain sel) s =
    .next (s.setPair sel { s.pair sel with retraining := b2n (s.pair sel).alost + 2 * b2n (s.pair sel).blost }) := by
  show Host.Outcome.next (startRetrain s sel) = _
  rw [startRetrain, if_pos (by simpa [pair] using lost)]
end

section
variable {s : State} {sel : Nat}

/-- The relay that the record of a drain's end names (R348). -/
abbrev relayOfRouting (s : State) (sel r : Nat) : Nat :=
  if r = 2 then (s.pair sel).relayk else if r = 3 then (relayOf s sel).getD 255 else 255

theorem pairDrainEnd_switches {r : Nat} (drained : (s.pair sel).drained = true) (next : (s.pair sel).next = some r) :
    exec (.pairDrainEnd sel) s = .next (reroute (if r = (s.pair sel).active then s.setPair sel ((s.pair sel).switch r)
      else logEvent (s.setPair sel ((s.pair sel).switch r)) 0x11 sel 0
        (toBytes 1 (s.pair sel).active ++ toBytes 1 r ++ toBytes 1 (relayOfRouting s sel r)))) := by
  show execPairDrainEnd sel s = _
  simp only [execPairDrainEnd, drained, next, if_true]

theorem pairDrainEnd_waits (busy : (s.pair sel).drained = false) : exec (.pairDrainEnd sel) s = .next s := by
  show execPairDrainEnd sel s = _
  simp [execPairDrainEnd, busy]

theorem drained_iff (p : Pair) : p.drained = true ↔ ∀ e ∈ p.failed, (if e.2 = 0 then p.alost else p.blost) = true := List.all_eq_true

theorem pairRetrainEnd_relocks (m : Nat) (training : (s.pair sel).retraining ≠ 0) :
    let ok := m &&& (s.pair sel).retraining
    let a := (s.pair sel).alost && !bitN ok 0
    let b := (s.pair sel).blost && !bitN ok 1
    exec (.pairRetrainEnd sel m) s = .next (reroute (logEvent (s.setPair sel { s.pair sel with alost := a, blost := b, retraining := 0 })
      0x12 sel 0 (toBytes 1 ok ++ toBytes 1 (b2n a + 2 * b2n b)))) := by
  show execPairRetrainEnd sel m s = _
  exact if_neg training
end

end Sys2Proof.Machine
end

section
/-! SUPPORT. Clocks, power, temperature and the errors of the memories: what a die, its cores' sensors and the growth-ring record read
after each event (R157, R312, R351 to R360, R394 to R396). -/

namespace Sys2Proof.Machine

open Sys2Proof.Safety

/-! ### Dies and the growth-ring record -/

@[simp] theorem setDie_die_same (s : State) (d : Nat) (x : Die) : (s.setDie d x).die d = x := by
  simp [State.die, State.setDie]

theorem setDie_die_other (s : State) {d e : Nat} (x : Die) (h : e ≠ d) : (s.setDie d x).die e = s.die e := by
  simp [State.die, State.setDie, Tab.get_put_other _ _ _ h]

@[simp] theorem used_die (s : State) (n d : Nat) : (s.used n).die d = s.die d := rfl
@[simp] theorem used_core (s : State) (n c : Nat) : (s.used n).core c = s.core c := rfl
@[simp] theorem setCore_die (s : State) (c : Nat) (x : Core) (d : Nat) : (s.setCore c x).die d = s.die d := rfl

/-- An entry changes nothing but the record, at whose end it stands (R395). -/
theorem logEvent_record (s : State) (code source asid : Nat) (detail : List Byte) :
    { logEvent s code source asid detail with growth := s.growth, wraps := s.wraps } = s ∧
      (logEvent s code source asid detail).growth.getLast? = some ⟨s.reftime, s.device, code, source, asid, detail⟩ := by
  by_cases room : s.growth.length < 65536
  · have appended : logEvent s code source asid detail =
        { s with growth := s.growth ++ [⟨s.reftime, s.device, code, source, asid, detail⟩] } := if_pos room
    rw [appended]
    exact ⟨rfl, List.getLast?_concat⟩
  · have wrapped : logEvent s code source asid detail =
        { s with growth := s.growth.drop 1 ++ [⟨s.reftime, s.device, code, source, asid, detail⟩], wraps := s.wraps + 1 } := if_neg room
    rw [wrapped]
    exact ⟨rfl, List.getLast?_concat⟩

section
variable (s : State) (code source asid : Nat) (detail : List Byte)

@[simp] theorem logEvent_die (d : Nat) : (logEvent s code source asid detail).die d = s.die d :=
  (congrArg (State.die · d) (logEvent_record s code source asid detail).1 :)

@[simp] theorem logEvent_core (c : Nat) : (logEvent s code source asid detail).core c = s.core c :=
  (congrArg (State.core · c) (logEvent_record s code source asid detail).1 :)

@[simp] theorem logEvent_mem : (logEvent s code source asid detail).mem = s.mem :=
  (congrArg State.mem (logEvent_record s code source asid detail).1 :)

@[simp] theorem logEvent_poison : (logEvent s code source asid detail).poison = s.poison :=
  (congrArg State.poison (logEvent_record s code source asid detail).1 :)
end

/-! ### Frequencies (R351 to R355) -/

section
variable {s : State} {d : Nat}

theorem frequencyDecision_stands {f : Nat} (hd : d < 8) (whole : f % 25 = 0) (low : 600 ≤ f) (high : f ≤ 2200)
    (calm : (s.die d).emergency = false) : exec (.frequencyDecision d f) s = .next (s.setDie d { s.die d with wanted := some f }) := by
  have good : freqOk f = true := by simp [freqOk, whole, low, high]
  show execFrequencyDecision d f s = _
  simp [execFrequencyDecision, Nat.not_le.mpr hd, good, calm]

theorem relockStart_due {f : Nat} (hd : d < 8) (wanted : (s.die d).wanted = some f) (idle : (s.die d).relock = none)
    (due : ∀ t, (s.die d).lastRelock = some t → t + 100000 ≤ s.reftime) : exec (.relockStart d) s =
      if f = (s.die d).mhz then .next (s.setDie d { s.die d with wanted := none })
      else .next (beginRelock (s.setDie d { s.die d with wanted := none }) d f) := by
  show execRelockStart d s = _
  cases last : (s.die d).lastRelock with
  | none => simp [execRelockStart, wanted, idle, last, Nat.not_le.mpr hd]
  | some t =>
    have rested : decide (t + 100000 ≤ s.reftime) = true := decide_eq_true (due t last)
    simp only [execRelockStart, wanted, idle, last, Nat.not_le.mpr hd, rested, decide_false, Option.isSome_none, Bool.not_true, Bool.or_self,
      Bool.false_eq_true, if_false]

theorem relockEnd_restarts {t0 n0 r0 f1 : Nat} (relock : (s.die d).relock = some (t0, n0, r0, f1)) :
    let u := s.setDie d { s.die d with relock := none, ncyc := ncycAt s.reftime t0 n0 r0 f1, res := resAt s.reftime t0 r0 f1 (s.die d).mhz
                                       rest := 0, emergencyDue := false }
    exec (.relockEnd d) s = .next (if (s.die d).emergencyDue then beginRelock u d 600 else u) := by
  show execRelockEnd d s = _
  simp only [execRelockEnd, relock]
end

/-! ### Emergencies (R351, R359) -/

section
variable (s : State)

/-- The die on which an emergency begins: it is at 600 MHz, or waits for the relock in progress (R351, R359). -/
theorem startEmergency_die {c d : Nat} (t : Nat) (die : c / 64 = d) : ((startEmergency s c t).die d).emergency = true ∧
    ((startEmergency s c t).die d).emergencyDue = (s.die d).relock.isSome ∧
    ((s.die d).relock = none → ((startEmergency s c t).die d).mhz = 600) := by
  subst die
  unfold startEmergency
  extract_lets d x u
  simp only [logEvent_die]
  split
  · rename_i h
    refine ⟨by simp [u, d], by simp [u, x, d], fun idle => ?_⟩
    simpa [u, x, d, idle] using h
  · exact ⟨by simp [beginRelock, u, d], by simp [beginRelock, u, x, d], fun _ => by simp [beginRelock, d]⟩

theorem startEmergency_die_other (c t : Nat) {e : Nat} (h : e ≠ c / 64) : (startEmergency s c t).die e = s.die e := by
  unfold startEmergency
  extract_lets d x u
  have hu : u.die e = s.die e := setDie_die_other _ _ h
  rw [logEvent_die]
  split
  · exact hu
  · exact (setDie_die_other _ _ h).trans hu

theorem startEmergency_core (c t k : Nat) : (startEmergency s c t).core k = s.core k := by
  unfold startEmergency
  extract_lets d x u
  rw [logEvent_core]
  split <;> rfl

theorem startEmergency_growth (c t : Nat) : ∃ e, (startEmergency s c t).growth.getLast? = some e ∧ e.code = 0x30 ∧ e.source = c / 64 :=
  ⟨_, (logEvent_record ..).2, rfl, rfl⟩

theorem endEmergency_die (d t : Nat) : (endEmergency s d t).die d = { s.die d with emergency := false } := by simp [endEmergency]

theorem endEmergency_die_other (t : Nat) {d e : Nat} (h : e ≠ d) : (endEmergency s d t).die e = s.die e := by
  rw [endEmergency, logEvent_die, setDie_die_other _ _ h]

theorem endEmergency_core (d t k : Nat) : (endEmergency s d t).core k = s.core k := by
  rw [endEmergency, logEvent_core]
  rfl
end

/-! ### The judgement of the dies (R359) -/

section
variable {s : State} {d : Nat}

theorem judgeDie_core (s : State) (d k : Nat) : (judgeDie s d).core k = s.core k := by
  unfold judgeDie
  extract_lets temps
  split
  · split
    · exact endEmergency_core ..
    · rfl
  · split
    · exact startEmergency_core ..
    · rfl

theorem judgeDie_die_other (s : State) {d e : Nat} (h : e ≠ d) : (judgeDie s d).die e = s.die e := by
  unfold judgeDie
  extract_lets temps
  split
  · split
    · exact endEmergency_die_other s _ h
    · rfl
  · split
    · rename_i j found
      have hj : j < 64 := List.mem_range.mp (List.mem_of_find?_eq_some found)
      exact startEmergency_die_other s _ _ (by omega)
    · rfl

theorem judgeDie_begins (calm : (s.die d).emergency = false) {j : Nat} (hj : j < 64) (hot : 1680 ≤ (s.core (64 * d + j)).temp) :
    ((judgeDie s d).die d).emergency = true := by
  unfold judgeDie
  extract_lets temps
  rw [if_neg (Bool.eq_false_iff.mp calm)]
  split
  · rename_i k found
    have hk : k < 64 := List.mem_range.mp (List.mem_of_find?_eq_some found)
    have die : (64 * d + k) / 64 = d := by omega
    exact (startEmergency_die s _ die).1
  · rename_i none_hot
    exact absurd (decide_eq_true hot) (List.find?_eq_none.mp none_hot j (List.mem_range.mpr hj))

theorem foldl_max_lt {b : Nat} (xs : List Nat) {m : Nat} (hm : m < b) (h : ∀ x ∈ xs, x < b) : xs.foldl max m < b :=
  List.foldlRecOn (motive := (· < b)) _ _ hm fun _ below x mem => max_lt below (h x mem)

theorem judgeDie_ends (emergency : (s.die d).emergency = true) (cool : ∀ j, j < 64 → (s.core (64 * d + j)).temp < 1520) :
    ((judgeDie s d).die d).emergency = false := by
  have below : ((List.range 64).map (fun j => (s.core (64 * d + j)).temp)).foldl max 0 < 1520 := by
    refine foldl_max_lt _ (by decide) fun x mem => ?_
    obtain ⟨j, hj, rfl⟩ := List.mem_map.mp mem
    exact cool j (List.mem_range.mp hj)
  unfold judgeDie
  extract_lets temps
  rw [if_pos emergency, if_pos below, endEmergency_die]

theorem judgeDies_core (ds : List Nat) (s : State) (k : Nat) : (ds.foldl judgeDie s).core k = s.core k :=
  List.foldlRecOn (motive := fun t : State => t.core k = s.core k) _ _ rfl fun t h d _ => (judgeDie_core t d k).trans h

theorem judgeDies_die_other {ds : List Nat} (s : State) (out : d ∉ ds) : (ds.foldl judgeDie s).die d = s.die d :=
  List.foldlRecOn (motive := fun t : State => t.die d = s.die d) _ _ rfl fun t h _ mem =>
    (judgeDie_die_other t (Ne.symm (ne_of_mem_of_not_mem mem out))).trans h

/-- All dies are judged one after another, each by its own state and its cores' sensors. -/
theorem judgeDies_die {n : Nat} (s : State) (hd : d < n) :
    ∃ u, ((List.range n).foldl judgeDie s).die d = (judgeDie u d).die d ∧ u.die d = s.die d ∧ ∀ k, u.core k = s.core k := by
  obtain ⟨pre, post, split⟩ := List.append_of_mem (List.mem_range.mpr hd)
  have once : (pre ++ d :: post).Nodup := split ▸ List.nodup_range
  have apart := List.nodup_middle.mp once
  rw [List.nodup_cons, List.mem_append, not_or] at apart
  obtain ⟨⟨before, after⟩, -⟩ := apart
  rw [split, List.foldl_append, List.foldl_cons]
  exact ⟨_, judgeDies_die_other _ after, judgeDies_die_other _ before, fun k => judgeDies_core ..⟩
end

/-! ### Sensors (R359) -/

theorem Tab.find_eq_find? {α : Type} (t : Tab α) (k : Nat) : Tab.find t k = (t.find? (fun e => e.1 == k)).map (·.2) := by
  induction t with
  | nil => rfl
  | cons e t ih => by_cases h : e.1 = k <;> simp [Tab.find, h, ih]

/-- A core once its sensor has been read, and the state in which all have been. -/
def sensedCore (s : State) (c : Nat) : Core := { s.core c with temp := s.free c % 4096, allow := allowOf (s.free c % 4096) }
def sensed (s : State) : State := { s with cores := senseCores s }.used 512

theorem senseCores_eq (s : State) : senseCores s = (List.range 512).map (fun c => (c, sensedCore s c)) := rfl

theorem sensed_core (s : State) {c : Nat} (hc : c < 512) : (sensed s).core c = sensedCore s c := by
  rw [State.core, sensed, used_cores, senseCores_eq, Tab.get_eq_find, Tab.find_eq_find?, find?_lane _ (List.mem_range.mpr hc)]
  rfl

theorem allowOf_bounds (temp : Nat) : 32 ≤ allowOf temp ∧ allowOf temp ≤ 256 := by
  unfold allowOf
  omega

/-- ALLOW follows the temperatures, which begin and end emergencies (R359). -/
theorem allowUpdate_judges (s : State) : ∃ t, exec .allowUpdate s = .next t ∧
    (∀ c, c < 512 → (t.core c).allow = allowOf (t.core c).temp ∧ 32 ≤ (t.core c).allow ∧ (t.core c).allow ≤ 256) ∧
    (∀ d j, d < 8 → j < 64 → (s.die d).emergency = false → 1680 ≤ (t.core (64 * d + j)).temp → (t.die d).emergency = true) ∧
    (∀ d, d < 8 → (s.die d).emergency = true → (∀ j, j < 64 → (t.core (64 * d + j)).temp < 1520) → (t.die d).emergency = false) := by
  refine ⟨(List.range 8).foldl judgeDie (sensed s), rfl, fun c hc => ?_, fun d j hd hj calm hot => ?_, fun d hd emergency cool => ?_⟩
  · rw [judgeDies_core, sensed_core s hc]
    exact ⟨rfl, allowOf_bounds _⟩
  · obtain ⟨u, judged, die, core⟩ := judgeDies_die (sensed s) hd
    rw [judgeDies_core, ← core] at hot
    rw [judged]
    exact judgeDie_begins (die ▸ calm) hj hot
  · obtain ⟨u, judged, die, core⟩ := judgeDies_die (sensed s) hd
    rw [judged]
    refine judgeDie_ends (die ▸ emergency) fun j hj => ?_
    rw [core, ← judgeDies_core (List.range 8)]
    exact cool j hj

/-- A core that reaches 105 °C begins its die's emergency (R359). -/
theorem thermalEmergency_begins {s : State} {c : Nat} (hc : c < 512) (calm : (s.die (c / 64)).emergency = false) :
    ∃ t e, exec (.thermalEmergency c) s = .next t ∧ (t.die (c / 64)).emergency = true ∧ 1680 ≤ (t.core c).temp ∧
      ((s.die (c / 64)).relock = none → (t.die (c / 64)).mhz = 600) ∧
      ((s.die (c / 64)).relock.isSome = true → (t.die (c / 64)).emergencyDue = true) ∧
      t.growth.getLast? = some e ∧ e.code = 0x30 ∧ e.source = c / 64 := by
  have runs : exec (.thermalEmergency c) s = .next (startEmergency ((s.setCore c { s.core c with temp := 1680 + s.free 0 % 2416 }).used 1) c
      (1680 + s.free 0 % 2416)) := by
    show execThermalEmergency c s = _
    simp [execThermalEmergency, Nat.not_le.mpr hc, calm]
  obtain ⟨begun, due, slow⟩ := startEmergency_die ((s.setCore c { s.core c with temp := 1680 + s.free 0 % 2416 }).used 1)
    (1680 + s.free 0 % 2416) (rfl : c / 64 = c / 64)
  obtain ⟨e, last, code, source⟩ := startEmergency_growth ((s.setCore c { s.core c with temp := 1680 + s.free 0 % 2416 }).used 1) c
    (1680 + s.free 0 % 2416)
  refine ⟨_, e, runs, begun, ?_, slow, fun relocking => due.trans relocking, last, code, source⟩
  rw [startEmergency_core]
  have sensor : (((s.setCore c { s.core c with temp := 1680 + s.free 0 % 2416 }).used 1).core c).temp = 1680 + s.free 0 % 2416 :=
    congrArg Core.temp (setCore_core_same ..)
  omega

/-- The state in which the sensors of a die's cores read the temperatures given. -/
def cooled (s : State) (d : Nat) (temps : List Nat) : State :=
  (List.range 64).foldl (fun s j => s.setCore (64 * d + j) { s.core (64 * d + j) with temp := temps.getD j 0 }) s

/-- The temperatures that an emergency leaves in the sensors (log entry 49). -/
def endTemps (s : State) : List Nat := (List.range 64).map (fun j => s.free j % 1520)

theorem cooled_die (s : State) (d : Nat) (temps : List Nat) (e : Nat) : (cooled s d temps).die e = s.die e :=
  List.foldlRecOn (motive := fun t : State => t.die e = s.die e) _ _ rfl fun _ h _ _ => h

theorem cooled_temp (s : State) (d : Nat) (temps : List Nat) {j : Nat} (hj : j < 64) :
    ((cooled s d temps).core (64 * d + j)).temp = temps.getD j 0 := by
  refine foldl_core (P := fun x => x.temp = temps.getD j 0) (fun s => ?_) (fun s k other => ?_) (List.mem_range.mpr hj) s
  · rw [setCore_core_same]
  · exact setCore_core_other _ _ (by omega)

/-- An emergency ends with every core of its die below 95 °C, at the frequency in force (R359). -/
theorem thermalEmergencyEnd_ends {s : State} {d : Nat} (hd : d < 8) (emergency : (s.die d).emergency = true) :
    ∃ t e, exec (.thermalEmergencyEnd d) s = .next t ∧ (t.die d).emergency = false ∧ (t.die d).mhz = (s.die d).mhz ∧
      (∀ j, j < 64 → (t.core (64 * d + j)).temp < 1520) ∧ t.growth.getLast? = some e ∧ e.code = 0x31 ∧ e.source = d := by
  have runs : exec (.thermalEmergencyEnd d) s =
      .next (endEmergency ((cooled s d (endTemps s)).used 64) d ((endTemps s).foldl max 0)) := by
    have going : (decide (8 ≤ d) || !(s.die d).emergency) = false := by simp [Nat.not_le.mpr hd, emergency]
    show execThermalEmergencyEnd d s = _
    unfold execThermalEmergencyEnd cooled endTemps
    rw [going, if_neg Bool.false_ne_true]
  have die : (endEmergency ((cooled s d (endTemps s)).used 64) d ((endTemps s).foldl max 0)).die d = { s.die d with emergency := false } := by
    rw [endEmergency_die, used_die, cooled_die]
  refine ⟨_, _, runs, (congrArg Die.emergency die :), (congrArg Die.mhz die :), fun j hj => ?_, (logEvent_record ..).2, rfl, rfl⟩
  rw [endEmergency_core, used_core, cooled_temp _ _ _ hj, endTemps, getD_map_range _ _ hj]
  exact Nat.mod_lt _ (by decide)

/-! ### DRAM stacks, power and memory errors (R312, R357, R360, R394, R396) -/

section
variable {s : State}

theorem dramStackStateChange_reads {k : Nat} (x : Nat) (hk : k < 16) : exec (.dramStackStateChange k x) s =
    if dramNext (Tab.get s.drams k 0) x = Tab.get s.drams k 0 then .next { s with dramTemps := Tab.put s.dramTemps k x }
    else .next (logEvent { s with drams := Tab.put s.drams k (dramNext (Tab.get s.drams k 0) x), dramTemps := Tab.put s.dramTemps k x }
      0x32 k 0 (toBytes 1 (dramNext (Tab.get s.drams k 0) x) ++ [0] ++ toBytes 2 x)) := by
  show execDramStackStateChange k x s = _
  simp only [execDramStackStateChange, Nat.not_le.mpr hk, if_false]

theorem budgetWindow_begins (due : s.budgetSince + 1000000 ≤ s.reftime) : ∃ t, exec .budgetWindow s = .next t ∧ t.rails.length = 17 ∧
    t = { s with budget := s.pclass, budgetSince := s.reftime, rails := t.rails, freeCtr := t.freeCtr } :=
  ⟨_, if_neg (Nat.not_lt.mpr due), rfl, rfl⟩

theorem poisonHome_poison (s : State) (ln x : Nat) : x ∈ (poisonHome s ln).poison ↔ x = ln ∨ x ∈ s.poison := by
  unfold poisonHome
  by_cases known : ln ∈ s.poison
  · simp only [List.contains_iff_mem.mpr known, if_true, iff_or_self]
    exact fun same => same ▸ known
  · simp [known, or_comm]

theorem uncorrectableError_poisons {x : Nat} (hx : x < 2 ^ 40) : ∃ t e, exec (.uncorrectableError x) s = .next t ∧ (x / 128) ∈ t.poison ∧
    (∀ ln, ln ≠ x / 128 → (ln ∈ t.poison ↔ ln ∈ s.poison)) ∧ t.mem = s.mem ∧ t.growth.getLast? = some e ∧ e.code = 0x90 ∧
      e.source = sliceOfLine (x / 128) := by
  have poison (ln : Nat) : ln ∈ (logPoison (poisonHome s (x / 128)) (x / 128)).poison ↔ ln = x / 128 ∨ ln ∈ s.poison := by
    rw [logPoison, logEvent_poison, poisonHome_poison]
  refine ⟨_, _, if_pos hx, (poison _).mpr (.inl rfl), fun ln other => ?_, logEvent_mem .., (logEvent_record ..).2, rfl, rfl⟩
  rw [poison, or_iff_right other]

/-- A time that was last noted at least `m` ago, or never, is not recent. -/
theorem any_recent_eq_false {last : Option Nat} {m now : Nat} (due : ∀ t, last = some t → t + m ≤ now) :
    last.any (fun t => decide (now < t + m)) = false := by
  cases last with
  | none => rfl
  | some t => exact decide_eq_false (Nat.not_lt.mpr (due t rfl))

theorem correctedSoftErrors_logs {k u n : Nat} (some_errors : n ≠ 0) (hk : k ≤ 4)
    (due : ∀ t, Tab.find s.softSince (k % 16 * 4096 + u % 4096) = some t → t + 1000000 ≤ s.reftime) :
    exec (.correctedSoftErrors k u n) s = .next (logEvent { s with softSince := Tab.put s.softSince (k % 16 * 4096 + u % 4096) s.reftime }
      0x80 (k % 16 * 4096 + u % 4096) 0 (toBytes 4 n)) := by
  have few : (decide (n = 0) || decide (4 < k)) = false := by simp [some_errors, Nat.not_lt.mpr hk]
  show execCorrectedSoftErrors k u n s = _
  simp only [execCorrectedSoftErrors, any_recent_eq_false due, few, Bool.or_self, Bool.false_eq_true, if_false]
end

/-- Settles O59: the events of a pair, then those of the clocks, of power and temperature, and of the memories' errors. -/
theorem packageEvents : Obligations.PackageEvents := by
  refine ⟨fun s sel pair => ?_, fun s => ⟨fun d hd => ?_, allowUpdate_judges s, fun c hc calm => thermalEmergency_begins hc calm,
    fun k x hk change => ?_, fun k x hk same => ?_, rfl, fun due => budgetWindow_begins due, fun line => rfl,
    fun x hx => uncorrectableError_poisons hx, fun k u n j some_errors hk hj due => ?_⟩⟩
  · intro p
    refine ⟨fun cls colour seq ok hcls hcolour routed => ?_, fun cls colour seq ok hcls hcolour gone => ?_,
      fun colour cause hcolour hcause present replays => ?_, fun gating a b => colourBGateOff_gates pair gating a b, if_pos pair,
      fun r k q drained next hk hq => ?_, fun busy => pairDrainEnd_waits busy, drained_iff p, fun v => routePairWrite_writes pair v,
      fun lost => routePairRetrain_starts pair lost, fun m a b training ha hb => ?_⟩
    · refine ⟨_, (exec_flitReceived ok pair hcls hcolour).trans (if_neg routed), fun known => flit_discarded (f := ⟨cls, colour, seq⟩) known,
        fun turn unheld good => ?_, fun ahead unheld good => ?_, fun new unheld bad => ?_, flit_routing ..⟩
      · subst good
        rw [flit_good (f := ⟨cls, colour, seq⟩) turn.ge unheld]
        obtain ⟨next, follow⟩ := arrived_inTurn (f := ⟨cls, colour, seq⟩) turn
        exact ⟨next, follow, arrived_forgets ..⟩
      · subst good
        rw [flit_good (f := ⟨cls, colour, seq⟩) ahead.le unheld]
        obtain ⟨received, held⟩ := arrived_early (f := ⟨cls, colour, seq⟩) ahead
        exact ⟨received, held, arrived_forgets ..⟩
      · subst bad
        exact flit_failed (f := ⟨cls, colour, seq⟩) new unheld
    · exact (exec_flitReceived ok pair hcls hcolour).trans (if_pos gone)
    · exact ⟨_, colourLost_loses pair hcolour hcause present replays, rfl, rfl, rfl, rfl, replaysFailed_losing ..⟩
    · have switched : q = p.switch r := hq
      subst hk switched
      have runs := pairDrainEnd_switches drained next
      exact ⟨fun same => runs.trans (by rw [if_pos same]), fun other => runs.trans (by rw [if_neg other])⟩
    · subst ha hb
      exact pairRetrainEnd_relocks m training
  · intro x
    refine ⟨fun f whole low high calm => frequencyDecision_stands hd whole low high calm, fun f wanted idle due => ?_,
      fun t0 n0 r0 f1 u relock hu => ?_, fun emergency => thermalEmergencyEnd_ends hd emergency⟩
    · have runs := relockStart_due hd wanted idle due
      exact ⟨fun other => runs.trans (if_neg other), fun same => runs.trans (if_pos same)⟩
    · subst hu
      have runs := relockEnd_restarts relock
      exact ⟨fun plain => runs.trans (by rw [plain]; rfl), fun owed => runs.trans (by rw [owed]; rfl)⟩
  · exact (dramStackStateChange_reads x hk).trans (if_neg change)
  · exact (dramStackStateChange_reads x hk).trans (if_pos same)
  · subst hj
    exact correctedSoftErrors_logs some_errors hk due

end Sys2Proof.Machine
end

section
/-! SUPPORT. What closes and opens do to an agent's bytes, and where those of a completed close at `.g` are seen (R224, R226, R229,
R250). -/

namespace Sys2Proof.Machine

open Sys2Proof.Safety

/-! ### No bytes, no change (R224, R394) -/

theorem writeHome_nil (s : State) : writeHome s [] = s := by
  simp [writeHome, clearedLines, linesOf, Memory.writeCells]

theorem countForks_nil (before s : State) : countForks before s [] = s := by
  refine congrArg (fun cs => { s with collectives := cs }) (List.map_id'' (fun e => ?_) s.collectives)
  split <;> rfl

theorem writeLocal_nil (s : State) (asid : Nat) : writeLocal s asid [] = s := by
  simp [writeLocal, spoilObjects, writeShared, writeHome_nil, countForks_nil]

theorem placeFrom_nil (s : State) (port k asid : Nat) : placeFrom s port k asid [] = s := by
  simp [placeFrom, cutOff, writeLocal_nil, placeAway, clearedLines, linesOf]

theorem dropViews_nil (s : State) (k : Nat) : dropViews s k [] = s := by
  simp [dropViews]

/-! ### States in which everything is found as before -/

theorem Tab.get_put_get {α : Type} (t : Tab α) (k j : Nat) (d : α) : Tab.get (Tab.put t k (Tab.get t k d)) j d = Tab.get t j d := by
  by_cases h : j = k
  · rw [h, Tab.get_put_same]
  · exact Tab.get_put_other _ _ _ h

/-- Two states differ at most in the order in which their tables of agents and groves stand. -/
def FoundSame (s t : State) : Prop :=
  { t with agents := s.agents, groves := s.groves } = s ∧ (∀ j, t.agent j = s.agent j) ∧ ∀ g, t.grove g = s.grove g

theorem foundSame_refl (s : State) : FoundSame s s := ⟨rfl, fun _ => rfl, fun _ => rfl⟩

theorem FoundSame.trans {s t u : State} (h : FoundSame s t) (h' : FoundSame t u) : FoundSame s u := by
  obtain ⟨rest, agents, groves⟩ := h
  obtain ⟨rest', agents', groves'⟩ := h'
  exact ⟨(congrArg (fun x : State => { x with agents := s.agents, groves := s.groves }) rest').trans rest,
    fun j => (agents' j).trans (agents j), fun g => (groves' g).trans (groves g)⟩

theorem foundSame_setAgent (s : State) (k : Nat) : FoundSame s (s.setAgent k (s.agent k)) :=
  ⟨rfl, fun j => Tab.get_put_get s.agents k j _, fun _ => rfl⟩

theorem foundSame_setGrove (s : State) (g : Nat) : FoundSame s (s.setGrove g (s.grove g)) :=
  ⟨rfl, fun _ => rfl, fun j => Tab.get_put_get s.groves g j _⟩

theorem foundSame_modAgent {s : State} {k : Nat} {f : Agent → Agent} (h : f (s.agent k) = s.agent k) : FoundSame s (s.modAgent k f) := by
  unfold State.modAgent
  split
  · exact foundSame_refl s
  · rename_i a ha
    rw [agent_of_find ha] at h
    rw [h, ← agent_of_find ha]
    exact foundSame_setAgent s k

theorem foundSame_foldl {β : Type} {f : State → β → State} {s : State} {xs : List β}
    (step : ∀ t, FoundSame s t → ∀ x ∈ xs, FoundSame t (f t x)) : FoundSame s (xs.foldl f s) :=
  List.foldlRecOn (motive := fun t : State => FoundSame s t) _ _ (foundSame_refl s) fun t h x hx => h.trans (step t h x hx)

/-! ### What is closed and not home (R224, R231) -/

theorem pushWhere_nothing {s : State} {g : Nat} (k asid : Nat) (p : Nat → Bool) (staging : (s.grove g).staging = [])
    (poison : (s.grove g).poison = []) : FoundSame s (pushWhere s g k asid p) := by
  have same : pushWhere s g k asid p = s.setGrove g (s.grove g) := by
    simp only [pushWhere, staging, poison, List.filter_nil, List.map_nil, List.append_nil, placeFrom_nil]
    rw [← staging, ← poison]
  rw [same]
  exact foundSame_setGrove s g

theorem flushWhere_nothing {s : State} {j : Nat} (p : Nat → Bool) (empty : ∀ c ∈ (s.agent j).closes, c.bytes = []) :
    FoundSame s (flushWhere p s j) := by
  unfold flushWhere
  extract_lets b cs bytes rest
  have ready : cs <+: b.closes := List.takeWhile_prefix _
  have none_here : ∀ c ∈ cs, c.bytes = [] := fun c hc => empty c (ready.subset hc)
  have no_bytes : bytes = [] :=
    List.foldlRecOn (motive := fun t : Tab Byte => t = []) _ _ rfl fun t h c hc => by rw [none_here c hc, h]; rfl
  have same : rest = b.closes := by
    have kept : cs.map (fun c => { c with bytes := c.bytes.filter (fun e => !p e.1) }) = cs := by
      refine (List.map_congr_left fun c hc => ?_).trans (List.map_id cs)
      rw [none_here c hc, List.filter_nil, ← none_here c hc]
      rfl
    rw [show rest = _ ++ _ from rfl, kept]
    exact List.prefix_iff_eq_append.mp ready
  rw [no_bytes, same, dropViews_nil, placeHome, placeFrom_nil]
  exact foundSame_modAgent rfl

/-- Nothing that others than an agent have closed is anywhere but at its home. -/
structure OthersHome (s : State) (k : Nat) : Prop where
  orphans : s.orphans = []
  closes : ∀ j, j ≠ k → ∀ c ∈ (s.agent j).closes, c.bytes = []
  staging : ∀ g, (s.grove g).staging = []
  poison : ∀ g, (s.grove g).poison = []

/-- Where others have closed nothing, a close carries nothing (R224). -/
theorem carryClosed_nothing {s : State} {k : Nat} (asid : Nat) (home : OthersHome s k) : FoundSame s (carryClosed s k asid) := by
  have settled : settleOrphans s = s := by rw [settleOrphans, home.orphans]; rfl
  rw [carryClosed, settled]
  have flushed : FoundSame s ((s.agentsWhere (fun j b => j != k && b.closes.any (fun c => !c.bytes.isEmpty))).foldl
      (flushWhere (fun _ => true)) s) := by
    refine foundSame_foldl fun t ⟨_, agents, _⟩ j hj => flushWhere_nothing _ ?_
    obtain ⟨e, he, rfl⟩ := List.mem_map.mp hj
    have other : e.1 ≠ k := by simpa using (Bool.and_eq_true_iff.mp (List.mem_filter.mp he).2).1
    exact agents e.1 ▸ home.closes e.1 other
  refine flushed.trans (foundSame_foldl fun t same g _ => ?_)
  obtain ⟨-, -, groves⟩ := flushed.trans same
  exact pushWhere_nothing _ _ _ (groves g ▸ home.staging g) (groves g ▸ home.poison g)

/-! ### What a close at `.g` leaves (R224, R229) -/

/-- Of the entries set in a table, the last of a key is found. -/
theorem Tab.find_foldl_put {α : Type} (cs t : Tab α) (k : Nat) : Tab.find (cs.foldl (fun t c => Tab.put t c.1 c.2) t) k =
    ((cs.filter (fun c => c.1 == k)).getLast?.map (·.2)).or (Tab.find t k) := by
  induction cs using List.reverseRecOn with
  | nil => rfl
  | append_singleton cs c ih =>
    rw [List.foldl_append, List.filter_append, List.foldl_cons, List.foldl_nil]
    by_cases h : c.1 = k
    · subst h
      simp
    · simp [Tab.find_put_other _ _ (Ne.symm h), h, ih]

/-- The bytes of a close stand where its grove sees them: in the staging cache, over what was there, with memory, held bytes and copies of
other devices' lines as they were (R224). -/
structure StagedOver (s t : State) (g : Nat) (bytes : Tab Byte) : Prop where
  staging : (t.grove g).staging = bytes.foldl (fun t e => Tab.put t e.1 e.2) (s.grove g).staging
  mem : t.mem = s.mem
  held : t.held = s.held
  peers : t.peers = s.peers
  device : t.device = s.device

theorem StagedOver.sharedByte_eq {s t : State} {g : Nat} {bytes : Tab Byte} (h : StagedOver s t g bytes) (loc : Nat) :
    sharedByte t g loc = ((bytes.filter (fun e => e.1 == loc)).getLast?.map (·.2)).or (sharedByte s g loc) := by
  simp only [sharedByte, h.staging, h.mem, h.held, h.peers, h.device, Tab.find_foldl_put]
  cases (bytes.filter (fun e => e.1 == loc)).getLast? <;> rfl

/-- Agents, and what their grids were forked with, do not matter to it. -/
theorem StagedOver.congr {s t u : State} {g : Nat} {bytes : Tab Byte} (h : StagedOver s t g bytes)
    (same : { u with agents := t.agents, grids := t.grids } = t) : StagedOver s u g bytes :=
  have groves : u.groves = t.groves := (congrArg State.groves same :)
  ⟨by rw [State.grove, groves]; exact h.staging, (congrArg State.mem same :).trans h.mem, (congrArg State.held same :).trans h.held,
    (congrArg State.peers same :).trans h.peers, (congrArg State.device same :).trans h.device⟩

section
variable {s : State} {k : Nat} {c : Close} (home : OthersHome s k)
include home

theorem placeClose_stages (narrow : c.scope ≤ 1) : StagedOver s (placeClose s k c) (s.agent k).grove c.bytes ∧
    (placeClose s k c).agent k = s.agent k := by
  obtain ⟨rest, agents, groves⟩ := carryClosed_nothing (s.agent k).asid home
  unfold placeClose
  extract_lets a t away u x
  have found : x = s.grove a.grove := groves a.grove
  rw [if_pos narrow, found]
  refine ⟨⟨?_, (congrArg State.mem rest :), (congrArg State.held rest :), (congrArg State.peers rest :),
    (congrArg State.device rest :)⟩, agents k⟩
  rw [State.grove, setGrove_groves, Tab.get_put_same]

variable (only : (s.agent k).closes = [c]) (scope : c.scope = 1) (new : c.begun = false) (views : forkedViews s k = false)
include only scope new views

theorem launchClose_stages : StagedOver s (launchClose s k c) (s.agent k).grove c.bytes ∧
    ((launchClose s k c).agent k).closes.drop 1 = [] := by
  obtain ⟨staged, agent⟩ := placeClose_stages (c := c) home scope.le
  have launched : launchClose s k c = dropViews ((placeClose s k c).setAgent k { s.agent k with
      closes := (s.agent k).closes.map (fun x => if x == c then { x with bytes := [], begun := true } else x) }) k c.bytes := by
    simp only [launchClose, new, views, agent, Bool.false_and, Bool.false_eq_true, if_false]
  rw [launched]
  generalize placeClose s k c = t at staged
  refine ⟨staged.congr rfl, ?_⟩
  change ((t.setAgent k _).agent k).closes.drop 1 = []
  rw [setAgent_agent_same, only]
  rfl

theorem completeClose_stages (wake : c.wake = none) : StagedOver s (completeClose s k) (s.agent k).grove c.bytes ∧
    ∃ b, Tab.find (completeClose s k).agents k = some b ∧ b.closes = [] := by
  obtain ⟨staged, gone⟩ := launchClose_stages home only scope new views
  have settled : settleFirst s k = (launchClose s k c).setAgent k { (launchClose s k c).agent k with closes := [] } := by
    simp only [settleFirst, only, scope, gone, Nat.not_ofNat_le_one, decide_false, Bool.false_and, Bool.false_eq_true, if_false]
  have completed : completeClose s k = settleFirst s k := by
    simp only [completeClose, only, wake, ite_self]
  rw [completed, settled]
  generalize launchClose s k c = t at staged
  exact ⟨staged.congr rfl, _, setAgent_find_same .., rfl⟩

end

/-- Nothing holds back the close of a running agent, which wakes nobody: it completes (R224, R245). -/
theorem exec_closeCompletion {s : State} {k : Nat} {c : Close} (orphans : s.orphans = []) (only : (s.agent k).closes = [c])
    (wake : c.wake = none) (free : closeFree s k c = true) (runs : dieStopped s (s.agent k).die = false) :
    exec (.closeCompletion k) s = .next (completeClose s k) := by
  show execCloseCompletion k s = _
  simp [execCloseCompletion, orphans, only, free, runs, wakeStopped, wake]

/-- An open ends what its agent has read in its phase, and leaves it its stores (R226). -/
theorem openPhase_forgets (s : State) (k sc : Nat) : ∃ b, Tab.find (openPhase s k sc).agents k = some b ∧ b.seen = [] ∧
    b.seenVer = [] ∧ b.stores = (s.agent k).stores ∧ b.kept = (s.agent k).kept := by
  have kept : Kept (fun a => (a.stores, a.kept)) s (settleCloses s k sc) := kept_settleCloses (fun _ _ => rfl) s k sc
  obtain ⟨stores, keptBytes⟩ := Prod.mk.inj (kept.2 k)
  unfold openPhase
  extract_lets t u a left waits
  exact ⟨_, setAgent_find_same _ _ _, rfl, rfl, stores, keptBytes⟩

theorem othersHome_of_find {s : State} {k : Nat} (orphans : s.orphans = [])
    (closes : ∀ j x, j ≠ k → Tab.find s.agents j = some x → ∀ y ∈ x.closes, y.bytes = [])
    (groves : ∀ g x, Tab.find s.groves g = some x → x.staging = [] ∧ x.poison = []) : OthersHome s k := by
  have grove (g : Nat) : (s.grove g).staging = [] ∧ (s.grove g).poison = [] := by
    rw [State.grove, Tab.get_eq_find]
    cases h : Tab.find s.groves g with
    | none => exact ⟨rfl, rfl⟩
    | some x => exact groves g x h
  refine ⟨orphans, fun j other => ?_, fun g => (grove g).1, fun g => (grove g).2⟩
  rw [State.agent, Tab.get_eq_find]
  cases h : Tab.find s.agents j with
  | none => exact fun c hc => nomatch hc
  | some x => exact closes j x other h

/-- Settles O35: a close at `.t`, a wider one, an open, and a close at `.g` that completes where others have closed nothing. -/
theorem closeEffects : Obligations.CloseEffects := by
  intro s k sc w a ha
  obtain rfl := agent_of_find ha
  refine ⟨rfl, fun wide => ?_, openPhase_forgets s k sc, fun c only scope wake free views runs orphans closes groves new => ?_⟩
  · rw [issueClose, if_neg wide]
    exact ⟨_, setAgent_find_same .., rfl, rfl, rfl, rfl, rfl⟩
  · obtain ⟨staged, b, hb, none_left⟩ :=
      completeClose_stages (othersHome_of_find orphans closes groves) only scope new views wake
    exact ⟨_, b, exec_closeCompletion orphans only wake free runs, hb, none_left, staged.mem, staged.sharedByte_eq⟩

end Sys2Proof.Machine
end

section
/-! SUPPORT. The barrier object and what an arrival makes of it (R246, R247). -/

namespace Sys2Proof.Machine

open Sys2Proof.Encoding

/-! ### The barrier object (R246, R247) -/

theorem ofBytes_lt : ∀ bs : List Byte, ofBytes bs < 256 ^ bs.length
  | [] => Nat.one_pos
  | b :: bs => by
    have low := b.isLt
    have high := ofBytes_lt bs
    rw [ofBytes, List.length_cons, Nat.pow_succ']
    omega

theorem sliceN_lt (bs : List Byte) (o n : Nat) : sliceN bs o n < 256 ^ n :=
  (ofBytes_lt _).trans_le (Nat.pow_le_pow_right (by omega) (List.length_take_le n _))

/-- The field that stands between two parts of a byte string. -/
theorem sliceN_middle {bs pre post : List Byte} (o n x : Nat) (h : bs = pre ++ (toBytes n x ++ post)) (ho : pre.length = o) :
    sliceN bs o n = x % 256 ^ n := by
  rw [sliceN, h, List.drop_left' ho, List.take_left' (length_toBytes n x), ofBytes_toBytes]

/-- A number stays within its width when a bit that it has not is added. -/
theorem add_two_pow_lt {x k n : Nat} (hx : x < 2 ^ n) (hk : k < n) (unset : bitN x k = false) : x + 2 ^ k < 2 ^ n := by
  have width : 2 ^ n = 2 * 2 ^ (n - k - 1) * 2 ^ k := by
    rw [← Nat.pow_succ', ← Nat.pow_add]
    congr 1
    omega
  have even : x / 2 ^ k % 2 = 0 := by simpa [bitN, Nat.testBit_eq_decide_div_mod_eq] using unset
  rw [width] at hx ⊢
  have small := Nat.div_lt_of_lt_mul (Nat.mul_comm .. ▸ hx)
  rw [← Nat.div_lt_iff_lt_mul (Nat.two_pow_pos k), Nat.add_div_right _ (Nat.two_pow_pos k)]
  omega

/-- A barrier object with its four fields and the bytes behind them (R246). -/
def objectOf (expect arrived gen mask : Nat) (rest : List Byte) : List Byte :=
  [toBytes 4 expect, toBytes 4 arrived, toBytes 4 gen, toBytes 4 0, toBytes 16 mask, rest].flatten

/-- The fields of an object, each as wide as it stands there (R246). -/
theorem objectOf_fields (expect arrived gen mask : Nat) {rest : List Byte} (hr : rest.length = 32) :
    let p := objectOf expect arrived gen mask rest
    p.length = 64 ∧ sliceN p 0 4 = expect % 2 ^ 32 ∧ sliceN p 4 4 = arrived % 2 ^ 32 ∧ sliceN p 8 4 = gen % 2 ^ 32 ∧
      sliceN p 16 16 = mask % 2 ^ 128 ∧ p.drop 32 = rest := by
  intro p
  have parts : p = toBytes 4 expect ++ (toBytes 4 arrived ++ (toBytes 4 gen ++ (toBytes 4 0 ++ (toBytes 16 mask ++ rest)))) := by
    simp [p, objectOf]
  refine ⟨by simp [parts, length_toBytes, hr], sliceN_middle 0 4 expect (pre := []) parts rfl,
    sliceN_middle 4 4 arrived parts (length_toBytes 4 _), ?_, ?_, ?_⟩
  · exact sliceN_middle 8 4 gen (pre := toBytes 4 expect ++ toBytes 4 arrived) (by simp only [parts, List.append_assoc]; rfl)
      (by simp [length_toBytes])
  · exact sliceN_middle 16 16 mask (pre := toBytes 4 expect ++ toBytes 4 arrived ++ toBytes 4 gen ++ toBytes 4 0)
      (by simp only [parts, List.append_assoc]; rfl) (by simp [length_toBytes])
  · rw [parts]
    simp only [← List.append_assoc]
    exact List.drop_left' (by simp [length_toBytes])

/-- The three outcomes of an arrival: the index has arrived before, is the last awaited, or is one of the others (R247). -/
theorem arriveObject_eq (o : List Byte) (k : Nat) : arriveObject o k =
    let mask := sliceN o 16 16
    let arrived := if bitN mask k then sliceN o 4 4 else sliceN o 4 4 + 1
    if arrived = sliceN o 0 4 then objectOf (sliceN o 0 4) 0 (sliceN o 8 4 + 1) 0 (o.drop 32)
    else objectOf (sliceN o 0 4) arrived (sliceN o 8 4) (if bitN mask k then mask else mask + 2 ^ k) (o.drop 32) := rfl

/-- Settles O38: each outcome of an arrival is an object of known fields, which fit in their widths. -/
theorem arrivalRule : Obligations.ArrivalRule := by
  intro o k length index waits few p
  have hrest : (o.drop 32).length = 32 := by rw [List.length_drop, length]
  have hgen : sliceN o 8 4 < 2 ^ 32 := sliceN_lt o 8 4
  have hmask : sliceN o 16 16 < 2 ^ 128 := sliceN_lt o 16 16
  have tail {q : List Byte} (h : q.drop 32 = o.drop 32) : sliceN q 32 32 = sliceN o 32 32 := by rw [sliceN, h, sliceN]
  have course := arriveObject_eq o k
  extract_lets mask arrived at course
  have fits : sliceN o 0 4 % 2 ^ 32 = sliceN o 0 4 := Nat.mod_eq_of_lt (by omega)
  by_cases seen : bitN mask k = true
  · have same : arrived = sliceN o 4 4 := if_pos seen
    rw [same, if_neg waits.ne, if_pos seen] at course
    obtain ⟨size, expect, count, gen, bits, rest⟩ := objectOf_fields (sliceN o 0 4) (sliceN o 4 4) (sliceN o 8 4) mask hrest
    rw [← course] at size expect count gen bits rest
    refine ⟨size, expect.trans fits, tail rest, fun new => absurd (seen.symm.trans new) (by decide),
      fun new => absurd (seen.symm.trans new) (by decide), fun _ => ⟨count.trans (Nat.mod_eq_of_lt (by omega)),
        gen.trans (Nat.mod_eq_of_lt hgen), bits.trans (Nat.mod_eq_of_lt hmask)⟩⟩
  · have one_more : arrived = sliceN o 4 4 + 1 := if_neg seen
    rw [one_more, if_neg seen] at course
    by_cases last : sliceN o 4 4 + 1 = sliceN o 0 4
    · rw [if_pos last] at course
      obtain ⟨size, expect, count, gen, bits, rest⟩ := objectOf_fields (sliceN o 0 4) 0 (sliceN o 8 4 + 1) 0 hrest
      rw [← course] at size expect count gen bits rest
      exact ⟨size, expect.trans fits, tail rest, fun _ more => absurd last more.ne, fun _ _ => ⟨count, gen, bits⟩,
        fun old => absurd old seen⟩
    · rw [if_neg last] at course
      obtain ⟨size, expect, count, gen, bits, rest⟩ :=
        objectOf_fields (sliceN o 0 4) (sliceN o 4 4 + 1) (sliceN o 8 4) (mask + 2 ^ k) hrest
      rw [← course] at size expect count gen bits rest
      have room : mask + 2 ^ k < 2 ^ 128 := add_two_pow_lt hmask index (Bool.eq_false_iff.mpr seen)
      exact ⟨size, expect.trans fits, tail rest, fun _ _ => ⟨count.trans (Nat.mod_eq_of_lt (by omega)),
        gen.trans (Nat.mod_eq_of_lt hgen), bits.trans (Nat.mod_eq_of_lt room)⟩, fun _ whole => absurd whole last, fun old => absurd old seen⟩

end Sys2Proof.Machine
end

section
/-! SUPPORT. Closes, opens and fences as instructions: what they wait for, and how they issue (R224 to R230, R250, R253, R333, R399). -/

namespace Sys2Proof.Machine

open Sys2Proof.Safety

/-! ### What comes before a close (R229, R234, R251, R399) -/

/-- A close of a scope can place the bytes that it covers (R399). -/
abbrev Placeable (u : State) (sc : Nat) : Prop := 2 ≤ sc → unplaceable u u.cur = none

/-- What a close waits for: an earlier close of its agent, or a bundle (R229, R251). -/
abbrev closeWaits (u : State) : Bool := closesPending u u.cur || (openBundle u u.cur).isSome

theorem closeWaits_of {u : State} (h : closesPending u u.cur = true ∨ openBundle u u.cur ≠ none) : closeWaits u = true := by
  rwa [Bool.or_eq_true, Option.isSome_iff_ne_none]

theorem closeWaits_idle {u : State} (pending : closesPending u u.cur = false) (bundle : openBundle u u.cur = none) :
    closeWaits u = false := by simp [pending, bundle]

section
variable {s : State} {sc : Nat} {go : State → Act}

theorem beforeClose_placeable (placeable : Placeable (beginClose s) sc) :
    beforeClose s sc go = if closeWaits (beginClose s) then .wait (beginClose s) else go (beginClose s) := by
  have nothing : (if 2 ≤ sc then unplaceable (beginClose s) (beginClose s).cur else none) = none := by
    split
    · exact placeable ‹_›
    · rfl
  simp only [beforeClose, nothing]

theorem beforeClose_stuck {x : Nat} (wide : 2 ≤ sc) (stuck : unplaceable (beginClose s) (beginClose s).cur = some x) :
    beforeClose s sc go = .trapIn (if closeWaits (beginClose s) then beginClose s else placePart (beginClose s) (beginClose s).cur)
      .fabricUnreachable x := by
  simp only [beforeClose, wide, stuck, if_true]

end

/-! ### Closes that issue (R224, R229, R250, R333) -/

/-- The instructions that close, with the scope of each: PCLOSE and PHASE that have not issued, and WAKE (R250, R333). -/
abbrev ClosesAt (a : Agent) (f : FArgs) (i : Instr) (sc : Nat) : Prop :=
  i = .pclose f ∧ sc = fScope f ∧ a.hold ≠ .placing ∨ i = .phase f ∧ sc = fScope f ∧ a.hold ≠ .placing ∨ i = .wake f ∧ sc = 2

/-- The close that an instruction issues in `u`, with the wake that it carries. -/
def closeOf (u : State) (a : Agent) (f : FArgs) (i : Instr) (sc : Nat) : State :=
  issueClose u u.cur sc (if i = .wake f then some (wakeTarget a f) else none)

/-- What follows a close that its agent need not wait for: of PHASE, an open. -/
def afterClose (t : State) (f : FArgs) (i : Instr) (sc : Nat) : State := if i = .phase f then openPhase t t.cur sc else t

@[simp] theorem afterClose_phase (t : State) (f : FArgs) (sc : Nat) : afterClose t f (.phase f) sc = openPhase t t.cur sc := if_pos rfl

@[simp] theorem afterClose_pclose (t : State) (f : FArgs) (sc : Nat) : afterClose t f (.pclose f) sc = t := if_neg (by simp)

/-- A close that holds its agent until its bytes are placed: it completes at once where nothing holds it back (log entry 72). -/
def placingClose (t : State) : State :=
  (if t.me.closes.all (closeFree t t.cur) then completeClose t t.cur else t).modAgent t.cur (fun b => { b with hold := .placing })

/-- A close is posted, and does not hold its agent: WAKE, one at `.t` or `.g`, or one with no bytes bound for other devices. -/
abbrev Posts (u : State) (f : FArgs) (i : Instr) (sc : Nat) : Prop := i = .wake f ∨ sc < 2 ∨ coversAway u u.cur = false

/-- What a close does once nothing stands before it (R229, R399). -/
def closeAct (a : Agent) (f : FArgs) (i : Instr) (sc : Nat) (u : State) : Act :=
  if Posts u f i sc then .go (afterClose (closeOf u a f i sc) f i sc) else .hold (placingClose (closeOf u a f i sc))

theorem closeAct_wake (a : Agent) (f : FArgs) (sc : Nat) :
    closeAct a f (.wake f) sc = fun u => .go (issueClose u u.cur sc (some (wakeTarget a f))) := by
  funext u
  simp [closeAct, closeOf, afterClose]

theorem closeHere_issues {s : State} {a : Agent} {f : FArgs} {i : Instr} {sc : Nat} (form : i = .pclose f ∨ i = .phase f)
    (fresh : a.hold ≠ .placing) : closeHere s a sc (fun t => .go (afterClose t f i sc)) = beforeClose s sc (closeAct a f i sc) := by
  have other : i ≠ .wake f := by obtain rfl | rfl := form <;> simp
  unfold closeHere
  split
  · contradiction
  · congr 1
    funext u
    simp only [closeAct, closeOf, Posts, other, false_or, if_false, Bool.or_eq_true, decide_eq_true_eq, Bool.not_eq_true']
    rfl

/-- The course that the closing instructions share. -/
theorem closesAt_course {s : State} {a : Agent} {f : FArgs} {i : Instr} {sc : Nat} (form : ClosesAt a f i sc) (on : guardOn a i = true) :
    ∃ body, exec i s = issue i s body ∧ body s a = beforeClose s sc (closeAct a f i sc) := by
  obtain ⟨rfl, rfl, fresh⟩ | ⟨rfl, rfl, fresh⟩ | ⟨rfl, rfl⟩ := form
  · refine ⟨_, show execPclose f s = _ from rfl, ?_⟩
    simpa [on] using closeHere_issues (.inl rfl) fresh
  · refine ⟨_, show execPhase f s = _ from rfl, ?_⟩
    simpa [on] using closeHere_issues (.inr rfl) fresh
  · refine ⟨_, show execWake f s = _ from rfl, ?_⟩
    simp [on, closeAct_wake]

section
variable {s : State} {a : Agent} {f : FArgs} {i : Instr} {sc : Nat} (form : ClosesAt a f i sc) (r : Ready s a i) (on : guardOn a i = true)
include form r on

theorem close_traps {x : Nat} (wide : 2 ≤ sc) (stuck : unplaceable (beginClose s) (beginClose s).cur = some x) :
    exec i s = .next (takeTrap (if closeWaits (beginClose s) then beginClose s else placePart (beginClose s) (beginClose s).cur)
      s.cur .fabricUnreachable x) := by
  obtain ⟨body, runs, act⟩ := closesAt_course form on
  exact trapsIn_of_body r runs (act.trans (beforeClose_stuck wide stuck))

section
variable (placeable : Placeable (beginClose s) sc)
include placeable

theorem close_waits (waits : closeWaits (beginClose s) = true) : exec i s = .next ((beginClose s).setMe (beginClose s).me.heldBack) := by
  obtain ⟨body, runs, act⟩ := closesAt_course (s := s) form on
  have plain : Agent.waitAt i = Agent.heldBack := by obtain ⟨rfl, -⟩ | ⟨rfl, -⟩ | ⟨rfl, -⟩ := form <;> rfl
  exact heldBack_of_body r runs plain (act.trans ((beforeClose_placeable placeable).trans (if_pos waits)))

variable (idle : closeWaits (beginClose s) = false)
include idle

theorem close_posted (posts : Posts (beginClose s) f i sc) : GoesOn i s a (afterClose (closeOf (beginClose s) a f i sc) f i sc) := by
  obtain ⟨body, runs, act⟩ := closesAt_course form on
  rw [beforeClose_placeable placeable, if_neg (Bool.eq_false_iff.mp idle), closeAct, if_pos posts] at act
  exact goesOn_of_body r runs act

theorem close_placing (holds : ¬ Posts (beginClose s) f i sc) : Stays i s (placingClose (closeOf (beginClose s) a f i sc)) := by
  obtain ⟨body, runs, act⟩ := closesAt_course form on
  rw [beforeClose_placeable placeable, if_neg (Bool.eq_false_iff.mp idle), closeAct, if_neg holds] at act
  exact stays_of_body r runs act

end
end

/-! ### Closes that hold their agent (R399; log entry 72) -/

theorem closeHere_placing {s : State} {a : Agent} {sc : Nat} (go : State → Act) (held : a.hold = .placing) : closeHere s a sc go =
    if closesPending s s.cur then (unplaceable s s.cur).elim (.wait s) (.trapIn s .fabricUnreachable)
    else go (s.setMe { a with hold := .none }) := by
  simp only [closeHere, held]
  cases closesPending s s.cur
  · rfl
  · cases unplaceable s s.cur <;> rfl

section
variable {s : State} {a : Agent} {f : FArgs} {i : Instr} (form : i = .pclose f ∨ i = .phase f) (r : Ready s a i)
  (on : guardOn a i = true) (held : a.hold = .placing)
include form on held

theorem placing_course : ∃ body, exec i s = issue i s body ∧ body s a =
    if closesPending s s.cur then (unplaceable s s.cur).elim (.wait s) (.trapIn s .fabricUnreachable)
    else .go (afterClose (s.setMe { a with hold := .none }) f i (fScope f)) := by
  obtain rfl | rfl := form
  · refine ⟨_, show execPclose f s = _ from rfl, ?_⟩
    simpa [on] using closeHere_placing .go held
  · refine ⟨_, show execPhase f s = _ from rfl, ?_⟩
    simpa [on] using closeHere_placing (fun t => .go (openPhase t t.cur (fScope f))) held

include r

theorem placing_ends (done : closesPending s s.cur = false) :
    GoesOn i s a (afterClose (s.setMe { a with hold := .none }) f i (fScope f)) := by
  obtain ⟨body, runs, act⟩ := placing_course (s := s) form on held
  exact goesOn_of_body r runs (act.trans (if_neg (Bool.eq_false_iff.mp done)))

theorem placing_waits (pending : closesPending s s.cur = true) (placeable : unplaceable s s.cur = none) :
    exec i s = .next (s.setMe s.me.heldBack) := by
  obtain ⟨body, runs, act⟩ := placing_course (s := s) form on held
  rw [if_pos pending, placeable] at act
  exact heldBack_of_body r runs (by obtain rfl | rfl := form <;> rfl) act

theorem placing_traps {x : Nat} (pending : closesPending s s.cur = true) (stuck : unplaceable s s.cur = some x) :
    Traps i s .fabricUnreachable x := by
  obtain ⟨body, runs, act⟩ := placing_course (s := s) form on held
  rw [if_pos pending, stuck] at act
  exact trapsIn_of_body r runs act

end

/-! ### Opens and fences (R226, R230, R253) -/

theorem popen_opens {s : State} {a : Agent} {f : FArgs} (r : Ready s a (.popen f)) (on : guardOn a (.popen f) = true) :
    GoesOn (.popen f) s a (openPhase (drainAll s s.cur) s.cur (fScope f)) := by
  refine goesOn_of_body r (by rfl) ?_
  simp only [on, Bool.not_true, Bool.false_eq_true, if_false]

section
variable {s : State} {a : Agent} {f : FArgs} (r : Ready s a (.fence f)) (on : guardOn a (.fence f) = true)
include r on

theorem fence_goesOn (performed : unperformed (drainAll s s.cur) (drainAll s s.cur).cur = false) :
    GoesOn (.fence f) s a (drainAll s s.cur) := by
  refine goesOn_of_body r (by rfl) ?_
  simp only [on, performed, Bool.not_true, Bool.false_eq_true, if_false]

theorem fence_waits (waits : unperformed (drainAll s s.cur) (drainAll s s.cur).cur = true) :
    exec (.fence f) s = .next ((drainAll s s.cur).setMe (drainAll s s.cur).me.heldBack) := by
  refine heldBack_of_body r (by rfl) rfl ?_
  simp only [on, waits, Bool.not_true, Bool.false_eq_true, if_false, if_true]

end

/-- Settles O34: the closing instructions as they come, and as they hold their agent; then POPEN, FENCE, and each with its guard false. -/
theorem closeResults : Obligations.CloseResults := by
  intro s a f u
  refine ⟨fun i sc form r on => ⟨fun placeable pending bundle => ⟨?_, fun other wide away => ?_⟩,
      fun placeable waits => close_waits form r on placeable (closeWaits_of waits), fun x => close_traps form r on⟩,
    fun i form r on held => ⟨placing_ends form r on held, placing_waits form r on held, fun x => placing_traps form r on held⟩,
    popen_opens, fun r on => ⟨fence_goesOn r on, fence_waits r on⟩, fun i form r off => ?_⟩
  · exact close_posted form r on placeable (closeWaits_idle pending bundle)
  · refine close_placing form r on placeable (closeWaits_idle pending bundle) ?_
    rintro (wake | narrow | near)
    · exact other wake
    · omega
    · exact absurd (near.symm.trans away) (by decide)
  · obtain rfl | rfl | rfl | rfl | rfl := form
    all_goals
      refine goesOn_of_body r (by rfl) ?_
      simp only [off, Bool.not_false, if_true]

end Sys2Proof.Machine
end

section
/-! SUPPORT. Bundles as instructions: BCLOSE and BQUERY (R237 to R239, R244, R251, R252). -/

namespace Sys2Proof.Machine

open Sys2Proof.Safety

/-! ### BCLOSE (R237 to R239, R244, R251) -/

/-- What a BCLOSE waits for: what a close does, and the agent's side-logged stores (R237, R245, R251). -/
abbrev bundleWaits (u : State) : Bool := closesPending u u.cur || (openBundle u u.cur).isSome || !(sideEntries u u.cur).isEmpty

theorem bundleWaits_of {u : State} (h : closesPending u u.cur = true ∨ openBundle u u.cur ≠ none ∨ sideEntries u u.cur ≠ []) :
    bundleWaits u = true := by
  rwa [bundleWaits, Bool.or_eq_true, Bool.or_eq_true, Option.isSome_iff_ne_none, Bool.not_eq_true', List.isEmpty_eq_false_iff, or_assoc]

theorem bundleWaits_idle {u : State} (pending : closesPending u u.cur = false) (bundle : openBundle u u.cur = none)
    (logged : sideEntries u u.cur = []) : bundleWaits u = false := by simp [pending, bundle, logged]

/-- The bundle of a BCLOSE in `u`. -/
abbrev bundleOf (u : State) (a : Agent) (f : FArgs) : State × Nat := formBundle u (fScope f) (regGet a f.a.toNat 0)

/-- What a BCLOSE that has not issued does: its lines, the bytes beside its bundle and what it waits for come before the bundle. -/
def bundleAct (f : FArgs) (s : State) (a : Agent) : Act :=
  let u := beginClose s
  if 4096 < bundleLines s a then .trap .bundleLimit 0
  else match unplaceableBeside u u.cur with
    | some x => .trapIn (if bundleWaits u then u else placeBeside u u.cur) .fabricUnreachable x
    | none => if bundleWaits u then .wait u else bundleDone (bundleOf u a f).1 f (bundleOf u a f).2

theorem bundleAct_few {s : State} {a : Agent} {f : FArgs} (few : bundleLines s a ≤ 4096)
    (placeable : unplaceableBeside (beginClose s) (beginClose s).cur = none) : bundleAct f s a =
      if bundleWaits (beginClose s) then .wait (beginClose s)
      else bundleDone (bundleOf (beginClose s) a f).1 f (bundleOf (beginClose s) a f).2 := by
  simp only [bundleAct, Nat.not_lt.mpr few, placeable, if_false]

section
variable {t : State} {f : FArgs} {id : Nat} {b : Bundle} (there : Tab.find t.bundles id = some b)
include there

/-- A BCLOSE whose bundle is placed, or withdrawn, goes on with its identity (R239, R244). -/
theorem bundleDone_decided (decided : b.state ≠ .pending) :
    bundleDone t f id = .go (t.setMe (wrN { t.me with hold := .none } f.d.toNat 2 (fun _ => some b.ident))) := by
  simp only [bundleDone, there, beq_iff_eq, decided, if_false]

theorem bundleDone_pending (pending : b.state = .pending) :
    bundleDone t f id = holdOnce t.me (t.setMe { t.me with hold := .bundle id }) := by
  simp only [bundleDone, there, pending, beq_self_eq_true, if_true]
end

section
variable {s : State} {a : Agent} {f : FArgs} (r : Ready s a (.bclose f))

/-- A BCLOSE that is not yet in the middle of a bundle, and one that is. -/
theorem bclose_course (on : guardOn a (.bclose f) = true) : ∃ body, exec (.bclose f) s = issue (.bclose f) s body ∧
    ((∀ id, a.hold ≠ .bundle id) → body s a = bundleAct f s a) ∧
    (∀ id, a.hold = .bundle id → body s a = bundleDone (placeVersions s id) f id) := by
  refine ⟨_, show execBclose f s = _ from rfl, ?_⟩
  simp only [on, Bool.not_true, Bool.false_eq_true, if_false]
  refine ⟨fun fresh => ?_, fun id held => by simp only [held]⟩
  split
  · exact absurd ‹_› (fresh _)
  · rfl

/-- A BCLOSE that may issue has formed its bundle. -/
theorem bclose_forms (on : guardOn a (.bclose f) = true) (fresh : ∀ id, a.hold ≠ .bundle id) (few : bundleLines s a ≤ 4096)
    (placeable : unplaceableBeside (beginClose s) (beginClose s).cur = none) (idle : bundleWaits (beginClose s) = false) :
    ∃ body, exec (.bclose f) s = issue (.bclose f) s body ∧
      body s a = bundleDone (bundleOf (beginClose s) a f).1 f (bundleOf (beginClose s) a f).2 := by
  obtain ⟨body, runs, first, -⟩ := bclose_course (s := s) on
  exact ⟨body, runs, (first fresh).trans ((bundleAct_few few placeable).trans (if_neg (Bool.eq_false_iff.mp idle)))⟩

include r

theorem bclose_off (off : guardOn a (.bclose f) = false) : GoesOn (.bclose f) s a s := by
  refine goesOn_of_body r (by rfl) ?_
  simp only [off, Bool.not_false, if_true]

variable (on : guardOn a (.bclose f) = true)
include on

section
variable (fresh : ∀ id, a.hold ≠ .bundle id)
include fresh

theorem bclose_tooMany (many : 4096 < bundleLines s a) : Traps (.bclose f) s .bundleLimit 0 := by
  obtain ⟨body, runs, first, -⟩ := bclose_course (s := s) on
  exact traps_of_body r runs ((first fresh).trans (if_pos many))

theorem bclose_stuck {x : Nat} (few : bundleLines s a ≤ 4096) (stuck : unplaceableBeside (beginClose s) (beginClose s).cur = some x) :
    exec (.bclose f) s = .next (takeTrap (if bundleWaits (beginClose s) then beginClose s
      else placeBeside (beginClose s) (beginClose s).cur) s.cur .fabricUnreachable x) := by
  obtain ⟨body, runs, first, -⟩ := bclose_course (s := s) on
  refine trapsIn_of_body r runs ((first fresh).trans ?_)
  simp only [bundleAct, Nat.not_lt.mpr few, stuck, if_false]

theorem bclose_waits (few : bundleLines s a ≤ 4096) (placeable : unplaceableBeside (beginClose s) (beginClose s).cur = none)
    (waits : bundleWaits (beginClose s) = true) : exec (.bclose f) s = .next ((beginClose s).setMe (beginClose s).me.heldBack) := by
  obtain ⟨body, runs, first, -⟩ := bclose_course (s := s) on
  exact heldBack_of_body r runs rfl ((first fresh).trans ((bundleAct_few few placeable).trans (if_pos waits)))

end
end

/-! ### BQUERY (R252) -/

/-- An instruction starts with a result outstanding that sets no flag, whether or not it parks its team or accesses memory. -/
theorem longFrom_mkEntry {i : Instr} {s t : State} {a : Agent} {body : State → Agent → Act} {d : Reg} {n : Nat} {parks mem : Bool}
    {x : Nat → Nat} (r : Ready s a i) (runs : exec i s = issue i s body)
    (act : body s a = .long t (mkEntry a i d n parks mem [] x)) : LongFrom i s a t d n (fun l => (x l, 0)) := by
  refine ⟨_, starts_of_body r runs act, rfl, rfl, rfl, rfl, rfl, rfl, rfl, fun l within acts => ⟨?_, rfl⟩⟩
  exact (value_of_map (f := fun l => if actsIn a i l then x l else 0) rfl rfl within).trans (if_pos acts)

theorem bquery_answers {s : State} {a : Agent} {f : FArgs} (r : Ready s a (.bquery f)) (token : tokenFree s a = true)
    (on : guardOn a (.bquery f) = true) (home : rdN a f.a.toNat 2 0 % 2 ^ 48 / 2 ^ 37 = (republish s s.cur).device) :
    LongFrom (.bquery f) s a (republish s s.cur) f.d 1
      (fun _ => (bundleAnswer (republish s s.cur) (mb f.mod 0) (rdN a f.a.toNat 2 0 % 2 ^ 48), 0)) := by
  refine longFrom_mkEntry r (by rfl) (parks := true) (mem := true) ?_
  simp only [token, on, home, Bool.not_true, Bool.false_eq_true, if_false, beq_self_eq_true, if_true]

/-- Settles O36: BCLOSE before its bundle is formed, with the bundle it forms, and when it looks for that bundle again; then BQUERY. -/
theorem bundleResults : Obligations.BundleResults := by
  intro s a f u
  refine ⟨fun r on fresh => ⟨bclose_tooMany r on fresh, fun x few stuck => bclose_stuck r on fresh few stuck,
      fun few placeable => ⟨fun waits => bclose_waits r on fresh few placeable (bundleWaits_of waits),
        fun b pending bundle logged there => ?_⟩⟩,
    fun id b r on held there => ?_, bclose_off, bquery_answers⟩
  · obtain ⟨body, runs, act⟩ := bclose_forms on fresh few placeable (bundleWaits_idle pending bundle logged)
    refine ⟨fun decided => goesOn_of_body r runs (act.trans (bundleDone_decided there decided)), fun waits once => stays_of_body r runs ?_⟩
    exact act.trans ((bundleDone_pending there waits).trans (if_neg (Bool.eq_false_iff.mp once)))
  · obtain ⟨body, runs, -, again⟩ := bclose_course (s := s) on
    have act := again id held
    refine ⟨fun decided => goesOn_of_body r runs (act.trans (bundleDone_decided there decided)), fun waits once => heldBack_of_body r runs rfl ?_⟩
    exact act.trans ((bundleDone_pending there waits).trans (if_pos once))

end Sys2Proof.Machine
end
